-- ==== Sys2Proof/Word.lean ====
section
/-! DEFINITION. The words the manual treats as bits, and strings of bytes. -/

namespace Sys2Proof

/-- One byte. -/
abbrev Byte := BitVec 8

/-- One 32-bit register word (R4). -/
abbrev Word := BitVec 32

/-- A string of bytes, the first byte first. -/
abbrev Bytes := List (BitVec 8)

end Sys2Proof
end

