-- ==== Sys2Proof/Syntax.lean ====
section
/-! DEFINITION. The commands the block takes (Instr), one constructor for each row of the opcode table, and the types of
their operands.  A `lapse` operand is the number of core cycles that pass between the command before and this one. -/

namespace Sys2Proof

/-- The sections of an image, in image order (R60); the worlds of the key store (R282) carry the same three names. -/
inductive Sect where
  | vendor | operator | metrology
  deriving DecidableEq, Repr

/-- The condition of a bobbin instruction: it executes when predicate `pred` XOR `neg` is 1 (R247). -/
structure Pq where
  pred : Fin 8
  neg  : Bool
  deriving DecidableEq, Repr

/-- A bobbin register number, w0 to w31 (R248). -/
abbrev RegIx := Fin 32

/-- A bobbin predicate number, p0 to p7 (R227). -/
abbrev PredIx := Fin 8

/-- The COND of CMP and CMPI. -/
inductive Cond where
  | eq | ne | lt | ge | ltu | geu
  deriving DecidableEq, Repr

/-- The COND of FCMP. -/
inductive FCond where
  | eq | lt | le | un
  deriving DecidableEq, Repr

/-- The OP of PLOG. -/
inductive PlogOp where
  | and | or | xor | andn
  deriving DecidableEq, Repr

/-- Why an Ethernet link went down (R86), coded 0 to 3 in the detail of ETH_LINK_DOWN. -/
inductive LinkCause where
  | lockLost | hiBer | markerLost | syncLost
  deriving DecidableEq, Repr

/-- How a received frame ended: a correct FCS, a wrong FCS, or the complement of the correct FCS. -/
inductive Fcs where
  | good | bad | stomped
  deriving DecidableEq, Repr

/-- A frame as it ends on a port: its bytes from the destination address to the end of the payload (for a frame of
16,384 bytes or more, any longer string), how its FCS stood, whether it held an error character or an invalid
code-group, and the FEC codewords that were corrected and that could not be corrected since the frame before (R83). -/
structure RxFrame where
  data   : Bytes
  fcs    : Fcs
  symErr : Bool
  corr   : Nat
  uncorr : Nat
  deriving DecidableEq, Repr

/-- The three CAN formats (R105). -/
inductive CanFmt where
  | classical | fd | xl
  deriving DecidableEq, Repr

/-- A CAN message on the bus; `rtr` is RRS in the FD and XL formats. -/
structure CanMsg where
  fmt  : CanFmt
  ide  : Bool
  rtr  : Bool
  brs  : Bool
  esi  : Bool
  sec  : Bool
  dlc  : BitVec 4
  id   : BitVec 29
  sdt  : BitVec 8
  vcid : BitVec 8
  af   : BitVec 32
  data : Bytes
  deriving DecidableEq, Repr

/-- The error types of ISO 11898-1:2024 (R128, counters 20 to 24). -/
inductive CanErr where
  | bit | stuff | form | ack | crc
  deriving DecidableEq, Repr

/-- Where a CAN error is met, as the counting rules of ISO 11898-1 tell the cases apart: in a message; in its arbitration field, where a
stuff bit sent recessive reads dominant; in the controller's own active error or overload flag; or as eight more dominant bits after a
flag. -/
inductive CanErrAt where
  | message | arbitration | flag | dominantRun
  deriving DecidableEq, Repr

/-- An error that a CAN controller meets: its kind, where, and whether the message had passed the edge at which the controller measures its
transmitter delay (R108). -/
structure CanFault where
  kind  : CanErr
  place : CanErrAt
  edge  : Bool
  deriving DecidableEq, Repr

/-- A lock of the PCS: the port, and the FEC of the far end, coded as ETH_CFG.FEC (R83). -/
structure PcsLock where
  p   : Fin 24
  fec : BitVec 2
  deriving DecidableEq, Repr

/-- A loss of a link: its cause, and what has come of a frame in reception, where there is one (R86). -/
structure LinkLoss where
  cause : LinkCause
  rx    : Option Bytes
  deriving DecidableEq, Repr

/-- The width of a management core's access (R374). -/
inductive Width where
  | byte | half | word | double
  deriving DecidableEq, Repr

/-- Bytes of a width. -/
def Width.bytes : Width → Nat
  | .byte => 1
  | .half => 2
  | .word => 4
  | .double => 8

/-- What a management core stores with: a plain store, an atomic operation of the A extension of RV64IMAC, or the store-conditional of one of
the four cores (R374). -/
inductive CoreOp where
  | store | swap | add | xor | and | or | min | max | minu | maxu
  | storeCond (core : Fin 4)
  deriving DecidableEq, Repr

/-- A load of a management core; `reserve` is the core whose load-reserved it is. -/
structure CoreLoad where
  addr    : Word
  width   : Width
  reserve : Option (Fin 4)
  deriving DecidableEq, Repr

/-- What a management core writes: the value, of which the bytes of the width count, and the operation. -/
structure CoreStore where
  value : BitVec 64
  width : Width
  op    : CoreOp
  deriving DecidableEq, Repr

/-- A plain 32-bit load. -/
def CoreLoad.word (a : Word) : CoreLoad := ⟨a, .word, none⟩

/-- A plain 32-bit store. -/
def CoreStore.word (v : Word) : CoreStore := ⟨v.setWidth 64, .word, .store⟩

/-- The commands of the block: one constructor for each row of the opcode table. -/
inductive Instr where
  /-- REGISTER_WRITE (R7). A management-core write to a register that has no row of its own acts field by field; a forbidden write raises SYS_WRITE_IGNORED. Its value may
be of any width and operation (R374). -/
  | registerWrite (lapse : Nat) (addr : Word) (value : CoreStore)
  /-- REG64_LOW_READ (R4). A read of the low word of a 64-bit register latches the high word for a later read. -/
  | reg64LowRead (lapse : Nat) (load : CoreLoad)
  /-- TIME_NOW_READ (R57). A read of the low word of TIME_NOW latches the high word, the fraction and the hoop index in one cycle. -/
  | timeNowRead (lapse : Nat)
  /-- TIME_RATE_WRITE (R31). A write of TIME_RATE takes effect in the next cycle with TIME_OFFSET compensated; an out-of-range value is clamped and TIME_RATE_BOUND is raised. -/
  | timeRateWrite (lapse : Nat) (value : Word)
  /-- TIME_ADJ_WRITE (R34). A write of TIME_ADJ replaces the remaining slew amount; a write of zero ends the slew. -/
  | timeAdjWrite (lapse : Nat) (value : Word)
  /-- TIME_ADJ_DONE (R33). The slew's remaining amount reaches zero and TIME_ADJ_DONE is raised. -/
  | timeAdjDone
  /-- SERVO_REPORT (R36). A write of TIME_SERVO_OFFSET updates GOOD_RUN and the loss test for time trust. -/
  | servoReport (lapse : Nat) (value : Word)
  /-- FORCE_LOSS (R36). A write of TIME_CTRL.FORCE_LOSS declares sync lost and resets GOOD_RUN. -/
  | forceLoss (lapse : Nat) (value : Word)
  /-- SYNC_REPORT_TIMEOUT (R36). Three sync intervals pass without a servo report, so sync is lost. -/
  | syncReportTimeout
  /-- HOLDOVER_EXPIRY (R36). 60 s pass in HOLDOVER without regaining SYNCED, so trust moves to DEGRADED. -/
  | holdoverExpiry
  /-- HOOP_BOUNDARY (R49). LT reaches a hoop boundary; statistics and samplers flip, the index advances, and pending swaps, commits and trust changes take effect. -/
  | hoopBoundary (pins : Word)
  /-- SWAP_DELAY_EXPIRY (R50). At B + SWAP_DELAY the signal-memory read view swaps to the bank of the hoop that ended. -/
  | swapDelayExpiry
  /-- PPS_IN_EDGE (R55). A rising edge on an enabled PPS_IN captures its LT and counts the edge. -/
  | ppsInEdge (lapse : Nat) (i : Fin 2)
  /-- PPS_IN_MISSING (R55). An enabled PPS_IN sees no edge for 2 s and the event is raised. -/
  | ppsInMissing (i : Fin 2)
  /-- PPS_OUT_PULSE (R56). PPS_OUT drives a pulse of the configured width at each event of its source. -/
  | ppsOutPulse (j : Fin 4)
  /-- TIME_TSQ_POP (R43). A write of TIME_TSQ_POP removes the oldest timestamp record of a group. -/
  | timeTsqPop (g : Fin 8) (value : Word)
  /-- POWER_ON_RESET (R330). Supplies rising or dipping below threshold reset everything, including the always-on domain. -/
  | powerOnReset (dip : Nat)
  /-- RESET_N_ASSERT (R385). A low on RESET_N of 10 µs or more resets everything except the always-on domain. -/
  | resetNAssert (low : Nat)
  /-- RESET_N_RELEASE (R385). The rising edge of RESET_N begins a start. -/
  | resetNRelease
  /-- FIRMWARE_RESET_REQUEST (R331). A write of SYS_RESET_REQ with GO and CONFIRM 0xA5 requests a warm reset; any other write is ignored. -/
  | firmwareResetRequest (lapse : Nat) (value : Word)
  /-- TAIL_SEAL (R326). At 4.0 ms into a flush programming stops and a tail seal covers the last chain record programmed. -/
  | tailSeal
  /-- FLUSH_END (R332). The flush ends; queued frames are lost, links go down, the core domain resets and an armed step is applied. -/
  | flushEnd
  /-- LOAD_SLOT (R71). The loader chooses a candidate slot, verifies its signatures and streams and applies its sections, reverting on failure. -/
  | loadSlot
  /-- WRITE_RECORD (R63). A WRITE record sets a register under its mask. -/
  | writeRecord (sec : Sect) (addr value mask : Word)
  /-- TABLE_RECORD (R63). A TABLE record installs a pinned table entry. -/
  | tableRecord (sec : Sect) (table : Fin 256) (key result : Bytes)
  /-- BLOB_RECORD (R63). A BLOB record copies data into its region. -/
  | blobRecord (sec : Sect) (region : Fin 256) (offset : Fin 16777216) (data : Bytes)
  /-- CHECK_RECORD (R63). A CHECK record compares a register under a mask with an expected value. -/
  | checkRecord (sec : Sect) (addr mask expected : Word)
  /-- MDIO_RECORD (R88). An MDIO record performs one PHY write after its section's digest matches, then waits. -/
  | mdioRecord (port : Fin 256) (clause phy device : Byte) (register value : BitVec 16) (wait : BitVec 16)
  /-- DUAL_RECORD (R65). A DUAL record verifies both authority signatures and applies its inner record. -/
  | dualRecord (sec : Sect) (payload : Bytes)
  /-- KEYSLOT_RECORD (R285). A KEYSLOT record defines a key slot and builds its material. -/
  | keyslotRecord (sec : Sect) (payload : Bytes)
  /-- AUTH_KEY_RECORD (R67). An AUTH_KEY record fuses a new authority key digest into the next OTP slot. -/
  | authKeyRecord (payload : Bytes)
  /-- LIFECYCLE_RECORD (R68). A LIFECYCLE record fuses a forward life-cycle transition. -/
  | lifecycleRecord (payload : Bytes)
  /-- END_RECORD (R75). An END record closes a section and runs the cross-record checks on the resulting state. -/
  | endRecord (sec : Sect)
  /-- SEALED_REGISTER_LOCK (R77). The final checks pass, SRW fields and BLOB regions lock and the management cores are released. -/
  | sealedRegisterLock
  /-- DEBUG_TOKEN (R69). A token presented through DBG_TOKEN is verified and unlocks debug access or is refused. -/
  | debugToken (token : Bytes)
  /-- IMG_EPOCH_COMMIT (R73). A write of COMMIT raises the anti-rollback floor to the running epoch. -/
  | imgEpochCommit (value : Word)
  /-- STAGE_ERASE (R74). IMG_STAGE_CTRL command 1 erases a 64 KiB block of the other slot. -/
  | stageErase (lapse : Nat)
  /-- STAGE_PROGRAM (R74). IMG_STAGE_CTRL command 2 programs 256 bytes from IMG_STAGE_BUF into the other slot. -/
  | stageProgram (lapse : Nat)
  /-- STAGE_CHECK (R74). IMG_STAGE_CTRL command 3 runs every image check over the staged slot without applying it. -/
  | stageCheck (lapse : Nat)
  /-- STAGE_OP_COMPLETE (R74). A staging erase, program or check ends and its status is reported. -/
  | stageOpComplete (ok : Bool)
  /-- RECOVERY_STAGE (R80). A STAGE message on the recovery eyelet writes either slot; a passing check starts a warm reset. -/
  | recoveryStage (lapse : Nat) (port : Fin 24) (frame : Bytes)
  /-- SIGNAL_DETECT (R85). A trunk receiver detects a signal, loads its presets and starts adaptation. -/
  | signalDetect (lapse : Nat) (p : Fin 24)
  /-- ADAPT_FREEZE (R85). 8.0 ms after signal detect adaptation ends and the coefficients are frozen. -/
  | adaptFreeze (p : Fin 24) (ctle : BitVec 5) (dfe1 : BitVec 6)
  /-- ADAPT_RETRY (R85). The PCS has no lock 10 ms after signal detect, so presets reload and adaptation restarts. -/
  | adaptRetry (p : Fin 24)
  /-- PCS_LOCK_ACQUIRED (R85). The PCS gains block lock or code-group synchronisation. -/
  | pcsLockAcquired (lapse : Nat) (lock : PcsLock)
  /-- ETH_LINK_UP (R85). Lock is held for 1.0 ms without hi_ber and the link is declared up. -/
  | ethLinkUp (p : Fin 24)
  /-- ETH_LINK_DOWN (R86). Lock, alignment or synchronisation is lost, or hi_ber sets, and the link goes down at once. -/
  | ethLinkDown (lapse : Nat) (p : Fin 24) (loss : LinkLoss)
  /-- ETH_FRAME_RECEIVE (R91). A frame received whole on an Ethernet port is classified by length and errors and counted. -/
  | ethFrameReceive (lapse : Nat) (p : Fin 24) (rx : RxFrame)
  /-- PAUSE_RECEIVE (R101). A received PAUSE frame stops all classes of the port for its time. -/
  | pauseReceive (lapse : Nat) (p : Fin 24) (quanta : BitVec 16)
  /-- PFC_RECEIVE (R101). A received PFC frame stops the enabled classes it names for their times. -/
  | pfcReceive (lapse : Nat) (p : Fin 24) (enables : BitVec 8) (quanta : List (BitVec 16))
  /-- PAUSE_EXPIRY (R101). A pause timer runs out and the port or class may send again. -/
  | pauseExpiry (p : Fin 24) (cls : Option (Fin 8))
  /-- PAUSE_WDOG_TRIP (R103). The pause watchdog count reaches ETH_PAUSE_WDOG and pause is ignored for that many hoops. -/
  | pauseWdogTrip (p : Fin 24) (cls : Option (Fin 8))
  /-- PAUSE_IGNORE_END (R103). The ignoring period ends and the current pause timer state applies again. -/
  | pauseIgnoreEnd (p : Fin 24) (cls : Option (Fin 8))
  /-- TX_UNDERRUN (R100). The transmitter runs dry in a cut-through frame, stomps it and raises CURRENT by 64 bytes. -/
  | txUnderrun (lapse : Nat) (p : Fin 24)
  /-- MDIO_READ (R89). A write of ETH_MDIO_CMD.START queues a PHY register read. -/
  | mdioRead (lapse : Nat) (p : Fin 24) (value : Word)
  /-- MDIO_READ_DONE (R89). A queued MDIO read completes and sets DONE with the data. -/
  | mdioReadDone (lapse : Nat) (p : Fin 24) (data : BitVec 16)
  /-- CAN_MESSAGE_RECEIVE (R110). A CAN message received without error passes the acceptance filters to the datapath, the FIFO or a priority buffer. -/
  | canMessageReceive (lapse : Nat) (n : Fin 16) (msg : CanMsg)
  /-- CAN_PROTOCOL_EXCEPTION (R402). A message of a format the controller has not enabled puts it in the protocol exception state until bus idle. -/
  | canProtocolException (lapse : Nat) (n : Fin 16) (fmt : CanFmt)
  /-- CAN_ERROR (R120). A CAN bit, stuff, form, ACK or CRC error updates the error counters and state. -/
  | canError (lapse : Nat) (n : Fin 16) (err : CanFault) (transmitting : Bool) (dominantAfterFlag : Bool)
  /-- CAN_RECOVER (R120). A write of CAN_RECOVER starts bus-off recovery, or is ignored outside bus-off. -/
  | canRecover (lapse : Nat) (n : Fin 16) (value : Word)
  /-- CAN_BUS_RECOVERED (R120). 128 occurrences of 11 recessive bits complete and the controller returns to error-active. -/
  | canBusRecovered (lapse : Nat) (n : Fin 16)
  /-- CAN_MFIFO_POP (R112). A write of CAN_MFIFO_POP removes the oldest management FIFO message. -/
  | canMfifoPop (n : Fin 16) (value : Word)
  /-- PRIO_BUF_READ (R113). A read of word 0 of a priority buffer sets READ_LOCK. -/
  | prioBufRead (n : Fin 16) (k : Fin 4)
  /-- PRIO_RELEASE (R113). A write of RELEASE clears READ_LOCK and promotes the shadow if full. -/
  | prioRelease (n : Fin 16) (k : Fin 4) (value : Word)
  /-- CAN_MTX_LOAD (R116). CAN_MTX_CMD OP 1 copies the staged image into a management buffer and requests transmission. -/
  | canMtxLoad (lapse : Nat) (n : Fin 16) (buf : Fin 16)
  /-- CAN_MTX_CANCEL (R117). CAN_MTX_CMD OP 2 cancels a management message, at once or held if in transmission. -/
  | canMtxCancel (lapse : Nat) (n : Fin 16) (buf : Fin 16)
  /-- CAN_TXBUF_LOAD (R114). The head frame of a class moves into its empty transmit buffer, with its header checked. -/
  | canTxbufLoad (lapse : Nat) (n : Fin 16) (c : Fin 8)
  /-- CAN_TX_COMMIT (R117). The controller commits to the SOF of the winning message and its buffer becomes ACTIVE. -/
  | canTxCommit (lapse : Nat) (n : Fin 16)
  /-- CAN_ARB_LOST (R115). A message loses arbitration and is retried, or removed if cancellation is held. -/
  | canArbLost (lapse : Nat) (n : Fin 16)
  /-- CAN_TX_COMPLETE (R117). A message completes on the bus and its buffer becomes SENT or TOO_LATE. -/
  | canTxComplete (lapse : Nat) (n : Fin 16)
  /-- CAN_TX_WINDOW_EXPIRE (R118). A loaded datapath message passes its launch time plus LAUNCH_LATE_MAX and is cancelled. -/
  | canTxWindowExpire (n : Fin 16) (c : Fin 8)
  /-- T1S_FRAME_RECEIVE (R122). A frame received whole on a T1S port is checked and its source tested against the members. -/
  | t1sFrameReceive (lapse : Nat) (n : Fin 8) (rx : RxFrame)
  /-- T1S_PLCA_FALLBACK (R124). A follower sees no BEACON for four periods and falls back to CSMA/CD. -/
  | t1sPlcaFallback (lapse : Nat) (n : Fin 8)
  /-- T1S_PLCA_RESTORED (R124). A follower in fallback sees a BEACON and returns to PLCA. -/
  | t1sPlcaRestored (lapse : Nat) (n : Fin 8)
  /-- T1S_PLCA_COLLISION (R125). A physical collision under PLCA is counted and the frame retried next opportunity. -/
  | t1sPlcaCollision (lapse : Nat) (n : Fin 8)
  /-- CSMA_COLLISION (R124). A collision in CSMA/CD fallback is counted; after 16 attempts the frame is abandoned. -/
  | csmaCollision (lapse : Nat) (n : Fin 8)
  /-- T1S_TX_OPPORTUNITY (R127). A transmit opportunity opens and the head frame is sent if its gate test passes, else yielded. -/
  | t1sTxOpportunity (lapse : Nat) (n : Fin 8)
  /-- FRAME_PARSE (R131). The parser walks the graph for a frame on its bank, builds the keys and raises exceptions. -/
  | frameParse
  /-- PARSE_STANDBY_WRITE (R146). A write to the PARSE_STANDBY window changes the standby bank and clears VALIDATED. -/
  | parseStandbyWrite (offset : Fin 131072) (value : Word)
  /-- PARSE_VALIDATE (R146). PARSE_BANK_CTRL.CMD = 1 starts the checks of the standby bank. -/
  | parseValidate (lapse : Nat)
  /-- PARSE_VALIDATE_DONE (R146). Validation ends and sets VALIDATED or VAL_FAIL. -/
  | parseValidateDone (lapse : Nat)
  /-- PARSE_SWAP_REQUEST (R147). PARSE_BANK_CTRL.CMD = 2 requests a bank swap at the next boundary, or is refused. -/
  | parseSwapRequest (lapse : Nat)
  /-- PARSE_SWAP_PAUSE_END (R147). The pipeline has drained, new frames start on the new bank and the old bank becomes DRAINING. -/
  | parseSwapPauseEnd
  /-- PARSE_DRAIN_END (R148). 256 cycles have passed and no old-tagged frame waits at port 51, so the bank becomes STANDBY. -/
  | parseDrainEnd
  /-- LEARN_REQUEST_PROCESS (R164). The maintenance engine re-searches a learning request and inserts, moves or discards it. -/
  | learnRequestProcess
  /-- AGEING_VISIT (R166). The ageing scan visits a bucket, clearing ACTIVE or removing idle unpinned entries. -/
  | ageingVisit
  /-- DMA_READ (R169). DMA descriptor READ copies a bucket or entry to management memory. -/
  | dmaRead
  /-- DMA_LOCKED_READ (R170). DMA descriptor LOCKED_READ copies a bucket and locks it. -/
  | dmaLockedRead
  /-- DMA_WRITE_UNLOCK (R171). DMA descriptor WRITE_UNLOCK replaces a locked bucket and releases its lock. -/
  | dmaWriteUnlock
  /-- DMA_UNLOCK (R170). DMA descriptor UNLOCK releases a bucket lock without writing. -/
  | dmaUnlock
  /-- DMA_WRITE (R171). DMA descriptor WRITE replaces a standby bucket or a NODE entry. -/
  | dmaWrite
  /-- DMA_ACT_WRITE (R161). DMA descriptor ACT_WRITE writes a FREE action record and zeroes its counters. -/
  | dmaActWrite
  /-- DMA_ACT_FREE (R161). DMA descriptor ACT_FREE moves a LIVE action record to GRACE. -/
  | dmaActFree
  /-- DMA_ACT_READ (R162). DMA descriptor ACT_READ returns an action record and its counters. -/
  | dmaActRead
  /-- DMA_INSERT (R164). DMA descriptor INSERT places an entry by cuckoo insertion or replaces its result. -/
  | dmaInsert
  /-- DMA_DELETE (R169). DMA descriptor DELETE removes the entry with a given key. -/
  | dmaDelete
  /-- ACT_GRACE_END (R161). At the second boundary after a free, a GRACE action record becomes FREE. -/
  | actGraceEnd (index : Fin 65536)
  /-- TBL_LOCK_EXPIRED (R170). A bucket lock reaches the boundary that ends its second hoop and expires. -/
  | tblLockExpired (index : Nat)
  /-- TBL_PREPARE (R172). TBL_BANK_CTRL CMD 1 copies the standby seeds and enters PREPARED. -/
  | tblPrepare (t : Fin 4)
  /-- TBL_COMMIT (R172). TBL_BANK_CTRL CMD 2 enters PENDING once every standby bucket is written. -/
  | tblCommit (lapse : Nat) (t : Fin 4)
  /-- TBL_ABORT (R172). TBL_BANK_CTRL CMD 3 returns a PREPARED table to IDLE. -/
  | tblAbort (t : Fin 4)
  /-- FRAME_ADMISSION (R184). A frame's copies are metered, replicated and admitted or refused against their limits and shares. -/
  | frameAdmission
  /-- SPREAD_STALL (R180). No intermediate has room for a frame's targets, so the spreader waits a slot and chooses again. -/
  | spreadStall
  /-- RESEQ_RELEASE (R181). A copy arrives at its egress group and is released or held by sequence. -/
  | reseqRelease (g : Fin 8)
  /-- RESEQ_SKIP (R182). An expected copy is missing 2 µs after a later one arrived and is skipped. -/
  | reseqSkip (g : Fin 8)
  /-- MC_GROUP_WRITE (R187). BUF_MC_CMD OP 1 writes a multicast mask, refused if it breaks the rules. -/
  | mcGroupWrite (group : Fin 4096)
  /-- MC_GROUP_READ (R187). BUF_MC_CMD OP 2 reads a multicast mask into BUF_MC_MASK. -/
  | mcGroupRead (group : Fin 4096)
  /-- POLICER_WRITE (R196). BUF_POL_CMD OP 1 checks and writes a policer and initialises its buckets. -/
  | policerWrite (index : Fin 16384) (enable : Bool)
  /-- POLICER_READ (R196). BUF_POL_CMD OP 2 reads a policer into the command registers. -/
  | policerRead (index : Fin 16384)
  /-- POLICER_SWEEP (R197). The background sweep refreshes an enabled policer. -/
  | policerSweep (index : Fin 16384)
  /-- FRAME_TRANSMIT_START (R201). The egress scheduler chooses an eligible head frame and starts it, dropping late or gate-blocked frames. -/
  | frameTransmitStart (lapse : Nat) (p : Fin 52)
  /-- LAUNCH_TIME_REACHED (R213). LT reaches a held frame's launch time and the frame becomes eligible. -/
  | launchTimeReached (p : Fin 52) (c : Fin 8)
  /-- FRAME_TRANSMIT_END (R204). A frame ends on the wire; shapers are debited and its cells return to the pool. -/
  | frameTransmitEnd (lapse : Nat) (p : Fin 52)
  /-- SHAPER_WRITE (R205). A write of shaper RATE, BURST or EN takes effect, setting tokens to BURST on enable, or is ignored for rate 0. -/
  | shaperWrite (lapse : Nat) (addr value : Word)
  /-- GATE_ENTRY_CHANGE (R206). The gate list moves to its next entry and the class gate states change. -/
  | gateEntryChange (p : Fin 52)
  /-- GATE_TEST_WRITE (R210). A write of EGR_GATE_CTRL.TEST = 1 requests GUARD mode from the next repeat boundary. -/
  | gateTestWrite (lapse : Nat) (p : Fin 52) (value : Word)
  /-- FRAME_CAPTURE (R217). A checked frame with CAPTURE writes its capture map's fields into signal memory. -/
  | frameCapture (lapse : Nat)
  /-- SIGNAL_WRITE_GO (R226). A write of BOB_SIGW_CMD.GO queues a firmware signal write, or is refused while busy. -/
  | signalWriteGo (lapse : Nat) (value : Word)
  /-- SIGNAL_WRITE_DONE (R226). The firmware signal write lands in a free capture cycle as a capture of the current hoop. -/
  | signalWriteDone
  /-- PRIV_READ (R246). BOB_PRIV_CMD OP 1 reads a bobbin private-memory word. -/
  | privRead
  /-- PRIV_WRITE (R246). BOB_PRIV_CMD OP 2 writes a bobbin private-memory word. -/
  | privWrite
  /-- END (R254). Instruction END ends the bobbin's run when its predicate holds. -/
  | bEnd (b : Fin 16) (q : Pq)
  /-- SKIP (R253). Instruction SKIP continues issue N words further on. -/
  | bSkip (b : Fin 16) (q : Pq) (n : BitVec 14)
  /-- REP (R252). Instruction REP repeats the following LEN words COUNT times. -/
  | bRep (b : Fin 16) (q : Pq) (len : BitVec 8) (count : BitVec 14)
  /-- NOP (R251). Instruction NOP does nothing for one issue cycle. -/
  | bNop (b : Fin 16) (q : Pq)
  /-- ADD (R248). Instruction ADD adds two registers modulo 2^64. -/
  | bAdd (b : Fin 16) (q : Pq) (d x y : RegIx)
  /-- SUB (R248). Instruction SUB subtracts two registers modulo 2^64. -/
  | bSub (b : Fin 16) (q : Pq) (d x y : RegIx)
  /-- AND (R248). Instruction AND forms the bitwise AND of two registers. -/
  | bAnd (b : Fin 16) (q : Pq) (d x y : RegIx)
  /-- OR (R248). Instruction OR forms the bitwise OR of two registers. -/
  | bOr (b : Fin 16) (q : Pq) (d x y : RegIx)
  /-- XOR (R248). Instruction XOR forms the bitwise XOR of two registers. -/
  | bXor (b : Fin 16) (q : Pq) (d x y : RegIx)
  /-- SLL (R248). Instruction SLL shifts left by a register amount. -/
  | bSll (b : Fin 16) (q : Pq) (d x y : RegIx)
  /-- SRL (R248). Instruction SRL shifts right logically by a register amount. -/
  | bSrl (b : Fin 16) (q : Pq) (d x y : RegIx)
  /-- SRA (R248). Instruction SRA shifts right arithmetically by a register amount. -/
  | bSra (b : Fin 16) (q : Pq) (d x y : RegIx)
  /-- MIN (R248). Instruction MIN gives the signed minimum. -/
  | bMin (b : Fin 16) (q : Pq) (d x y : RegIx)
  /-- MAX (R248). Instruction MAX gives the signed maximum. -/
  | bMax (b : Fin 16) (q : Pq) (d x y : RegIx)
  /-- MINU (R248). Instruction MINU gives the unsigned minimum. -/
  | bMinu (b : Fin 16) (q : Pq) (d x y : RegIx)
  /-- MAXU (R248). Instruction MAXU gives the unsigned maximum. -/
  | bMaxu (b : Fin 16) (q : Pq) (d x y : RegIx)
  /-- ADDI (R248). Instruction ADDI adds a signed immediate. -/
  | bAddi (b : Fin 16) (q : Pq) (d x : RegIx) (imm : BitVec 12)
  /-- ANDI (R248). Instruction ANDI ANDs a zero-extended immediate. -/
  | bAndi (b : Fin 16) (q : Pq) (d x : RegIx) (imm : BitVec 12)
  /-- ORI (R248). Instruction ORI ORs a zero-extended immediate. -/
  | bOri (b : Fin 16) (q : Pq) (d x : RegIx) (imm : BitVec 12)
  /-- XORI (R248). Instruction XORI XORs a zero-extended immediate. -/
  | bXori (b : Fin 16) (q : Pq) (d x : RegIx) (imm : BitVec 12)
  /-- SLLI (R248). Instruction SLLI shifts left by an immediate. -/
  | bSlli (b : Fin 16) (q : Pq) (d x : RegIx) (sh : BitVec 6)
  /-- SRLI (R248). Instruction SRLI shifts right logically by an immediate. -/
  | bSrli (b : Fin 16) (q : Pq) (d x : RegIx) (sh : BitVec 6)
  /-- SRAI (R248). Instruction SRAI shifts right arithmetically by an immediate. -/
  | bSrai (b : Fin 16) (q : Pq) (d x : RegIx) (sh : BitVec 6)
  /-- LI (R248). Instruction LI loads a sign-extended 17-bit immediate. -/
  | bLi (b : Fin 16) (q : Pq) (d : RegIx) (imm : BitVec 17)
  /-- LSH (R249). Instruction LSH shifts its destination left 16 and ORs in an immediate. -/
  | bLsh (b : Fin 16) (q : Pq) (d : RegIx) (imm : BitVec 16)
  /-- EXTU (R248). Instruction EXTU extracts a zero-extended bitfield. -/
  | bExtu (b : Fin 16) (q : Pq) (d x : RegIx) (pos lenM1 : BitVec 6)
  /-- EXTS (R248). Instruction EXTS extracts a sign-extended bitfield. -/
  | bExts (b : Fin 16) (q : Pq) (d x : RegIx) (pos lenM1 : BitVec 6)
  /-- INS (R249). Instruction INS inserts a bitfield into its destination. -/
  | bIns (b : Fin 16) (q : Pq) (d x : RegIx) (pos lenM1 : BitVec 6)
  /-- MUL (R248). Instruction MUL gives the low 64 bits of a product. -/
  | bMul (b : Fin 16) (q : Pq) (d x y : RegIx)
  /-- MULH (R248). Instruction MULH gives the high 64 bits of the signed product. -/
  | bMulh (b : Fin 16) (q : Pq) (d x y : RegIx)
  /-- MULHU (R248). Instruction MULHU gives the high 64 bits of the unsigned product. -/
  | bMulhu (b : Fin 16) (q : Pq) (d x y : RegIx)
  /-- MULQ (R248). Instruction MULQ gives the signed product shifted right by SH. -/
  | bMulq (b : Fin 16) (q : Pq) (d x y : RegIx) (sh : BitVec 6)
  /-- DIV (R249). Instruction DIV gives the signed quotient without faulting. -/
  | bDiv (b : Fin 16) (q : Pq) (d x y : RegIx)
  /-- DIVU (R249). Instruction DIVU gives the unsigned quotient without faulting. -/
  | bDivu (b : Fin 16) (q : Pq) (d x y : RegIx)
  /-- REM (R249). Instruction REM gives the signed remainder without faulting. -/
  | bRem (b : Fin 16) (q : Pq) (d x y : RegIx)
  /-- REMU (R249). Instruction REMU gives the unsigned remainder without faulting. -/
  | bRemu (b : Fin 16) (q : Pq) (d x y : RegIx)
  /-- FADD (R250). Instruction FADD adds binary32 values. -/
  | bFadd (b : Fin 16) (q : Pq) (d x y : RegIx)
  /-- FSUB (R250). Instruction FSUB subtracts binary32 values. -/
  | bFsub (b : Fin 16) (q : Pq) (d x y : RegIx)
  /-- FMUL (R250). Instruction FMUL multiplies binary32 values. -/
  | bFmul (b : Fin 16) (q : Pq) (d x y : RegIx)
  /-- FDIV (R250). Instruction FDIV divides binary32 values. -/
  | bFdiv (b : Fin 16) (q : Pq) (d x y : RegIx)
  /-- FSQRT (R250). Instruction FSQRT gives a binary32 square root. -/
  | bFsqrt (b : Fin 16) (q : Pq) (d x : RegIx)
  /-- FMIN (R250). Instruction FMIN gives the binary32 minimum. -/
  | bFmin (b : Fin 16) (q : Pq) (d x y : RegIx)
  /-- FMAX (R250). Instruction FMAX gives the binary32 maximum. -/
  | bFmax (b : Fin 16) (q : Pq) (d x y : RegIx)
  /-- FCVTF (R250). Instruction FCVTF converts a signed 64-bit integer to binary32. -/
  | bFcvtf (b : Fin 16) (q : Pq) (d x : RegIx)
  /-- FCVTI (R250). Instruction FCVTI converts binary32 to a saturated signed 64-bit integer. -/
  | bFcvti (b : Fin 16) (q : Pq) (d x : RegIx)
  /-- CMP (R247). Instruction CMP sets a predicate by comparing two registers. -/
  | bCmp (b : Fin 16) (q : Pq) (pd : PredIx) (cond : Cond) (x y : RegIx)
  /-- CMPI (R247). Instruction CMPI sets a predicate by comparing a register with an immediate. -/
  | bCmpi (b : Fin 16) (q : Pq) (pd : PredIx) (cond : Cond) (x : RegIx) (imm : BitVec 11)
  /-- FCMP (R250). Instruction FCMP sets a predicate by a binary32 comparison. -/
  | bFcmp (b : Fin 16) (q : Pq) (pd : PredIx) (cond : FCond) (x y : RegIx)
  /-- PLOG (R247). Instruction PLOG combines two predicates into a third. -/
  | bPlog (b : Fin 16) (q : Pq) (pd : PredIx) (op : PlogOp) (pa pb : PredIx)
  /-- LD (R255). Instruction LD loads a private-memory word, faulting on a bad address or double-bit error. -/
  | bLd (b : Fin 16) (q : Pq) (d x : RegIx) (imm : BitVec 12)
  /-- ST (R255). Instruction ST stores a word to private memory. -/
  | bSt (b : Fin 16) (q : Pq) (d x : RegIx) (imm : BitVec 12)
  /-- SLD (R256). Instruction SLD issues a signal-memory read through the sliced crossbar. -/
  | bSld (b : Fin 16) (q : Pq) (d x : RegIx) (imm : BitVec 12)
  /-- SLD_RESULT (R256). 20 cycles after issue the signal value and metadata land in the register pair. -/
  | sldResult (b : Fin 16)
  /-- EMIT (R257). Instruction EMIT writes one emit record into the bobbin's set, faulting beyond quota or on a bad template. -/
  | bEmit (b : Fin 16) (q : Pq) (f x : RegIx) (t : BitVec 12)
  /-- BOBBIN_BUDGET_EXPIRY (R231). A bobbin's cycle count reaches its budget before END and the run is an overrun. -/
  | bobbinBudgetExpiry (b : Fin 16)
  /-- EMIT_BUILD_START (R236). At B_next − EMIT_LEAD running bobbins overrun and the emit unit builds and enqueues the record sets. -/
  | emitBuildStart
  /-- COP_READ_REQUEST (R267). An authenticated COP READ is checked, matched to a slot, queued and answered. -/
  | copReadRequest (lapse : Nat)
  /-- COP_WRITE_REQUEST (R267). An authenticated COP WRITE is checked, queued in a slot and answered WRITE_POSTED. -/
  | copWriteRequest (lapse : Nat)
  /-- BRG_DISPATCH (R269). A queued transaction whose earlier transactions have finished is dispatched to its bus. -/
  | brgDispatch (slot : Fin 256)
  /-- FAR_READ_RSP (R273). An accepted READ_RSP segment lands in its slot; the last makes it READY. -/
  | farReadRsp (lapse : Nat)
  /-- FAR_WRITE_ACK (R275). An accepted WRITE_ACK makes its slot DONE with OK. -/
  | farWriteAck (lapse : Nat)
  /-- FAR_NEG_RSP (R275). An accepted NEG_RSP fails its slot with NEGATIVE. -/
  | farNegRsp (lapse : Nat)
  /-- BRG_TRANSACTION_TIMEOUT (R270). A slot still ACTIVE at the T-th boundary after dispatch fails with TIMEOUT. -/
  | brgTransactionTimeout (slot : Fin 256)
  /-- BRG_COLLECT_EXPIRY (R273). A READY, DELIVERED or DONE slot reaches the collection timeout and is discarded. -/
  | brgCollectExpiry (slot : Fin 256)
  /-- BRG_START_STALL_END (R270). After a start the longest route timeout has passed and dispatch may begin. -/
  | brgStartStallEnd
  /-- KEY_REPLACE (R292). KEY_CMD OP 1 builds a replacement key into PENDING and verifies it. -/
  | keyReplace (slot : Fin 256)
  /-- KEY_REPLACE_VERIFIED (R292). Verification of a replacement ends with REPLACE_PENDING or a failure. -/
  | keyReplaceVerified
  /-- KEY_DESTROY (R291). KEY_CMD OP 2 requests destruction of an operator slot at the next boundary. -/
  | keyDestroy (slot : Fin 256)
  /-- KEY_ZEROISE (R294). An orphaned slot is zeroised within HOOP_BUDGET[3] and reads EMPTY. -/
  | keyZeroise (slot : Fin 256)
  /-- MACSEC_KEY_DERIVE (R302). A MACsec working key for an epoch is derived within HOOP_BUDGET[3]. -/
  | macsecKeyDerive (p : Fin 24)
  /-- SVC_GCM_ENCRYPT (R299). Firmware service operation 1 encrypts by GCM and writes the tag. -/
  | svcGcmEncrypt
  /-- SVC_GCM_DECRYPT (R299). Firmware service operation 2 decrypts by GCM and checks the tag. -/
  | svcGcmDecrypt
  /-- SVC_KMAC (R299). Firmware service operation 3 computes a KMAC256 output. -/
  | svcKmac
  /-- SVC_ED448_VERIFY (R299). Firmware service operation 4 verifies an Ed448 signature. -/
  | svcEd448Verify
  /-- EVIDENCE_FORM (R306). An evidence frame from the formation queue becomes a record, extends the chain and enters the buffer. -/
  | evidenceForm
  /-- SEAL_SIGNED (R318). The seal signature is done; the seal enters the buffer, may be mirrored, and programming resumes. -/
  | sealSigned
  /-- FLASH_PROGRAM_COMPLETE (R322). A buffered item is programmed into the store page, closing the page when due. -/
  | flashProgramComplete (ok : Bool)
  /-- BLOCK_ERASE_COMPLETE (R323). A reclaimable erase block finishes erasing and is marked erased. -/
  | blockEraseComplete (block : Fin 4096) (ok : Bool)
  /-- RESTART_RECORD_FORM (R329). After a start the seal unit rebuilds its head from the store and forms the RESTART record. -/
  | restartRecordForm
  /-- WDOG_KICK (R336). A write of FLT_WDOG_KICK.KICK restarts the watchdog. -/
  | wdogKick (value : Word)
  /-- WDOG_WARN (R336). Half the watchdog period remains without a kick; WARN sets. -/
  | wdogWarn
  /-- WDOG_EXPIRY (R336). The watchdog reaches zero, records 0x0F10 and takes a warm reset. -/
  | wdogExpiry
  /-- PLL_REFCLK_LOSS (R337). Loss of PLL lock or REFCLK for 1 µs causes a RESET_N-type start without flush. -/
  | pllRefclkLoss (refclkGone : Nat)
  /-- DOZE_REQUEST (R339). SYS_PWR_CTRL.REQ = 1 requests DOZE entry at the next boundary. -/
  | dozeRequest (lapse : Nat) (value : Word)
  /-- SLEEP_REQUEST (R343). SYS_PWR_CTRL.REQ = 2 runs the flush and isolates the core domain. -/
  | sleepRequest (lapse : Nat) (value : Word)
  /-- WAKE_EVENT (R342). An enabled WAKE pin or GPIO wakes the part from DOZE. -/
  | wakeEvent (lapse : Nat) (levels : BitVec 16) (held : Nat)
  /-- DOZE_TIMER_WAKE (R342). The DOZE wake timer ends at a repeat boundary and wakes the part. -/
  | dozeTimerWake
  /-- DOZE_EXIT_COMPLETE (R342). Clocks are ungated, signal memory refreshed and forwarding resumes in GUARD at the first boundary. -/
  | dozeExitComplete
  /-- SLEEP_WAKE (R344). A WAKE pin or GPIO ends SLEEP with a full start, cause 6. -/
  | sleepWake (levels : BitVec 16) (held : Nat)
  /-- TEMP_READING (R348). The sensor is read every 10 µs, driving THERM_ALERT and the safe-hold trip. -/
  | tempReading (temp : BitVec 9)
  /-- THERMAL_HOLD_EXIT (R350). TEMP stays below RESUME for 1 s and the part takes a warm reset, cause 9. -/
  | thermalHoldExit
  /-- PWRFAIL_ASSERT (R351). A low on PWRFAIL_N of 2 µs or more makes the emergency seal and enters the power-fail hold. -/
  | pwrfailAssert (low : Nat)
  /-- PWRFAIL_RELEASE (R351). PWRFAIL_N stays high for 10 ms and the part takes a RESET_N-type start, cause 7. -/
  | pwrfailRelease
  /-- EYELET_STATUS (R359). A STATUS request is answered with the STATUS and retention blocks. -/
  | eyeletStatus (lapse : Nat)
  /-- EYELET_EXPORT_READ (R363). An EXPORT op 0 request returns a 1,024-byte chunk of a store page. -/
  | eyeletExportRead (lapse : Nat)
  /-- EYELET_EXPORT_ACK (R363). An EXPORT op 1 request passes an export acknowledgement to the seal unit. -/
  | eyeletExportAck (lapse : Nat)
  /-- EYELET_ATTEST (R364). An ATTEST request is answered with the attestation message, tag and optional signature. -/
  | eyeletAttest (lapse : Nat)
  /-- EYELET_STAGE_ERASE (R365). A STAGE op 1 erases a block of the other slot through the staging engine. -/
  | eyeletStageErase (lapse : Nat)
  /-- EYELET_STAGE_PROGRAM (R365). A STAGE op 2 programs pages of the other slot. -/
  | eyeletStageProgram (lapse : Nat)
  /-- EYELET_STAGE_CHECK (R365). A STAGE op 3 checks the staged image. -/
  | eyeletStageCheck (lapse : Nat)
  /-- EYELET_WARM_RESET (R366). An accepted WARM_RESET request is answered and a warm reset with cause 3 follows. -/
  | eyeletWarmReset (lapse : Nat)
  /-- SP_RX_WRITE (R368). A copy dequeued from port 48 is written with its descriptor into its receive ring, or dropped if full. -/
  | spRxWrite
  /-- SP_TX_DIRECT (R369). A transmit descriptor in direct mode enqueues its frame on the named port. -/
  | spTxDirect
  /-- SP_TX_LOOKUP (R369). A transmit descriptor in lookup mode injects its frame into the parser as from port 48. -/
  | spTxLookup
  /-- EVENT_RECORD_WRITE (R372). A raised event is written to the event ring, or held or lost. -/
  | eventRecordWrite
  /-- EVT_RING_ENABLE (R372). A write of SYS_EVT_CTRL.EN = 1 starts the ring and writes the held events first. -/
  | evtRingEnable (value : Word)
  /-- GPIO_OUT_WRITE (R377). A write of GPIO_OUT drives the output pins at once. -/
  | gpioOutWrite (value : Word)
  /-- DEBUG_WINDOW_READ (R375). A read of a debug window returns stored memory or takes an access fault on a double-bit error. -/
  | debugWindowRead (addr : Word)
  /-- CAN_BUS_IDLE (R402). After a protocol exception the controller sees 11 consecutive recessive bits and takes part in the bus again. -/
  | canBusIdle (lapse : Nat) (n : Fin 16)
  /-- SVC_DONE (R299). A firmware service operation finishes, writes its status and output to the descriptor, sets DONE and clears BUSY. -/
  | svcDone
  /-- EYELET_RESET_DELAY (R366). 1 ms after an accepted WARM_RESET request, the warm reset with cause 3 begins if no boundary after the reply's departure has come first. -/
  | eyeletResetDelay
  /-- POR_RELEASE (R384). The POR supervisors release 200 µs after the monitored rails pass their thresholds, and a start counts from that release when RESET_N is already high. -/
  | porRelease
  deriving DecidableEq, Repr

end Sys2Proof
end

