-- ==== Sys2Proof/Decode.lean ====
section
/-! DEFINITION. The command a word spells by the bits of the opcode table. No row of the table gives bits: the block takes commands,
and none is spelled by a word. (The words of bobbin programs are the manual's own encoding: Machine/BobWord.lean.) -/

namespace Sys2Proof

/-- No row gives bits, so no word spells a command. -/
def decodeTableWord (_nbits _w : Nat) : Option Instr := none

end Sys2Proof
end

