-- ==== Sys2Proof/Machine/Float32.lean ====
section
/-! DEFINITION. binary32 arithmetic of the bobbins (R250): IEEE 754 with round to nearest, ties to even; subnormal operands are
zero, tiny results are zero, and every NaN result is one value. Computed exactly on integers and rounded once. -/

namespace Sys2Proof.Machine

/-- A binary32 operand: NaN, an infinity, or (−1)^neg × mant × 2^exp. -/
inductive Fp where
  | nan
  | inf (neg : Bool)
  | fin (neg : Bool) (mant : Nat) (exp : Int)
  deriving DecidableEq, Repr

namespace Fp

/-- The operand in bits [31:0] of a register, subnormals replaced by zero of their sign. -/
def ofBits (v : BitVec 64) : Fp :=
  let n := v.toNat % 2 ^ 32
  let neg := decide (n / 2 ^ 31 = 1)
  let e := n / 2 ^ 23 % 256
  let m := n % 2 ^ 23
  if e = 255 then (if m = 0 then .inf neg else .nan)
  else if e = 0 then .fin neg 0 0
  else .fin neg (2 ^ 23 + m) (Int.ofNat e - 150)

/-- The NaN result. -/
def nanBits : BitVec 64 := 0x7FC00000

def signBit (neg : Bool) : Nat := if neg then 2 ^ 31 else 0

/-- The bits of an infinity and of a zero. -/
def infBits (neg : Bool) : BitVec 64 := BitVec.ofNat 64 (signBit neg + 0x7F800000)
def zeroBits (neg : Bool) : BitVec 64 := BitVec.ofNat 64 (signBit neg)

/-- `m` × 2^−k rounded to a whole number, ties to even. -/
def roundShift (m k : Nat) : Nat :=
  let q := m / 2 ^ k
  let r := 2 * (m % 2 ^ k)
  if r > 2 ^ k ∨ (r = 2 ^ k ∧ q % 2 = 1) then q + 1 else q

/-- (−1)^neg × m × 2^e rounded to binary32 with an unbounded exponent range; tiny results are zero, large ones infinite. -/
def round (neg : Bool) (m : Nat) (e : Int) : BitVec 64 :=
  if m = 0 then zeroBits neg
  else
    let len := Nat.log2 m + 1
    let q0 := if len ≤ 24 then m * 2 ^ (24 - len) else roundShift m (len - 24)
    let e0 : Int := e + Int.ofNat len - 24
    let q := if q0 = 2 ^ 24 then 2 ^ 23 else q0
    let e1 := if q0 = 2 ^ 24 then e0 + 1 else e0
    let b := e1 + 150
    if b ≤ 0 then zeroBits neg
    else if b ≥ 255 then infBits neg
    else BitVec.ofNat 64 (signBit neg + b.toNat * 2 ^ 23 + (q - 2 ^ 23))

/-- The bits of an operand as such. -/
def bits : Fp → BitVec 64
  | .nan => nanBits
  | .inf n => infBits n
  | .fin n m e => round n m e

def flip : Fp → Fp
  | .nan => .nan
  | .inf n => .inf (!n)
  | .fin n m e => .fin (!n) m e

/-- The signed whole number of a finite operand at exponent `lo`, which is no greater than its own. -/
def scaled (n : Bool) (m : Nat) (e lo : Int) : Int :=
  let v : Int := ((m * 2 ^ (e - lo).toNat : Nat) : Int)
  if n then -v else v

def add (a b : Fp) : BitVec 64 :=
  match a, b with
  | .nan, _ => nanBits
  | _, .nan => nanBits
  | .inf n, .inf k => if n = k then infBits n else nanBits
  | .inf n, _ => infBits n
  | _, .inf k => infBits k
  | .fin n m e, .fin k l f =>
    if m = 0 ∧ l = 0 then zeroBits (n && k)
    else
      let lo := if m = 0 then f else if l = 0 then e else min e f
      let v := (if m = 0 then 0 else scaled n m e lo) + (if l = 0 then 0 else scaled k l f lo)
      if v = 0 then zeroBits false else round (decide (v < 0)) v.natAbs lo

def sub (a b : Fp) : BitVec 64 := add a (flip b)

def mul (a b : Fp) : BitVec 64 :=
  match a, b with
  | .nan, _ => nanBits
  | _, .nan => nanBits
  | .inf n, .inf k => infBits (n != k)
  | .inf n, .fin k l _ => if l = 0 then nanBits else infBits (n != k)
  | .fin n m _, .inf k => if m = 0 then nanBits else infBits (n != k)
  | .fin n m e, .fin k l f => round (n != k) (m * l) (e + f)

def div (a b : Fp) : BitVec 64 :=
  match a, b with
  | .nan, _ => nanBits
  | _, .nan => nanBits
  | .inf _, .inf _ => nanBits
  | .inf n, .fin k _ _ => infBits (n != k)
  | .fin n _ _, .inf k => zeroBits (n != k)
  | .fin n m e, .fin k l f =>
    if l = 0 then (if m = 0 then nanBits else infBits (n != k))
    else
      let t := m * 2 ^ 50
      round (n != k) (2 * (t / l) + (if t % l = 0 then 0 else 1)) (e - f - 51)

/-- The whole square root of `n`, bit by bit from bit `k − 1` down. -/
def isqrt (n : Nat) : Nat → Nat → Nat
  | 0, r => r
  | k + 1, r => if (r + 2 ^ k) * (r + 2 ^ k) ≤ n then isqrt n k (r + 2 ^ k) else isqrt n k r

def sqrt (a : Fp) : BitVec 64 :=
  match a with
  | .nan => nanBits
  | .inf n => if n then nanBits else infBits false
  | .fin n m e =>
    if m = 0 then zeroBits n
    else if n then nanBits
    else
      let odd := e % 2 ≠ 0
      let t := (if odd then 2 * m else m) * 2 ^ 60
      let f := (if odd then e - 1 else e) - 60
      let r := isqrt t 43 0
      round false (2 * r + (if r * r = t then 0 else 1)) (f / 2 - 1)

/-- Whether a < b for operands that are not NaN, with −0 equal to +0. -/
def lt (a b : Fp) : Bool :=
  match a, b with
  | .nan, _ => false
  | _, .nan => false
  | .inf n, .inf k => n && !k
  | .inf n, .fin _ _ _ => n
  | .fin _ _ _, .inf k => !k
  | .fin n m e, .fin k l f =>
    let lo := if m = 0 then f else if l = 0 then e else min e f
    decide ((if m = 0 then 0 else scaled n m e lo) < (if l = 0 then 0 else scaled k l f lo))

/-- Whether a = b for operands that are not NaN. -/
def eq (a b : Fp) : Bool := a != .nan && b != .nan && !lt a b && !lt b a

/-- The sign of an operand, for the order of the zeros. -/
def neg : Fp → Bool
  | .nan => false
  | .inf n => n
  | .fin n _ _ => n

def minmax (max : Bool) (a b : Fp) : BitVec 64 :=
  if a = .nan then bits b
  else if b = .nan then bits a
  else
    let aFirst := lt a b || (eq a b && (neg a || !neg b))
    bits (if aFirst = max then b else a)

/-- binary32 from a signed 64-bit number. -/
def ofInt (v : BitVec 64) : BitVec 64 := round (decide (v.toInt < 0)) v.toInt.natAbs 0

/-- A signed 64-bit number from a binary32, toward zero, saturating; 0 for NaN. -/
def toInt (a : Fp) : BitVec 64 :=
  match a with
  | .nan => 0
  | .inf n => if n then 0x8000000000000000 else 0x7FFFFFFFFFFFFFFF
  | .fin n m e =>
    let v := if e ≥ 0 then m * 2 ^ e.toNat else m / 2 ^ (-e).toNat
    if n then (if v ≥ 2 ^ 63 then 0x8000000000000000 else BitVec.ofInt 64 (-((v : Nat) : Int)))
    else if v ≥ 2 ^ 63 then 0x7FFFFFFFFFFFFFFF else BitVec.ofNat 64 v

end Fp

end Sys2Proof.Machine
end

