-- ==== Sys2Proof/Config.lean ====
section
/-! DEFINITION. What one implementation fixes, and the free values: every value here has no body, so nothing can be proved
of it beyond its type. Each is applied to the plain counter `State.freeCtr`, which every use advances. -/

namespace Sys2Proof.Config

/-- A bit the manual leaves open (R385: a RESET_N low between 1 and 10 microseconds; R384: a supply dip below 2
microseconds; R386: a PWRFAIL_N low between 0.5 and 2 microseconds). -/
opaque freeBit : Nat → Bool

/-- A byte the manual leaves open. -/
opaque freeByte : Nat → BitVec 8

/-- A 32-bit word the manual leaves open. -/
opaque freeWord : Nat → BitVec 32

/-- A natural number the manual leaves open: a random draw, a choice among candidates. -/
opaque freeNat : Nat → Nat

end Sys2Proof.Config
end

