-- ==== Sys2Proof/Machine/Bytes.lean ====
section
/-! DEFINITION. Strings of bytes and numbers: network order and little-endian (R3), and bit fields of numbers (R2). -/

namespace Sys2Proof.Machine

/-- `v` as `n` bytes, most significant first (network order, R3). -/
def beBytes : Nat → Nat → Bytes
  | 0, _ => []
  | n + 1, v => BitVec.ofNat 8 (v / 256 ^ n) :: beBytes n v

/-- `v` as `n` bytes, least significant first. -/
def leBytes : Nat → Nat → Bytes
  | 0, _ => []
  | n + 1, v => BitVec.ofNat 8 v :: leBytes n (v / 256)

/-- The number that bytes in network order spell. -/
def ofBe (b : Bytes) : Nat := b.foldl (fun a x => a * 256 + x.toNat) 0

/-- The number that little-endian bytes spell. -/
def ofLe (b : Bytes) : Nat := b.foldr (fun x a => x.toNat + 256 * a) 0

/-- `n` zero bytes. -/
def zeros (n : Nat) : Bytes := List.replicate n 0

/-- Byte `i` of a string, 0 beyond its end. -/
def byteAt (b : Bytes) (i : Nat) : Nat := (b.getD i 0).toNat

/-- Bytes `o` to `o + n - 1`, zero-padded beyond the end. -/
def slice (b : Bytes) (o n : Nat) : Bytes :=
  let t := (b.drop o).take n
  t ++ zeros (n - t.length)

/-- `n` bytes at `o`, in network order. -/
def be (b : Bytes) (o n : Nat) : Nat := ofBe (slice b o n)

/-- The string with the bytes `v` put over offset `o`. -/
def patch (b : Bytes) (o : Nat) (v : Bytes) : Bytes := b.take o ++ v ++ b.drop (o + v.length)

/-- Bits [hi:lo] of a number. -/
def bits (v lo w : Nat) : Nat := v / 2 ^ lo % 2 ^ w

/-- Bit `i` of a number. -/
def bitOf (v i : Nat) : Bool := v / 2 ^ i % 2 = 1

/-- 1 or 0. -/
def b2n (b : Bool) : Nat := if b then 1 else 0

/-- `w` consecutive bits in wire order from bit offset `o`, counted from the most significant bit of the first byte (R130
ff.), right-aligned. -/
def wireBits (b : Bytes) (o w : Nat) : Nat :=
  let first := o / 8
  let n := (o % 8 + w + 7) / 8
  (be b first n) / 2 ^ (8 * n - o % 8 - w) % 2 ^ w

/-- The signed value of a `w`-bit number. -/
def signed (w v : Nat) : Int := if v % 2 ^ w < 2 ^ (w - 1) then (v % 2 ^ w : Nat) else ((v % 2 ^ w : Nat) : Int) - ((2 ^ w : Nat) : Int)

/-- A signed value as a `w`-bit number in two's complement. -/
def unsigned (w : Nat) (v : Int) : Nat := (v % ((2 ^ w : Nat) : Int)).toNat

/-- ceil(a / b). -/
def cdiv (a b : Nat) : Nat := (a + b - 1) / b

/-- A number with every bit of it counted. -/
def popcount : Nat → Nat → Nat
  | 0, _ => 0
  | n + 1, v => v % 2 + popcount n (v / 2)

end Sys2Proof.Machine
end

