-- ==== Sys2Proof/Machine/RegMap.lean ====
section
/-! DEFINITION. The named registers and fields of the manual's register maps: for each register its address and its Reset
value (the Reset column, the value after POR: R9), for each field its place in the register. Generated from the register
tables of spec/02 to spec/16. -/

namespace Sys2Proof.Machine

/-- A register: the address of its (low) word, and the word's Reset value. -/
structure Reg where
  addr : Nat
  rst  : Nat
  deriving DecidableEq, Repr

/-- Word `k` of a register that is wider than 32 bits (R4: the low word at the lower address). -/
def regWord (r : Reg) (k : Nat) : Reg := if k = 0 then r else ⟨r.addr + 4 * k, 0⟩

/-- The place of a field: its lowest bit and its width. -/
structure Fld where
  lo    : Nat
  width : Nat
  deriving DecidableEq, Repr

namespace Rg

/-! spec/02_hoop_and_local_time.md -/
def TIME_CTRL : Reg := ⟨0x10010000, 0x0⟩
def TIME_STATUS : Reg := ⟨0x10010004, 0x0⟩
def TIME_RAW : Reg := ⟨0x10010008, 0x0⟩
def TIME_OFFSET : Reg := ⟨0x10010010, 0x0⟩
def TIME_OFFSET_FRAC : Reg := ⟨0x10010018, 0x0⟩
def TIME_NOW : Reg := ⟨0x10010020, 0x0⟩
def TIME_NOW_FRAC : Reg := ⟨0x10010028, 0x0⟩
def TIME_NOW_HOOP : Reg := ⟨0x1001002c, 0x0⟩
def TIME_RATE : Reg := ⟨0x10010030, 0x0⟩
def TIME_SLEW_MAX : Reg := ⟨0x10010034, 0x64⟩
def TIME_ADJ : Reg := ⟨0x10010038, 0x0⟩
def TIME_ADJ_REMAIN : Reg := ⟨0x1001003c, 0x0⟩
def TIME_SERVO_OFFSET : Reg := ⟨0x10010040, 0x0⟩
def TIME_SYNC_CFG : Reg := ⟨0x10010044, 0x40d⟩
def TIME_HOLDOVER_MS : Reg := ⟨0x10010048, 0x0⟩
def TIME_STEP : Reg := ⟨0x10010050, 0x0⟩
def TIME_PPS_IN_TS (i : Nat) : Reg := ⟨0x10010060 + 0x10 * i, 0x0⟩
def TIME_PPS_IN_FRAC (i : Nat) : Reg := ⟨0x10010068 + 0x10 * i, 0x0⟩
def TIME_PPS_IN_CNT (i : Nat) : Reg := ⟨0x1001006c + 0x10 * i, 0x0⟩
def TIME_PPS_OUT_CFG (j : Nat) : Reg := ⟨0x10010080 + 0x4 * j, 0x4⟩
def TIME_TSQ_REC (g : Nat) : Reg := ⟨0x10010100 + 0x20 * g, 0x0⟩
def TIME_TSQ_LEVEL (g : Nat) : Reg := ⟨0x10010110 + 0x20 * g, 0x0⟩
def TIME_TSQ_POP (g : Nat) : Reg := ⟨0x10010114 + 0x20 * g, 0x0⟩
def TIME_CAL_TX (p : Nat) : Reg := ⟨0x10010200 + 0x8 * p, 0x0⟩
def TIME_CAL_RX (p : Nat) : Reg := ⟨0x10010204 + 0x8 * p, 0x0⟩
def TIME_PTP_CFG (p : Nat) : Reg := ⟨0x10010300 + 0x4 * p, 0x8⟩
def TIME_TSQ_OVF (p : Nat) : Reg := ⟨0x10010400 + 0x4 * p, 0x0⟩
def HOOP_PERIOD : Reg := ⟨0x10010800, 0x64⟩
def HOOP_PHASE : Reg := ⟨0x10010804, 0x0⟩
def HOOP_REPEAT : Reg := ⟨0x10010808, 0x1⟩
def HOOP_SWAP_DELAY : Reg := ⟨0x1001080c, 0x3e8⟩
def HOOP_INDEX : Reg := ⟨0x10010810, 0x0⟩
def HOOP_POS : Reg := ⟨0x10010814, 0x0⟩
def HOOP_COUNT : Reg := ⟨0x10010818, 0x0⟩
def HOOP_LAST_B : Reg := ⟨0x10010820, 0x0⟩
def HOOP_BUDGET (a : Nat) : Reg := ⟨0x10010840 + 0x4 * a, 0x0⟩
def HOOP_CARRY (a : Nat) : Reg := ⟨0x10010860 + 0x4 * a, 0x0⟩
/-! spec/03_pricking_and_start.md -/
def IMG_STATUS : Reg := ⟨0x10020000, 0x0⟩
def IMG_SLOT_RESULT (s : Nat) : Reg := ⟨0x10020004 + 0x4 * s, 0x0⟩
def IMG_ACTIVE_VERSION : Reg := ⟨0x10020010, 0x0⟩
def IMG_NODE : Reg := ⟨0x10020014, 0x0⟩
def IMG_LIFECYCLE : Reg := ⟨0x10020018, 0x0⟩
def IMG_ROLLBACK : Reg := ⟨0x1002001c, 0x0⟩
def IMG_EPOCH_COMMIT : Reg := ⟨0x10020020, 0x0⟩
def IMG_UID : Reg := ⟨0x10020030, 0x0⟩
def IMG_DBG_NONCE : Reg := ⟨0x10020040, 0x0⟩
def IMG_STAGE_CTRL : Reg := ⟨0x10020050, 0x0⟩
def IMG_STAGE_ADDR : Reg := ⟨0x10020054, 0x0⟩
def IMG_STAGE_STATUS : Reg := ⟨0x10020058, 0x0⟩
def IMG_DIGEST (k : Nat) : Reg := ⟨0x10020100 + 0x40 * k, 0x0⟩
def IMG_STAGE_BUF : Reg := ⟨0x10020200, 0x0⟩
/-! spec/04_ethernet_ports.md -/
def ETH_CFG (p : Nat) : Reg := ⟨0x10100000 + 0x1000 * p, 0xbdc0⟩
def ETH_STATUS (p : Nat) : Reg := ⟨0x10100004 + 0x1000 * p, 0x0⟩
def ETH_SERDES_TX (p : Nat) : Reg := ⟨0x10100008 + 0x1000 * p, 0x3f0⟩
/-- ETH_SERDES_RX: ADAPT resets to 1 on ports 0 to 3 (R84). -/
def ETH_SERDES_RX (p : Nat) : Reg := ⟨0x1010000c + 0x1000 * p, if p < 4 then 0x808 else 0x8⟩
def ETH_ADAPT_RESULT (p : Nat) : Reg := ⟨0x10100010 + 0x1000 * p, 0x0⟩
def ETH_TX_THRESH (p : Nat) : Reg := ⟨0x10100014 + 0x1000 * p, 0x400040⟩
def ETH_FC_CFG (p : Nat) : Reg := ⟨0x10100018 + 0x1000 * p, 0x0⟩
def ETH_PAUSE_WDOG (p : Nat) : Reg := ⟨0x1010001c + 0x1000 * p, 0x0⟩
def ETH_FC_STATUS (p : Nat) : Reg := ⟨0x10100020 + 0x1000 * p, 0x0⟩
def ETH_CLASS_MAP (p : Nat) : Reg := ⟨0x10100024 + 0x1000 * p, 0xfac688⟩
def ETH_PHY (p : Nat) : Reg := ⟨0x10100028 + 0x1000 * p, 0x0⟩
def ETH_MDIO_CMD (p : Nat) : Reg := ⟨0x1010002c + 0x1000 * p, 0x0⟩
def ETH_MDIO_DATA (p : Nat) : Reg := ⟨0x10100030 + 0x1000 * p, 0x0⟩
def ETH_INT_EN (p : Nat) : Reg := ⟨0x10100034 + 0x1000 * p, 0x0⟩
def ETH_INT_STATUS (p : Nat) : Reg := ⟨0x10100038 + 0x1000 * p, 0x0⟩
def ETH_CNT_HALF (p : Nat) : Reg := ⟨0x10100040 + 0x1000 * p, 0x0⟩
def ETH_CNT_OVER (p : Nat) : Reg := ⟨0x10100048 + 0x1000 * p, 0x0⟩
def ETH_FEC_CORR (p : Nat) : Reg := ⟨0x10100050 + 0x1000 * p, 0x0⟩
def ETH_FEC_UNCORR (p : Nat) : Reg := ⟨0x10100054 + 0x1000 * p, 0x0⟩
def ETH_TX_TOO_LONG (p : Nat) : Reg := ⟨0x10100058 + 0x1000 * p, 0x0⟩
def ETH_TX_LINK_DROP (p : Nat) : Reg := ⟨0x1010005c + 0x1000 * p, 0x0⟩
def ETH_LINK_DOWNS (p : Nat) : Reg := ⟨0x10100060 + 0x1000 * p, 0x0⟩
def ETH_CNT (p i : Nat) : Reg := ⟨0x10100100 + 0x1000 * p + 0x4 * i, 0x0⟩
def ETH_CNT_SNAP (p i : Nat) : Reg := ⟨0x10100200 + 0x1000 * p + 0x4 * i, 0x0⟩
def ETH_STEER_MATCH (p f : Nat) : Reg := ⟨0x10100400 + 0x1000 * p + 0x10 * f, 0x0⟩
def ETH_STEER_MASK (p f : Nat) : Reg := ⟨0x10100404 + 0x1000 * p + 0x10 * f, 0x0⟩
def ETH_STEER_ACT (p f : Nat) : Reg := ⟨0x10100408 + 0x1000 * p + 0x10 * f, 0x0⟩
def ETH_STEER_HITS (p f : Nat) : Reg := ⟨0x10100600 + 0x1000 * p + 0x4 * f, 0x0⟩
/-! spec/05_shared_medium_ports.md -/
def CAN_CFG (p : Nat) : Reg := ⟨0x10100000 + 0x1000 * p, 0xcc20⟩
def CAN_STATUS (p : Nat) : Reg := ⟨0x10100004 + 0x1000 * p, 0x0⟩
def CAN_NBT (p : Nat) : Reg := ⟨0x10100008 + 0x1000 * p, 0x20407e01⟩
def CAN_DBT (p : Nat) : Reg := ⟨0x1010000c + 0x1000 * p, 0x421c1⟩
def CAN_XBT (p : Nat) : Reg := ⟨0x10100010 + 0x1000 * p, 0x104141⟩
def CAN_TDC (p : Nat) : Reg := ⟨0x10100014 + 0x1000 * p, 0x0⟩
def CAN_PWM (p : Nat) : Reg := ⟨0x10100018 + 0x1000 * p, 0x41⟩
def CAN_RECOVER (p : Nat) : Reg := ⟨0x1010001c + 0x1000 * p, 0x0⟩
def CAN_INT_EN (p : Nat) : Reg := ⟨0x10100020 + 0x1000 * p, 0x0⟩
def CAN_INT_STATUS (p : Nat) : Reg := ⟨0x10100024 + 0x1000 * p, 0x0⟩
def CAN_CNT_HALF (p : Nat) : Reg := ⟨0x10100028 + 0x1000 * p, 0x0⟩
def CAN_CNT_OVER (p : Nat) : Reg := ⟨0x1010002c + 0x1000 * p, 0x0⟩
def CAN_PRIO_CTRL (p k : Nat) : Reg := ⟨0x10100030 + 0x1000 * p + 0x4 * k, 0x0⟩
def CAN_MFIFO_LEVEL (p : Nat) : Reg := ⟨0x10100040 + 0x1000 * p, 0x0⟩
def CAN_MFIFO_POP (p : Nat) : Reg := ⟨0x10100044 + 0x1000 * p, 0x0⟩
def CAN_MTX_CMD (p : Nat) : Reg := ⟨0x10100048 + 0x1000 * p, 0x0⟩
def CAN_MTX_STATUS (p n : Nat) : Reg := ⟨0x10100050 + 0x1000 * p + 0x4 * n, 0x0⟩
def CAN_CNT (p i : Nat) : Reg := ⟨0x10100100 + 0x1000 * p + 0x4 * i, 0x0⟩
def CAN_CNT_SNAP (p i : Nat) : Reg := ⟨0x10100180 + 0x1000 * p + 0x4 * i, 0x0⟩
def CAN_PRIO_BUF (p k : Nat) : Reg := ⟨0x10100200 + 0x1000 * p + 0x80 * k, 0x0⟩
def CAN_MFIFO_HEAD (p : Nat) : Reg := ⟨0x10100400 + 0x1000 * p, 0x0⟩
def CAN_AF_MATCH (p a : Nat) : Reg := ⟨0x10100480 + 0x1000 * p + 0x8 * a, 0x0⟩
def CAN_AF_MASK (p a : Nat) : Reg := ⟨0x10100484 + 0x1000 * p + 0x8 * a, 0x0⟩
def CAN_MTX_STAGE (p : Nat) : Reg := ⟨0x10100500 + 0x1000 * p, 0x0⟩
def CAN_FILT_ID (p f : Nat) : Reg := ⟨0x10100800 + 0x1000 * p + 0x10 * f, 0x0⟩
def CAN_FILT_MASK (p f : Nat) : Reg := ⟨0x10100804 + 0x1000 * p + 0x10 * f, 0x0⟩
def CAN_FILT_XL (p f : Nat) : Reg := ⟨0x10100808 + 0x1000 * p + 0x10 * f, 0x0⟩
def CAN_FILT_ACT (p f : Nat) : Reg := ⟨0x1010080c + 0x1000 * p + 0x10 * f, 0x0⟩
def T1S_CFG (p : Nat) : Reg := ⟨0x10100000 + 0x1000 * p, 0x17b80⟩
def T1S_STATUS (p : Nat) : Reg := ⟨0x10100004 + 0x1000 * p, 0x0⟩
def T1S_PLCA (p : Nat) : Reg := ⟨0x10100008 + 0x1000 * p, 0x80002008⟩
def T1S_BEACON (p : Nat) : Reg := ⟨0x1010000c + 0x1000 * p, 0x3e8⟩
def T1S_MEMBER_CFG (p : Nat) : Reg := ⟨0x10100010 + 0x1000 * p, 0x0⟩
def T1S_CLASS_MAP (p : Nat) : Reg := ⟨0x10100014 + 0x1000 * p, 0xfac688⟩
def T1S_INT_EN (p : Nat) : Reg := ⟨0x10100018 + 0x1000 * p, 0x0⟩
def T1S_INT_STATUS (p : Nat) : Reg := ⟨0x1010001c + 0x1000 * p, 0x0⟩
def T1S_CNT_HALF (p : Nat) : Reg := ⟨0x10100020 + 0x1000 * p, 0x0⟩
def T1S_CNT_OVER (p : Nat) : Reg := ⟨0x10100024 + 0x1000 * p, 0x0⟩
def T1S_MEMBER (p m : Nat) : Reg := ⟨0x10100040 + 0x1000 * p + 0x8 * m, 0x0⟩
def T1S_CNT (p i : Nat) : Reg := ⟨0x10100100 + 0x1000 * p + 0x4 * i, 0x0⟩
def T1S_CNT_SNAP (p i : Nat) : Reg := ⟨0x10100180 + 0x1000 * p + 0x4 * i, 0x0⟩
/-! spec/06_parse_graph.md -/
def PARSE_CFG : Reg := ⟨0x10200000, 0x10010⟩
def PARSE_BANK_CTRL : Reg := ⟨0x10200004, 0x0⟩
def PARSE_BANK_STATUS : Reg := ⟨0x10200008, 0x0⟩
def PARSE_SWAP_HOOP : Reg := ⟨0x1020000c, 0x0⟩
def PARSE_AKZOR_CFG : Reg := ⟨0x10200010, 0x88b5⟩
def PARSE_INT_EN : Reg := ⟨0x10200014, 0x0⟩
def PARSE_INT_STATUS : Reg := ⟨0x10200018, 0x0⟩
def PARSE_CNT (p i : Nat) : Reg := ⟨0x10201000 + 0x40 * p + 0x4 * i, 0x0⟩
def PARSE_CNT_HALF (p : Nat) : Reg := ⟨0x10202000 + 0x4 * p, 0x0⟩
def PARSE_CNT_OVER (p : Nat) : Reg := ⟨0x10202100 + 0x4 * p, 0x0⟩
/-! spec/07_exact_match_tables.md -/
def TBL_DMA_BASE : Reg := ⟨0x10300000, 0x0⟩
def TBL_DMA_SIZE : Reg := ⟨0x10300004, 0x4⟩
def TBL_DMA_HEAD : Reg := ⟨0x10300008, 0x0⟩
def TBL_DMA_TAIL : Reg := ⟨0x1030000c, 0x0⟩
def TBL_STATUS : Reg := ⟨0x10300010, 0x20000⟩
def TBL_INT_EN : Reg := ⟨0x10300014, 0x0⟩
def TBL_INT_STATUS : Reg := ⟨0x10300018, 0x0⟩
def TBL_NODE_CFG : Reg := ⟨0x1030001c, 0x7⟩
def TBL_AKZOR_DA : Reg := ⟨0x10300020, 0x0⟩
def TBL_AKZOR_SA : Reg := ⟨0x10300028, 0x0⟩
def TBL_CFG (t : Nat) : Reg := ⟨0x10300040 + 0x40 * t, 0x0⟩
def TBL_AGE (t : Nat) : Reg := ⟨0x10300044 + 0x40 * t, 0x0⟩
def TBL_SEED_INIT (t : Nat) : Reg := ⟨0x10300048 + 0x40 * t, 0x0⟩
def TBL_SEED (t : Nat) : Reg := ⟨0x10300050 + 0x40 * t, 0x0⟩
def TBL_SEED_STBY (t : Nat) : Reg := ⟨0x10300058 + 0x40 * t, 0x0⟩
def TBL_BANK_CTRL (t : Nat) : Reg := ⟨0x10300060 + 0x40 * t, 0x0⟩
def TBL_BANK_STATUS (t : Nat) : Reg := ⟨0x10300064 + 0x40 * t, 0x0⟩
def TBL_ENTRIES (t : Nat) : Reg := ⟨0x10300068 + 0x40 * t, 0x0⟩
def TBL_FAIL (t : Nat) : Reg := ⟨0x1030006c + 0x40 * t, 0x0⟩
def TBL_FAIL_KEY (t : Nat) : Reg := ⟨0x10300200 + 0x40 * t, 0x0⟩
def TBL_PORT_CFG (p : Nat) : Reg := ⟨0x10300400 + 0x4 * p, 0x0⟩
def TBL_CNT (i : Nat) : Reg := ⟨0x10300500 + 0x4 * i, 0x0⟩
def TBL_CNT_HALF : Reg := ⟨0x10300540, 0x0⟩
def TBL_CNT_OVER : Reg := ⟨0x10300544, 0x0⟩
def TBL_VLAN (v : Nat) : Reg := ⟨0x10301000 + 0x4 * v, 0x0⟩
/-! spec/08_ground_and_buffers.md -/
def BUF_RESERVE : Reg := ⟨0x10400000, 0x2084⟩
def BUF_POOL_FREE : Reg := ⟨0x10400004, 0x10000⟩
def BUF_INT_EN : Reg := ⟨0x10400008, 0x0⟩
def BUF_INT_STATUS : Reg := ⟨0x1040000c, 0x0⟩
def BUF_MC_MASK : Reg := ⟨0x10400010, 0x0⟩
def BUF_MC_CMD : Reg := ⟨0x10400018, 0x0⟩
def BUF_MC_STATUS : Reg := ⟨0x1040001c, 0x0⟩
def GND_CNT (i : Nat) : Reg := ⟨0x10400040 + 0x4 * i, 0x0⟩
def GND_CNT_HALF : Reg := ⟨0x10400060, 0x0⟩
def GND_CNT_OVER : Reg := ⟨0x10400064, 0x0⟩
def GND_IQ_LEVEL (m e : Nat) : Reg := ⟨0x10400100 + 0x20 * m + 0x4 * e, 0x0⟩
def BUF_WRED_THR (n : Nat) : Reg := ⟨0x10400200 + 0x8 * n, 0x0⟩
def BUF_WRED_P (n : Nat) : Reg := ⟨0x10400204 + 0x8 * n, 0x0⟩
def BUF_LIMIT (p c : Nat) : Reg := ⟨0x10401000 + 0x20 * p + 0x4 * c, 0x0⟩
def BUF_QCFG (p c : Nat) : Reg := ⟨0x10402000 + 0x20 * p + 0x4 * c, 0x0⟩
def BUF_OCC (p c : Nat) : Reg := ⟨0x10403000 + 0x40 * p + 0x8 * c, 0x0⟩
def BUF_AVG (p c : Nat) : Reg := ⟨0x10403004 + 0x40 * p + 0x8 * c, 0x0⟩
def BUF_QCNT (p c i : Nat) : Reg := ⟨0x10404000 + 0x100 * p + 0x20 * c + 0x4 * i, 0x0⟩
def BUF_QCNT_HALF (p : Nat) : Reg := ⟨0x10408000 + 0x8 * p, 0x0⟩
def BUF_QCNT_OVER (p : Nat) : Reg := ⟨0x10408200 + 0x8 * p, 0x0⟩
/-! spec/09_policing_scheduling_gates.md -/
def EGR_SCHED (p : Nat) : Reg := ⟨0x10500000 + 0x1000 * p, 0xa3⟩
def EGR_LAUNCH (p : Nat) : Reg := ⟨0x10500004 + 0x1000 * p, 0x2710⟩
def EGR_GATE_CFG (p : Nat) : Reg := ⟨0x10500008 + 0x1000 * p, 0x0⟩
def EGR_GATE_CTRL (p : Nat) : Reg := ⟨0x1050000c + 0x1000 * p, 0x0⟩
def EGR_GATE_STATUS (p : Nat) : Reg := ⟨0x10500010 + 0x1000 * p, 0xff000⟩
def EGR_PSHAPE_RATE (p : Nat) : Reg := ⟨0x10500014 + 0x1000 * p, 0x1⟩
def EGR_PSHAPE_BURST (p : Nat) : Reg := ⟨0x10500018 + 0x1000 * p, 0x0⟩
def EGR_PSHAPE_TOKENS (p : Nat) : Reg := ⟨0x1050001c + 0x1000 * p, 0x0⟩
def EGR_INT_EN (p : Nat) : Reg := ⟨0x10500020 + 0x1000 * p, 0x0⟩
def EGR_INT_STATUS (p : Nat) : Reg := ⟨0x10500024 + 0x1000 * p, 0x0⟩
def EGR_CNT_HALF (p : Nat) : Reg := ⟨0x10500028 + 0x1000 * p, 0x0⟩
def EGR_CNT_OVER (p : Nat) : Reg := ⟨0x1050002c + 0x1000 * p, 0x0⟩
def EGR_QUANTUM (p c : Nat) : Reg := ⟨0x10500040 + 0x1000 * p + 0x20 * c, 0x5ee⟩
def EGR_DWRR_BURST (p c : Nat) : Reg := ⟨0x10500044 + 0x1000 * p + 0x20 * c, 0x0⟩
def EGR_QSHAPE_RATE (p c : Nat) : Reg := ⟨0x10500048 + 0x1000 * p + 0x20 * c, 0x1⟩
def EGR_QSHAPE_BURST (p c : Nat) : Reg := ⟨0x1050004c + 0x1000 * p + 0x20 * c, 0x0⟩
def EGR_DEFICIT (p c : Nat) : Reg := ⟨0x10500050 + 0x1000 * p + 0x20 * c, 0x0⟩
def EGR_QSHAPE_TOKENS (p c : Nat) : Reg := ⟨0x10500054 + 0x1000 * p + 0x20 * c, 0x0⟩
def EGR_QCTRL (p c : Nat) : Reg := ⟨0x10500058 + 0x1000 * p + 0x20 * c, 0x0⟩
def EGR_GATE_WMAX (p c : Nat) : Reg := ⟨0x1050005c + 0x1000 * p + 0x20 * c, 0xffffffff⟩
def EGR_CNT (p i : Nat) : Reg := ⟨0x10500200 + 0x1000 * p + 0x4 * i, 0x0⟩
def EGR_SAMPLE_BASE : Reg := ⟨0x1053f000, 0x0⟩
def EGR_SAMPLE_SIZE : Reg := ⟨0x1053f004, 0x9⟩
def EGR_SAMPLE_WR : Reg := ⟨0x1053f008, 0x0⟩
def EGR_SAMPLE_RD : Reg := ⟨0x1053f00c, 0x0⟩
def EGR_SAMPLE_LOST : Reg := ⟨0x1053f010, 0x0⟩
def BUF_POL_CIR : Reg := ⟨0x10400020, 0x0⟩
def BUF_POL_CBS : Reg := ⟨0x10400024, 0x0⟩
def BUF_POL_PIR : Reg := ⟨0x10400028, 0x0⟩
def BUF_POL_PBS : Reg := ⟨0x1040002c, 0x0⟩
def BUF_POL_CMD : Reg := ⟨0x10400030, 0x0⟩
def BUF_POL_STATUS : Reg := ⟨0x10400034, 0x0⟩
def BUF_POL_TC : Reg := ⟨0x10400038, 0x0⟩
def BUF_POL_TP : Reg := ⟨0x1040003c, 0x0⟩
/-! spec/10_bobbins.md -/
def BOB_CFG : Reg := ⟨0x10600000, 0x3⟩
def BOB_EMIT_LEAD : Reg := ⟨0x10600004, 0x2710⟩
def BOB_EMIT_OFFSET : Reg := ⟨0x10600008, 0x0⟩
def BOB_INT_EN : Reg := ⟨0x1060000c, 0x0⟩
def BOB_INT_STATUS : Reg := ⟨0x10600010, 0x0⟩
def BOB_CNT_HALF : Reg := ⟨0x10600014, 0x0⟩
def BOB_CNT_OVER : Reg := ⟨0x10600018, 0x0⟩
def BOB_SIGW_INDEX : Reg := ⟨0x10600020, 0x0⟩
def BOB_SIGW_VALUE : Reg := ⟨0x10600028, 0x0⟩
def BOB_SIGW_CMD : Reg := ⟨0x10600030, 0x0⟩
def BOB_SIGW_STATUS : Reg := ⟨0x10600034, 0x0⟩
def BOB_PRIV_ADDR : Reg := ⟨0x10600040, 0x0⟩
def BOB_PRIV_DATA : Reg := ⟨0x10600048, 0x0⟩
def BOB_PRIV_CMD : Reg := ⟨0x10600050, 0x0⟩
def BOB_PRIV_STATUS : Reg := ⟨0x10600054, 0x0⟩
def BOB_CNT (i : Nat) : Reg := ⟨0x10600080 + 0x4 * i, 0x0⟩
def BOB_BUDGET (b : Nat) : Reg := ⟨0x10600100 + 0x40 * b, 0x0⟩
def BOB_EMIT_MAX (b : Nat) : Reg := ⟨0x10600104 + 0x40 * b, 0x0⟩
def BOB_STATUS (b : Nat) : Reg := ⟨0x10600108 + 0x40 * b, 0x0⟩
def BOB_CYCLES_LAST (b : Nat) : Reg := ⟨0x1060010c + 0x40 * b, 0x0⟩
def BOB_CYCLES_MAX (b : Nat) : Reg := ⟨0x10600110 + 0x40 * b, 0x0⟩
def BOB_BCNT (b i : Nat) : Reg := ⟨0x10600120 + 0x40 * b + 0x4 * i, 0x0⟩
def BOB_BCNT_HALF (b : Nat) : Reg := ⟨0x10600130 + 0x40 * b, 0x0⟩
def BOB_BCNT_OVER (b : Nat) : Reg := ⟨0x10600134 + 0x40 * b, 0x0⟩
def BOB_CMAP (m f : Nat) : Reg := ⟨0x10604000 + 0x40 * m + 0x8 * f, 0x0⟩
/-! spec/12_couching_bridge.md -/
def BRG_CFG : Reg := ⟨0x10700000, 0xc8d20000⟩
def BRG_L2 : Reg := ⟨0x10700004, 0x88b6⟩
def BRG_MAC : Reg := ⟨0x10700008, 0x0⟩
def BRG_COLLECT : Reg := ⟨0x10700010, 0x14⟩
def BRG_EVENT : Reg := ⟨0x10700014, 0x0⟩
def BRG_SB : Reg := ⟨0x10700018, 0x0⟩
def BRG_POLL_CFG : Reg := ⟨0x1070001c, 0x0⟩
def BRG_STATUS : Reg := ⟨0x10700020, 0x0⟩
def BRG_INT_EN : Reg := ⟨0x10700024, 0x0⟩
def BRG_INT_STATUS : Reg := ⟨0x10700028, 0x0⟩
def BRG_CNT_HALF : Reg := ⟨0x1070002c, 0x0⟩
def BRG_CNT_OVER : Reg := ⟨0x10700030, 0x0⟩
def BRG_PORT_CFG (n : Nat) : Reg := ⟨0x10700080 + 0x4 * n, 0x0⟩
def BRG_CNT (i : Nat) : Reg := ⟨0x10700100 + 0x4 * i, 0x0⟩
def BRG_INIT (i : Nat) : Reg := ⟨0x10700200 + 0x8 * i, 0x0⟩
def BRG_INIT_STATUS (i : Nat) : Reg := ⟨0x10700204 + 0x8 * i, 0x0⟩
def BRG_POLL (n : Nat) : Reg := ⟨0x10700400 + 0x8 * n, 0x0⟩
/-! spec/13_keys_and_cipher.md -/
def KEY_CFG : Reg := ⟨0x10800000, 0x0⟩
def KEY_STATUS : Reg := ⟨0x10800004, 0x0⟩
def KEY_SLOT_SEL : Reg := ⟨0x10800008, 0x0⟩
def KEY_SLOT_INFO : Reg := ⟨0x1080000c, 0x0⟩
def KEY_CMD : Reg := ⟨0x10800010, 0x0⟩
def KEY_CMD_STATUS : Reg := ⟨0x10800014, 0x0⟩
def KEY_SVC_ADDR : Reg := ⟨0x10800018, 0x0⟩
def KEY_SVC_CMD : Reg := ⟨0x1080001c, 0x0⟩
def KEY_SVC_STATUS : Reg := ⟨0x10800020, 0x0⟩
def KEY_INT_EN : Reg := ⟨0x10800024, 0x0⟩
def KEY_INT_STATUS : Reg := ⟨0x10800028, 0x0⟩
def KEY_CNT_HALF : Reg := ⟨0x1080002c, 0x0⟩
def KEY_CNT_OVER : Reg := ⟨0x10800030, 0x0⟩
def CIPH_CFG : Reg := ⟨0x10800034, 0x0⟩
def CIPH_STATUS : Reg := ⟨0x10800038, 0x0⟩
def KEY_CNT (i : Nat) : Reg := ⟨0x10800040 + 0x4 * i, 0x0⟩
def KEY_SLOT_ATTR : Reg := ⟨0x10800080, 0x0⟩
def KEY_XPORT : Reg := ⟨0x108000a0, 0x0⟩
def KEY_PUB : Reg := ⟨0x108000c0, 0x0⟩
def KEY_REPL_BUF : Reg := ⟨0x10800100, 0x0⟩
def KEY_MSEC_CFG (p : Nat) : Reg := ⟨0x10800200 + 0x20 * p, 0xc⟩
def KEY_MSEC_PEER (p : Nat) : Reg := ⟨0x10800204 + 0x20 * p, 0x0⟩
def KEY_MSEC_SCI (p : Nat) : Reg := ⟨0x10800208 + 0x20 * p, 0x0⟩
def KEY_MSEC_RX_SCI (p : Nat) : Reg := ⟨0x10800210 + 0x20 * p, 0x0⟩
def KEY_MSEC_STATUS (p : Nat) : Reg := ⟨0x10800218 + 0x20 * p, 0x0⟩
/-! spec/14_record_chain.md -/
def SEAL_CFG : Reg := ⟨0x10900000, 0x0⟩
def SEAL_TIMING : Reg := ⟨0x10900004, 0x0⟩
def SEAL_STORE_CFG : Reg := ⟨0x10900008, 0x0⟩
def SEAL_STATUS : Reg := ⟨0x1090000c, 0x0⟩
def SEAL_NEXT_SEQ : Reg := ⟨0x10900010, 0x1⟩
def SEAL_LAST_SEALED : Reg := ⟨0x10900018, 0x0⟩
def SEAL_APPEND : Reg := ⟨0x10900020, 0x0⟩
def SEAL_APPEND_SLOT : Reg := ⟨0x10900024, 0x0⟩
def SEAL_ACK_PAGE : Reg := ⟨0x10900028, 0x0⟩
def SEAL_BUF_LEVEL : Reg := ⟨0x1090002c, 0x0⟩
def SEAL_FREE_BLOCKS : Reg := ⟨0x10900030, 0x0⟩
def SEAL_MIRROR : Reg := ⟨0x10900034, 0x0⟩
def SEAL_MIRROR_DA : Reg := ⟨0x10900038, 0x0⟩
def SEAL_HEAD : Reg := ⟨0x10900040, 0x0⟩
def SEAL_MIRROR_SA : Reg := ⟨0x10900080, 0x0⟩
def SEAL_CNT (i : Nat) : Reg := ⟨0x10900100 + 0x8 * i, 0x0⟩
/-! spec/15_resets_power_faults.md -/
def SYS_RESET_CAUSE : Reg := ⟨0x10000100, 0x0⟩
def SYS_BOOT_COUNT : Reg := ⟨0x10000104, 0x0⟩
def SYS_RESET_REQ : Reg := ⟨0x10000108, 0x0⟩
def SYS_PWR_CTRL : Reg := ⟨0x1000010c, 0x0⟩
def SYS_PWR_CFG : Reg := ⟨0x10000110, 0x0⟩
def SYS_PWR_STATUS : Reg := ⟨0x10000114, 0x0⟩
def SYS_WAKE_EN : Reg := ⟨0x10000118, 0x0⟩
def SYS_WAKE_POL : Reg := ⟨0x1000011c, 0x0⟩
def SYS_WAKE_SRC : Reg := ⟨0x10000120, 0x0⟩
def FLT_WDOG_CFG : Reg := ⟨0x10b00000, 0x3e7⟩
def FLT_WDOG_KICK : Reg := ⟨0x10b00004, 0x0⟩
def FLT_WDOG_STATUS : Reg := ⟨0x10b00008, 0x0⟩
def FLT_THERM_CFG : Reg := ⟨0x10b0000c, 0x6469⟩
def FLT_THERM_STATUS : Reg := ⟨0x10b00010, 0x0⟩
def FLT_LAST_FAULT : Reg := ⟨0x10b00014, 0x0⟩
def FLT_LAST_FAULT_HOOP : Reg := ⟨0x10b00018, 0x0⟩
def FLT_INT_EN : Reg := ⟨0x10b0001c, 0x0⟩
def FLT_INT_STATUS : Reg := ⟨0x10b00020, 0x0⟩
def FLT_CNT_HALF : Reg := ⟨0x10b00024, 0x0⟩
def FLT_CNT_OVER : Reg := ⟨0x10b00028, 0x0⟩
def FLT_SBE (m : Nat) : Reg := ⟨0x10b00100 + 0x4 * m, 0x0⟩
def FLT_DBE (m : Nat) : Reg := ⟨0x10b00140 + 0x4 * m, 0x0⟩
/-! spec/16_eyelet_and_register_map.md -/
def SYS_SP_RX_BASE (r : Nat) : Reg := ⟨0x10000200 + 0x10 * r, 0x0⟩
def SYS_SP_RX_CFG (r : Nat) : Reg := ⟨0x10000204 + 0x10 * r, 0x6⟩
def SYS_SP_RX_WR (r : Nat) : Reg := ⟨0x10000208 + 0x10 * r, 0x0⟩
def SYS_SP_RX_RD (r : Nat) : Reg := ⟨0x1000020c + 0x10 * r, 0x0⟩
def SYS_SP_MAP : Reg := ⟨0x10000240, 0x0⟩
def SYS_SP_TX_BASE : Reg := ⟨0x10000250, 0x0⟩
def SYS_SP_TX_SIZE : Reg := ⟨0x10000254, 0x4⟩
def SYS_SP_TX_HEAD : Reg := ⟨0x10000258, 0x0⟩
def SYS_SP_TX_TAIL : Reg := ⟨0x1000025c, 0x0⟩
def SYS_SP_INT_EN : Reg := ⟨0x10000260, 0x0⟩
def SYS_SP_INT_STATUS : Reg := ⟨0x10000264, 0x0⟩
def SYS_SP_CNT_HALF : Reg := ⟨0x10000268, 0x0⟩
def SYS_SP_CNT_OVER : Reg := ⟨0x1000026c, 0x0⟩
def SYS_SP_CNT (i : Nat) : Reg := ⟨0x10000280 + 0x4 * i, 0x0⟩
def SYS_CHIP_ID : Reg := ⟨0x10000000, 0xd048a1⟩
def SYS_EVT_BASE : Reg := ⟨0x10000010, 0x0⟩
def SYS_EVT_SIZE : Reg := ⟨0x10000014, 0x8⟩
def SYS_EVT_WR : Reg := ⟨0x10000018, 0x0⟩
def SYS_EVT_RD : Reg := ⟨0x1000001c, 0x0⟩
def SYS_EVT_LOST : Reg := ⟨0x10000020, 0x0⟩
def SYS_EVT_CTRL : Reg := ⟨0x10000024, 0x0⟩
def SYS_IRQ_STATUS : Reg := ⟨0x10000040, 0x0⟩
def SYS_IRQ_HOOP : Reg := ⟨0x10000048, 0x0⟩
def SYS_IRQ_ROUTE (c : Nat) : Reg := ⟨0x10000050 + 0x8 * c, 0x0⟩
def SYS_IRQ_EGR : Reg := ⟨0x10000070, 0x0⟩
def GPIO_IN : Reg := ⟨0x10c00000, 0x0⟩
def GPIO_SAMPLE : Reg := ⟨0x10c00004, 0x0⟩
def GPIO_OE : Reg := ⟨0x10c00008, 0x0⟩
def GPIO_OUT : Reg := ⟨0x10c0000c, 0x0⟩
def GPIO_OUT_NEXT : Reg := ⟨0x10c00010, 0x0⟩
def GPIO_OUT_MASK : Reg := ⟨0x10c00014, 0x0⟩
def GPIO_CHG : Reg := ⟨0x10c00018, 0x0⟩
def GPIO_INT_EN : Reg := ⟨0x10c0001c, 0x0⟩
def GPIO_INT_STATUS : Reg := ⟨0x10c00020, 0x0⟩
def EYE_CFG : Reg := ⟨0x10a00000, 0x0⟩
def EYE_UDP : Reg := ⟨0x10a00004, 0xc8d3c8d3⟩
def EYE_TEL : Reg := ⟨0x10a00008, 0x0⟩
def EYE_EVT_MASK : Reg := ⟨0x10a0000c, 0x0⟩
def EYE_LOCAL_MAC : Reg := ⟨0x10a00010, 0x0⟩
def EYE_HOST_MAC : Reg := ⟨0x10a00018, 0x0⟩
def EYE_LOCAL_IP : Reg := ⟨0x10a00020, 0x0⟩
def EYE_HOST_IP : Reg := ⟨0x10a00030, 0x0⟩
def EYE_STATUS : Reg := ⟨0x10a00040, 0x0⟩
def EYE_EPOCH : Reg := ⟨0x10a00044, 0x0⟩
def EYE_RX_SEQ : Reg := ⟨0x10a00048, 0x0⟩
def EYE_TX_SEQ : Reg := ⟨0x10a0004c, 0x0⟩
def EYE_INT_EN : Reg := ⟨0x10a00050, 0x0⟩
def EYE_INT_STATUS : Reg := ⟨0x10a00054, 0x0⟩
def EYE_CNT_HALF : Reg := ⟨0x10a00058, 0x0⟩
def EYE_CNT_OVER : Reg := ⟨0x10a0005c, 0x0⟩
def EYE_CNT (i : Nat) : Reg := ⟨0x10a00080 + 0x4 * i, 0x0⟩
def EYE_TEL_LIST (n : Nat) : Reg := ⟨0x10a00200 + 0x4 * n, 0x0⟩
/-! spec/15_resets_power_faults.md -/
def ETH_WAKE_PAT (p k : Nat) : Reg := ⟨0x10100700 + 0x1000 * p + 0x20 * k, 0x0⟩
def ETH_WAKE_CFG (p k : Nat) : Reg := ⟨0x10100710 + 0x1000 * p + 0x20 * k, 0x0⟩
def T1S_WAKE_PAT (p k : Nat) : Reg := ⟨0x10100200 + 0x1000 * p + 0x20 * k, 0x0⟩
def T1S_WAKE_CFG (p k : Nat) : Reg := ⟨0x10100210 + 0x1000 * p + 0x20 * k, 0x0⟩

end Rg

namespace Fl

def TIME_CTRL_STEP_ARM : Fld := ⟨0, 1⟩
def TIME_CTRL_FORCE_LOSS : Fld := ⟨1, 1⟩
def TIME_CTRL_PPS_IN_EN : Fld := ⟨2, 2⟩
def TIME_STATUS_TRUST : Fld := ⟨0, 2⟩
def TIME_STATUS_SLEWING : Fld := ⟨2, 1⟩
def TIME_STATUS_RATE_CLAMPED : Fld := ⟨3, 1⟩
def TIME_STATUS_GOOD_RUN : Fld := ⟨4, 5⟩
def TIME_RAW_RAW : Fld := ⟨0, 64⟩
def TIME_OFFSET_OFFSET : Fld := ⟨0, 64⟩
def TIME_OFFSET_FRAC_FRAC : Fld := ⟨0, 16⟩
def TIME_NOW_LT : Fld := ⟨0, 64⟩
def TIME_NOW_FRAC_FRAC : Fld := ⟨0, 16⟩
def TIME_NOW_HOOP_INDEX : Fld := ⟨0, 32⟩
def TIME_RATE_RATE : Fld := ⟨0, 32⟩
def TIME_SLEW_MAX_PPM : Fld := ⟨0, 9⟩
def TIME_ADJ_ADJ : Fld := ⟨0, 32⟩
def TIME_ADJ_REMAIN_REMAIN : Fld := ⟨0, 32⟩
def TIME_SERVO_OFFSET_OFFSET : Fld := ⟨0, 32⟩
def TIME_SYNC_CFG_LOG_INTERVAL : Fld := ⟨0, 4⟩
def TIME_SYNC_CFG_LOSS_THRESH : Fld := ⟨8, 8⟩
def TIME_HOLDOVER_MS_ELAPSED : Fld := ⟨0, 32⟩
def TIME_STEP_STEP : Fld := ⟨0, 64⟩
def TIME_PPS_IN_TS_LT : Fld := ⟨0, 64⟩
def TIME_PPS_IN_FRAC_FRAC : Fld := ⟨0, 16⟩
def TIME_PPS_IN_CNT_COUNT : Fld := ⟨0, 32⟩
def TIME_PPS_OUT_CFG_SRC : Fld := ⟨0, 2⟩
def TIME_PPS_OUT_CFG_WIDTH : Fld := ⟨2, 8⟩
def TIME_TSQ_REC_RECORD : Fld := ⟨0, 128⟩
def TIME_TSQ_LEVEL_LEVEL : Fld := ⟨0, 7⟩
def TIME_TSQ_POP_POP : Fld := ⟨0, 1⟩
def TIME_CAL_TX_CAL : Fld := ⟨0, 32⟩
def TIME_CAL_RX_CAL : Fld := ⟨0, 32⟩
def TIME_PTP_CFG_ENABLE : Fld := ⟨0, 1⟩
def TIME_PTP_CFG_MODE : Fld := ⟨1, 2⟩
def TIME_PTP_CFG_ONE_STEP : Fld := ⟨3, 1⟩
def TIME_PTP_CFG_RELAY : Fld := ⟨4, 1⟩
def TIME_TSQ_OVF_COUNT : Fld := ⟨0, 32⟩
def HOOP_PERIOD_PERIOD : Fld := ⟨0, 10⟩
def HOOP_PHASE_PHASE : Fld := ⟨0, 20⟩
def HOOP_REPEAT_REPEAT : Fld := ⟨0, 13⟩
def HOOP_SWAP_DELAY_DELAY : Fld := ⟨0, 14⟩
def HOOP_INDEX_INDEX : Fld := ⟨0, 32⟩
def HOOP_POS_POS : Fld := ⟨0, 12⟩
def HOOP_COUNT_COUNT : Fld := ⟨0, 64⟩
def HOOP_LAST_B_B : Fld := ⟨0, 64⟩
def HOOP_BUDGET_CYCLES : Fld := ⟨0, 24⟩
def HOOP_CARRY_COUNT : Fld := ⟨0, 32⟩
def IMG_STATUS_ACTIVE_SLOT : Fld := ⟨0, 1⟩
def IMG_STATUS_METRO_VALID : Fld := ⟨1, 1⟩
def IMG_STATUS_LOCKED : Fld := ⟨2, 1⟩
def IMG_STATUS_FALLBACK : Fld := ⟨3, 1⟩
def IMG_STATUS_DEBUG_UNLOCKED : Fld := ⟨4, 1⟩
def IMG_SLOT_RESULT_TRIED : Fld := ⟨0, 1⟩
def IMG_SLOT_RESULT_USED : Fld := ⟨1, 1⟩
def IMG_SLOT_RESULT_SECTION : Fld := ⟨2, 2⟩
def IMG_SLOT_RESULT_CAUSE : Fld := ⟨4, 6⟩
def IMG_SLOT_RESULT_RECORD : Fld := ⟨10, 22⟩
def IMG_ACTIVE_VERSION_VERSION : Fld := ⟨0, 32⟩
def IMG_NODE_NODE : Fld := ⟨0, 16⟩
def IMG_NODE_OTP_LOCK : Fld := ⟨16, 1⟩
def IMG_LIFECYCLE_STATE : Fld := ⟨0, 3⟩
def IMG_ROLLBACK_FLOOR : Fld := ⟨0, 8⟩
def IMG_ROLLBACK_EPOCH : Fld := ⟨8, 8⟩
def IMG_EPOCH_COMMIT_COMMIT : Fld := ⟨0, 1⟩
def IMG_UID_UID : Fld := ⟨0, 128⟩
def IMG_DBG_NONCE_NONCE : Fld := ⟨0, 128⟩
def IMG_STAGE_CTRL_CMD : Fld := ⟨0, 2⟩
def IMG_STAGE_ADDR_ADDR : Fld := ⟨0, 24⟩
def IMG_STAGE_STATUS_BUSY : Fld := ⟨0, 1⟩
def IMG_STAGE_STATUS_REFUSED : Fld := ⟨1, 1⟩
def IMG_STAGE_STATUS_CHECK_DONE : Fld := ⟨2, 1⟩
def IMG_STAGE_STATUS_CHECK_PASS : Fld := ⟨3, 1⟩
def IMG_STAGE_STATUS_CHECK_CAUSE : Fld := ⟨4, 6⟩
def IMG_STAGE_STATUS_CHECK_SECTION : Fld := ⟨10, 2⟩
def IMG_DIGEST_DIGEST : Fld := ⟨0, 512⟩
def IMG_STAGE_BUF_DATA : Fld := ⟨0, 2048⟩
def ETH_CFG_ENABLE : Fld := ⟨0, 1⟩
def ETH_CFG_MODE : Fld := ⟨1, 2⟩
def ETH_CFG_FEC : Fld := ⟨3, 2⟩
def ETH_CFG_MAX_FRAME : Fld := ⟨5, 14⟩
def ETH_STATUS_LINK : Fld := ⟨0, 1⟩
def ETH_STATUS_PCS_LOCK : Fld := ⟨1, 1⟩
def ETH_STATUS_HI_BER : Fld := ⟨2, 1⟩
def ETH_STATUS_AM_LOCK : Fld := ⟨3, 1⟩
def ETH_STATUS_ADAPTING : Fld := ⟨4, 1⟩
def ETH_SERDES_TX_PRE : Fld := ⟨0, 4⟩
def ETH_SERDES_TX_MAIN : Fld := ⟨4, 6⟩
def ETH_SERDES_TX_POST : Fld := ⟨10, 5⟩
def ETH_SERDES_RX_CTLE : Fld := ⟨0, 5⟩
def ETH_SERDES_RX_DFE1 : Fld := ⟨5, 6⟩
def ETH_SERDES_RX_ADAPT : Fld := ⟨11, 1⟩
def ETH_ADAPT_RESULT_CTLE : Fld := ⟨0, 5⟩
def ETH_ADAPT_RESULT_DFE1 : Fld := ⟨5, 6⟩
def ETH_ADAPT_RESULT_RUNS : Fld := ⟨16, 16⟩
def ETH_TX_THRESH_FLOOR : Fld := ⟨0, 14⟩
def ETH_TX_THRESH_CURRENT : Fld := ⟨16, 14⟩
def ETH_FC_CFG_PAUSE_EN : Fld := ⟨0, 1⟩
def ETH_FC_CFG_PFC_EN : Fld := ⟨8, 8⟩
def ETH_PAUSE_WDOG_HOOPS : Fld := ⟨0, 16⟩
def ETH_FC_STATUS_PORT_PAUSED : Fld := ⟨0, 1⟩
def ETH_FC_STATUS_CLASS_PAUSED : Fld := ⟨8, 8⟩
def ETH_FC_STATUS_IGNORING : Fld := ⟨16, 8⟩
def ETH_FC_STATUS_IGNORING_PAUSE : Fld := ⟨24, 1⟩
def ETH_CLASS_MAP_PCP_MAP : Fld := ⟨0, 24⟩
def ETH_CLASS_MAP_UNTAGGED_CLASS : Fld := ⟨24, 3⟩
def ETH_PHY_ADDR : Fld := ⟨0, 5⟩
def ETH_PHY_CLAUSE : Fld := ⟨5, 1⟩
def ETH_MDIO_CMD_REG : Fld := ⟨0, 16⟩
def ETH_MDIO_CMD_DEVICE : Fld := ⟨16, 5⟩
def ETH_MDIO_CMD_START : Fld := ⟨31, 1⟩
def ETH_MDIO_DATA_DATA : Fld := ⟨0, 16⟩
def ETH_MDIO_DATA_BUSY : Fld := ⟨16, 1⟩
def ETH_MDIO_DATA_DONE : Fld := ⟨17, 1⟩
def ETH_INT_EN_EN : Fld := ⟨0, 6⟩
def ETH_INT_STATUS_LINK_CHANGE : Fld := ⟨0, 1⟩
def ETH_INT_STATUS_CNT_HALF : Fld := ⟨1, 1⟩
def ETH_INT_STATUS_CNT_OVER : Fld := ⟨2, 1⟩
def ETH_INT_STATUS_UNDERRUN : Fld := ⟨3, 1⟩
def ETH_INT_STATUS_PAUSE_BROKEN : Fld := ⟨4, 1⟩
def ETH_INT_STATUS_MDIO_DONE : Fld := ⟨5, 1⟩
def ETH_CNT_HALF_HALF : Fld := ⟨0, 48⟩
def ETH_CNT_OVER_OVER : Fld := ⟨0, 48⟩
def ETH_FEC_CORR_COUNT : Fld := ⟨0, 32⟩
def ETH_FEC_UNCORR_COUNT : Fld := ⟨0, 32⟩
def ETH_TX_TOO_LONG_COUNT : Fld := ⟨0, 32⟩
def ETH_TX_LINK_DROP_COUNT : Fld := ⟨0, 32⟩
def ETH_LINK_DOWNS_COUNT : Fld := ⟨0, 32⟩
def ETH_CNT_COUNT : Fld := ⟨0, 32⟩
def ETH_CNT_SNAP_COUNT : Fld := ⟨0, 32⟩
def ETH_STEER_MATCH_VID : Fld := ⟨0, 12⟩
def ETH_STEER_MATCH_PCP : Fld := ⟨12, 3⟩
def ETH_STEER_MATCH_ETYPE : Fld := ⟨16, 16⟩
def ETH_STEER_MASK_VID_MASK : Fld := ⟨0, 12⟩
def ETH_STEER_MASK_PCP_MASK : Fld := ⟨12, 3⟩
def ETH_STEER_MASK_ETYPE_MASK : Fld := ⟨16, 16⟩
def ETH_STEER_ACT_VALID : Fld := ⟨0, 1⟩
def ETH_STEER_ACT_TAG_MODE : Fld := ⟨1, 2⟩
def ETH_STEER_ACT_ACTION : Fld := ⟨3, 2⟩
def ETH_STEER_ACT_CLASS : Fld := ⟨5, 3⟩
def ETH_STEER_ACT_MQ : Fld := ⟨8, 2⟩
def ETH_STEER_HITS_COUNT : Fld := ⟨0, 32⟩
def CAN_CFG_MODE : Fld := ⟨0, 2⟩
def CAN_CFG_FD_EN : Fld := ⟨2, 1⟩
def CAN_CFG_XL_EN : Fld := ⟨3, 1⟩
def CAN_CFG_TRIPLE : Fld := ⟨4, 1⟩
def CAN_CFG_AUTO_RECOVER : Fld := ⟨5, 1⟩
def CAN_CFG_XL_TMS : Fld := ⟨6, 1⟩
def CAN_CFG_FD_PAD : Fld := ⟨8, 8⟩
def CAN_STATUS_STATE : Fld := ⟨0, 2⟩
def CAN_STATUS_TEC : Fld := ⟨2, 8⟩
def CAN_STATUS_REC : Fld := ⟨10, 8⟩
def CAN_STATUS_IDLE : Fld := ⟨18, 1⟩
def CAN_NBT_NBRP : Fld := ⟨0, 9⟩
def CAN_NBT_NTSEG1 : Fld := ⟨9, 9⟩
def CAN_NBT_NTSEG2 : Fld := ⟨18, 7⟩
def CAN_NBT_NSJW : Fld := ⟨25, 7⟩
def CAN_DBT_DBRP : Fld := ⟨0, 6⟩
def CAN_DBT_DTSEG1 : Fld := ⟨6, 6⟩
def CAN_DBT_DTSEG2 : Fld := ⟨12, 5⟩
def CAN_DBT_DSJW : Fld := ⟨17, 5⟩
def CAN_XBT_XBRP : Fld := ⟨0, 6⟩
def CAN_XBT_XTSEG1 : Fld := ⟨6, 7⟩
def CAN_XBT_XTSEG2 : Fld := ⟨13, 6⟩
def CAN_XBT_XSJW : Fld := ⟨19, 6⟩
def CAN_TDC_TDC_EN : Fld := ⟨0, 1⟩
def CAN_TDC_XTDC_EN : Fld := ⟨1, 1⟩
def CAN_TDC_TDCO : Fld := ⟨2, 7⟩
def CAN_TDC_TDCF : Fld := ⟨9, 7⟩
def CAN_TDC_TDCV : Fld := ⟨16, 7⟩
def CAN_PWM_PWMS : Fld := ⟨0, 6⟩
def CAN_PWM_PWML : Fld := ⟨6, 6⟩
def CAN_PWM_PWMO : Fld := ⟨12, 6⟩
def CAN_RECOVER_GO : Fld := ⟨0, 1⟩
def CAN_INT_EN_EN : Fld := ⟨0, 12⟩
def CAN_INT_STATUS_BUS_OFF : Fld := ⟨0, 1⟩
def CAN_INT_STATUS_ERROR_PASSIVE : Fld := ⟨1, 1⟩
def CAN_INT_STATUS_RECOVERED : Fld := ⟨2, 1⟩
def CAN_INT_STATUS_MFIFO_READY : Fld := ⟨3, 1⟩
def CAN_INT_STATUS_MFIFO_DROP : Fld := ⟨4, 1⟩
def CAN_INT_STATUS_MTX_DONE : Fld := ⟨5, 1⟩
def CAN_INT_STATUS_CNT_HALF : Fld := ⟨6, 1⟩
def CAN_INT_STATUS_CNT_OVER : Fld := ⟨7, 1⟩
def CAN_INT_STATUS_PRIO_NEW : Fld := ⟨8, 4⟩
def CAN_CNT_HALF_HALF : Fld := ⟨0, 28⟩
def CAN_CNT_OVER_OVER : Fld := ⟨0, 28⟩
def CAN_PRIO_CTRL_NEW : Fld := ⟨0, 1⟩
def CAN_PRIO_CTRL_READ_LOCK : Fld := ⟨1, 1⟩
def CAN_PRIO_CTRL_SHADOW_FULL : Fld := ⟨2, 1⟩
def CAN_PRIO_CTRL_RELEASE : Fld := ⟨3, 1⟩
def CAN_PRIO_CTRL_OVR : Fld := ⟨16, 8⟩
def CAN_MFIFO_LEVEL_LEVEL : Fld := ⟨0, 7⟩
def CAN_MFIFO_POP_POP : Fld := ⟨0, 1⟩
def CAN_MTX_CMD_BUF : Fld := ⟨0, 4⟩
def CAN_MTX_CMD_OP : Fld := ⟨4, 2⟩
def CAN_MTX_STATUS_STATE : Fld := ⟨0, 3⟩
def CAN_MTX_STATUS_CANCEL_HELD : Fld := ⟨3, 1⟩
def CAN_CNT_COUNT : Fld := ⟨0, 32⟩
def CAN_CNT_SNAP_COUNT : Fld := ⟨0, 32⟩
def CAN_PRIO_BUF_IMAGE : Fld := ⟨0, 640⟩
def CAN_MFIFO_HEAD_IMAGE : Fld := ⟨0, 640⟩
def CAN_AF_MATCH_AF : Fld := ⟨0, 32⟩
def CAN_AF_MASK_MASK : Fld := ⟨0, 32⟩
def CAN_MTX_STAGE_IMAGE : Fld := ⟨0, 640⟩
def CAN_FILT_ID_ID : Fld := ⟨0, 29⟩
def CAN_FILT_ID_IDE : Fld := ⟨29, 1⟩
def CAN_FILT_MASK_MASK : Fld := ⟨0, 29⟩
def CAN_FILT_XL_SDT : Fld := ⟨0, 8⟩
def CAN_FILT_XL_SDT_MASK : Fld := ⟨8, 8⟩
def CAN_FILT_XL_VCID : Fld := ⟨16, 8⟩
def CAN_FILT_XL_VCID_MASK : Fld := ⟨24, 8⟩
def CAN_FILT_ACT_VALID : Fld := ⟨0, 1⟩
def CAN_FILT_ACT_FORMATS : Fld := ⟨1, 3⟩
def CAN_FILT_ACT_TARGET : Fld := ⟨4, 3⟩
def CAN_FILT_ACT_AF_SEL : Fld := ⟨7, 4⟩
def CAN_FILT_ACT_WAKE : Fld := ⟨11, 1⟩
def CAN_FILT_ACT_CLASS : Fld := ⟨12, 3⟩
def T1S_CFG_ENABLE : Fld := ⟨0, 1⟩
def T1S_CFG_ROLE : Fld := ⟨1, 1⟩
def T1S_CFG_NODE_ID : Fld := ⟨2, 4⟩
def T1S_CFG_MAX_FRAME : Fld := ⟨6, 12⟩
def T1S_STATUS_PLCA_ACTIVE : Fld := ⟨0, 1⟩
def T1S_STATUS_FALLBACK : Fld := ⟨1, 1⟩
def T1S_PLCA_NODE_COUNT : Fld := ⟨0, 8⟩
def T1S_PLCA_TO_TIMER : Fld := ⟨8, 8⟩
def T1S_PLCA_MAX_BC : Fld := ⟨16, 8⟩
def T1S_PLCA_BURST_TIMER : Fld := ⟨24, 8⟩
def T1S_BEACON_BEACON_PERIOD : Fld := ⟨0, 16⟩
def T1S_MEMBER_CFG_STRANGER_ACT : Fld := ⟨0, 1⟩
def T1S_CLASS_MAP_MAP : Fld := ⟨0, 27⟩
def T1S_INT_EN_EN : Fld := ⟨0, 5⟩
def T1S_INT_STATUS_PLCA_COLLISION : Fld := ⟨0, 1⟩
def T1S_INT_STATUS_FALLBACK_CHANGE : Fld := ⟨1, 1⟩
def T1S_INT_STATUS_STRANGER : Fld := ⟨2, 1⟩
def T1S_INT_STATUS_CNT_HALF : Fld := ⟨3, 1⟩
def T1S_INT_STATUS_CNT_OVER : Fld := ⟨4, 1⟩
def T1S_CNT_HALF_HALF : Fld := ⟨0, 16⟩
def T1S_CNT_OVER_OVER : Fld := ⟨0, 16⟩
def T1S_MEMBER_MAC : Fld := ⟨0, 48⟩
def T1S_MEMBER_VALID : Fld := ⟨48, 1⟩
def T1S_CNT_COUNT : Fld := ⟨0, 32⟩
def T1S_CNT_SNAP_COUNT : Fld := ⟨0, 32⟩
def PARSE_CFG_DEPTH_MAX : Fld := ⟨0, 5⟩
def PARSE_CFG_BYTES_MAX : Fld := ⟨8, 9⟩
def PARSE_CFG_INIT_BANK : Fld := ⟨20, 1⟩
def PARSE_BANK_CTRL_CMD : Fld := ⟨0, 2⟩
def PARSE_BANK_STATUS_ACTIVE : Fld := ⟨0, 1⟩
def PARSE_BANK_STATUS_STATE : Fld := ⟨1, 2⟩
def PARSE_BANK_STATUS_VALIDATED : Fld := ⟨3, 1⟩
def PARSE_BANK_STATUS_VAL_BUSY : Fld := ⟨4, 1⟩
def PARSE_BANK_STATUS_VAL_FAIL : Fld := ⟨5, 1⟩
def PARSE_BANK_STATUS_VAL_CAUSE : Fld := ⟨6, 4⟩
def PARSE_BANK_STATUS_VAL_NODE : Fld := ⟨10, 6⟩
def PARSE_BANK_STATUS_REFUSED : Fld := ⟨16, 1⟩
def PARSE_BANK_STATUS_DRAIN_LEFT : Fld := ⟨24, 8⟩
def PARSE_SWAP_HOOP_INDEX : Fld := ⟨0, 32⟩
def PARSE_AKZOR_CFG_ETYPE : Fld := ⟨0, 16⟩
def PARSE_INT_EN_EN : Fld := ⟨0, 4⟩
def PARSE_INT_STATUS_SWAPPED : Fld := ⟨0, 1⟩
def PARSE_INT_STATUS_VAL_DONE : Fld := ⟨1, 1⟩
def PARSE_INT_STATUS_CNT_HALF : Fld := ⟨2, 1⟩
def PARSE_INT_STATUS_CNT_OVER : Fld := ⟨3, 1⟩
def PARSE_CNT_COUNT : Fld := ⟨0, 32⟩
def PARSE_CNT_HALF_HALF : Fld := ⟨0, 12⟩
def PARSE_CNT_OVER_OVER : Fld := ⟨0, 12⟩
def TBL_DMA_BASE_ADDR : Fld := ⟨4, 20⟩
def TBL_DMA_SIZE_LOG2 : Fld := ⟨0, 4⟩
def TBL_DMA_HEAD_HEAD : Fld := ⟨0, 12⟩
def TBL_DMA_TAIL_TAIL : Fld := ⟨0, 12⟩
def TBL_STATUS_LEARN_LEVEL : Fld := ⟨0, 10⟩
def TBL_STATUS_LOCKS : Fld := ⟨10, 7⟩
def TBL_STATUS_DMA_IDLE : Fld := ⟨17, 1⟩
def TBL_INT_EN_EN : Fld := ⟨0, 6⟩
def TBL_INT_STATUS_DMA_IRQ : Fld := ⟨0, 1⟩
def TBL_INT_STATUS_REHASH : Fld := ⟨1, 1⟩
def TBL_INT_STATUS_LOCK_EXPIRED : Fld := ⟨2, 1⟩
def TBL_INT_STATUS_COMMITTED : Fld := ⟨3, 1⟩
def TBL_INT_STATUS_CNT_HALF : Fld := ⟨4, 1⟩
def TBL_INT_STATUS_CNT_OVER : Fld := ⟨5, 1⟩
def TBL_NODE_CFG_HOPS_M1 : Fld := ⟨0, 8⟩
def TBL_AKZOR_DA_MAC : Fld := ⟨0, 48⟩
def TBL_AKZOR_SA_MAC : Fld := ⟨0, 48⟩
def TBL_CFG_SIZE : Fld := ⟨0, 17⟩
def TBL_CFG_SINGLE : Fld := ⟨17, 1⟩
def TBL_AGE_HOOPS : Fld := ⟨0, 24⟩
def TBL_SEED_INIT_SEEDS : Fld := ⟨0, 64⟩
def TBL_SEED_SEEDS : Fld := ⟨0, 64⟩
def TBL_SEED_STBY_SEEDS : Fld := ⟨0, 64⟩
def TBL_BANK_CTRL_CMD : Fld := ⟨0, 2⟩
def TBL_BANK_STATUS_ACTIVE : Fld := ⟨0, 1⟩
def TBL_BANK_STATUS_STATE : Fld := ⟨1, 2⟩
def TBL_BANK_STATUS_REFUSED : Fld := ⟨3, 1⟩
def TBL_BANK_STATUS_WRITTEN : Fld := ⟨4, 16⟩
def TBL_ENTRIES_COUNT : Fld := ⟨0, 18⟩
def TBL_FAIL_VALID : Fld := ⟨0, 1⟩
def TBL_FAIL_PORT : Fld := ⟨1, 6⟩
def TBL_FAIL_COUNT : Fld := ⟨8, 8⟩
def TBL_FAIL_KEY_ENTRY : Fld := ⟨0, 512⟩
def TBL_PORT_CFG_LEARN : Fld := ⟨0, 1⟩
def TBL_PORT_CFG_DEFAULT_ACT : Fld := ⟨1, 17⟩
def TBL_CNT_COUNT : Fld := ⟨0, 32⟩
def TBL_CNT_HALF_HALF : Fld := ⟨0, 13⟩
def TBL_CNT_OVER_OVER : Fld := ⟨0, 13⟩
def TBL_VLAN_FLOOD_GROUP : Fld := ⟨0, 12⟩
def TBL_VLAN_VALID : Fld := ⟨12, 1⟩
def TBL_VLAN_FLOOD_ACT : Fld := ⟨13, 17⟩
def BUF_RESERVE_MGMT : Fld := ⟨0, 5⟩
def BUF_RESERVE_RECIRC : Fld := ⟨5, 5⟩
def BUF_RESERVE_EMIT : Fld := ⟨10, 5⟩
def BUF_POOL_FREE_FREE : Fld := ⟨0, 17⟩
def BUF_INT_EN_EN : Fld := ⟨0, 5⟩
def BUF_INT_STATUS_RESEQ_SKIP : Fld := ⟨0, 1⟩
def BUF_INT_STATUS_ECC : Fld := ⟨1, 1⟩
def BUF_INT_STATUS_CNT_HALF : Fld := ⟨2, 1⟩
def BUF_INT_STATUS_CNT_OVER : Fld := ⟨3, 1⟩
def BUF_INT_STATUS_MC_DONE : Fld := ⟨4, 1⟩
def BUF_MC_MASK_MASK : Fld := ⟨0, 64⟩
def BUF_MC_CMD_GROUP : Fld := ⟨0, 12⟩
def BUF_MC_CMD_OP : Fld := ⟨12, 2⟩
def BUF_MC_STATUS_BUSY : Fld := ⟨0, 1⟩
def BUF_MC_STATUS_DONE : Fld := ⟨1, 1⟩
def GND_CNT_COUNT : Fld := ⟨0, 32⟩
def GND_CNT_HALF_HALF : Fld := ⟨0, 8⟩
def GND_CNT_OVER_OVER : Fld := ⟨0, 8⟩
def GND_IQ_LEVEL_LEVEL : Fld := ⟨0, 7⟩
def BUF_WRED_THR_MIN : Fld := ⟨0, 16⟩
def BUF_WRED_THR_MAX : Fld := ⟨16, 16⟩
def BUF_WRED_P_MAXP : Fld := ⟨0, 9⟩
def BUF_WRED_P_W : Fld := ⟨9, 4⟩
def BUF_LIMIT_LIMIT : Fld := ⟨0, 17⟩
def BUF_QCFG_WRED_G : Fld := ⟨0, 1⟩
def BUF_QCFG_WRED_Y : Fld := ⟨1, 1⟩
def BUF_QCFG_PROF_G : Fld := ⟨2, 4⟩
def BUF_QCFG_PROF_Y : Fld := ⟨6, 4⟩
def BUF_OCC_OCC : Fld := ⟨0, 17⟩
def BUF_AVG_AVG : Fld := ⟨0, 25⟩
def BUF_QCNT_COUNT : Fld := ⟨0, 32⟩
def BUF_QCNT_HALF_HALF : Fld := ⟨0, 64⟩
def BUF_QCNT_OVER_OVER : Fld := ⟨0, 64⟩
def EGR_SCHED_STRICT : Fld := ⟨0, 3⟩
def EGR_SCHED_OVERHEAD : Fld := ⟨3, 6⟩
def EGR_LAUNCH_LATE_MAX : Fld := ⟨0, 20⟩
def EGR_LAUNCH_POLICY : Fld := ⟨20, 1⟩
def EGR_GATE_CFG_LEN : Fld := ⟨0, 9⟩
def EGR_GATE_CTRL_TEST : Fld := ⟨0, 1⟩
def EGR_GATE_STATUS_MODE : Fld := ⟨0, 1⟩
def EGR_GATE_STATUS_TEST_ACTIVE : Fld := ⟨1, 1⟩
def EGR_GATE_STATUS_FAULT : Fld := ⟨2, 1⟩
def EGR_GATE_STATUS_FATAL : Fld := ⟨3, 1⟩
def EGR_GATE_STATUS_ENTRY : Fld := ⟨4, 8⟩
def EGR_GATE_STATUS_STATES : Fld := ⟨12, 8⟩
def EGR_PSHAPE_RATE_RATE : Fld := ⟨0, 27⟩
def EGR_PSHAPE_BURST_BURST : Fld := ⟨0, 24⟩
def EGR_PSHAPE_BURST_EN : Fld := ⟨31, 1⟩
def EGR_PSHAPE_TOKENS_TOKENS : Fld := ⟨0, 32⟩
def EGR_INT_EN_EN : Fld := ⟨0, 5⟩
def EGR_INT_STATUS_MODE_CHANGE : Fld := ⟨0, 1⟩
def EGR_INT_STATUS_GATE_ECC : Fld := ⟨1, 1⟩
def EGR_INT_STATUS_LATE : Fld := ⟨2, 1⟩
def EGR_INT_STATUS_CNT_HALF : Fld := ⟨3, 1⟩
def EGR_INT_STATUS_CNT_OVER : Fld := ⟨4, 1⟩
def EGR_CNT_HALF_HALF : Fld := ⟨0, 4⟩
def EGR_CNT_OVER_OVER : Fld := ⟨0, 4⟩
def EGR_QUANTUM_QUANTUM : Fld := ⟨0, 20⟩
def EGR_DWRR_BURST_BURST : Fld := ⟨0, 20⟩
def EGR_QSHAPE_RATE_RATE : Fld := ⟨0, 27⟩
def EGR_QSHAPE_BURST_BURST : Fld := ⟨0, 24⟩
def EGR_QSHAPE_BURST_EN : Fld := ⟨31, 1⟩
def EGR_DEFICIT_DEFICIT : Fld := ⟨0, 21⟩
def EGR_QSHAPE_TOKENS_TOKENS : Fld := ⟨0, 32⟩
def EGR_QCTRL_SAMPLE_EN : Fld := ⟨0, 1⟩
def EGR_GATE_WMAX_WMAX : Fld := ⟨0, 32⟩
def EGR_CNT_COUNT : Fld := ⟨0, 32⟩
def EGR_SAMPLE_BASE_ADDR : Fld := ⟨4, 20⟩
def EGR_SAMPLE_SIZE_LOG2 : Fld := ⟨0, 5⟩
def EGR_SAMPLE_WR_WR : Fld := ⟨0, 16⟩
def EGR_SAMPLE_RD_RD : Fld := ⟨0, 16⟩
def EGR_SAMPLE_LOST_COUNT : Fld := ⟨0, 32⟩
def BUF_POL_CIR_CIR : Fld := ⟨0, 27⟩
def BUF_POL_CBS_CBS : Fld := ⟨0, 24⟩
def BUF_POL_PIR_PIR : Fld := ⟨0, 27⟩
def BUF_POL_PBS_PBS : Fld := ⟨0, 24⟩
def BUF_POL_CMD_INDEX : Fld := ⟨0, 14⟩
def BUF_POL_CMD_OP : Fld := ⟨14, 2⟩
def BUF_POL_CMD_ENABLE : Fld := ⟨16, 1⟩
def BUF_POL_STATUS_BUSY : Fld := ⟨0, 1⟩
def BUF_POL_STATUS_DONE : Fld := ⟨1, 1⟩
def BUF_POL_STATUS_ENABLE : Fld := ⟨2, 1⟩
def BUF_POL_STATUS_REFUSED : Fld := ⟨3, 1⟩
def BUF_POL_TC_TC : Fld := ⟨0, 32⟩
def BUF_POL_TP_TP : Fld := ⟨0, 32⟩
def BOB_CFG_SAFE_AFTER : Fld := ⟨0, 8⟩
def BOB_EMIT_LEAD_LEAD : Fld := ⟨0, 20⟩
def BOB_EMIT_OFFSET_OFFSET : Fld := ⟨0, 20⟩
def BOB_INT_EN_EN : Fld := ⟨0, 8⟩
def BOB_INT_STATUS_OVERRUN : Fld := ⟨0, 1⟩
def BOB_INT_STATUS_MODE_CHANGE : Fld := ⟨1, 1⟩
def BOB_INT_STATUS_HALTED : Fld := ⟨2, 1⟩
def BOB_INT_STATUS_SIGW_DONE : Fld := ⟨3, 1⟩
def BOB_INT_STATUS_CNT_HALF : Fld := ⟨4, 1⟩
def BOB_INT_STATUS_CNT_OVER : Fld := ⟨5, 1⟩
def BOB_INT_STATUS_CAPTURE_LATE : Fld := ⟨6, 1⟩
def BOB_INT_STATUS_UPDATE_REJECTED : Fld := ⟨7, 1⟩
def BOB_CNT_HALF_HALF : Fld := ⟨0, 11⟩
def BOB_CNT_OVER_OVER : Fld := ⟨0, 11⟩
def BOB_SIGW_INDEX_SIG : Fld := ⟨0, 16⟩
def BOB_SIGW_INDEX_INVALIDATE : Fld := ⟨16, 1⟩
def BOB_SIGW_VALUE_VALUE : Fld := ⟨0, 64⟩
def BOB_SIGW_CMD_GO : Fld := ⟨0, 1⟩
def BOB_SIGW_STATUS_BUSY : Fld := ⟨0, 1⟩
def BOB_SIGW_STATUS_DONE : Fld := ⟨1, 1⟩
def BOB_SIGW_STATUS_REFUSED : Fld := ⟨2, 1⟩
def BOB_PRIV_ADDR_OFFSET : Fld := ⟨0, 16⟩
def BOB_PRIV_ADDR_BOBBIN : Fld := ⟨16, 4⟩
def BOB_PRIV_DATA_DATA : Fld := ⟨0, 64⟩
def BOB_PRIV_CMD_OP : Fld := ⟨0, 2⟩
def BOB_PRIV_STATUS_BUSY : Fld := ⟨0, 1⟩
def BOB_PRIV_STATUS_DONE : Fld := ⟨1, 1⟩
def BOB_CNT_COUNT : Fld := ⟨0, 32⟩
def BOB_BUDGET_CYCLES : Fld := ⟨0, 24⟩
def BOB_EMIT_MAX_RECORDS : Fld := ⟨0, 12⟩
def BOB_STATUS_STATE : Fld := ⟨0, 2⟩
def BOB_STATUS_MODE : Fld := ⟨2, 2⟩
def BOB_STATUS_CONSEC : Fld := ⟨4, 8⟩
def BOB_STATUS_RECORDS : Fld := ⟨12, 12⟩
def BOB_CYCLES_LAST_CYCLES : Fld := ⟨0, 24⟩
def BOB_CYCLES_MAX_CYCLES : Fld := ⟨0, 24⟩
def BOB_BCNT_COUNT : Fld := ⟨0, 32⟩
def BOB_BCNT_HALF_HALF : Fld := ⟨0, 4⟩
def BOB_BCNT_OVER_OVER : Fld := ⟨0, 4⟩
def BOB_CMAP_SIG : Fld := ⟨0, 16⟩
def BOB_CMAP_OFFSET : Fld := ⟨16, 11⟩
def BOB_CMAP_WIDTH : Fld := ⟨27, 4⟩
def BOB_CMAP_FORMAT : Fld := ⟨32, 3⟩
def BOB_CMAP_ANCHOR : Fld := ⟨35, 2⟩
def BOB_CMAP_PORT_REL : Fld := ⟨37, 1⟩
def BOB_CMAP_VALID : Fld := ⟨63, 1⟩
def BRG_CFG_ENABLE : Fld := ⟨0, 1⟩
def BRG_CFG_REQ_CLASS : Fld := ⟨1, 3⟩
def BRG_CFG_REPLY_CLASS : Fld := ⟨4, 3⟩
def BRG_CFG_UDP_PORT : Fld := ⟨16, 16⟩
def BRG_L2_ETYPE : Fld := ⟨0, 16⟩
def BRG_MAC_MAC : Fld := ⟨0, 48⟩
def BRG_COLLECT_TIMEOUT : Fld := ⟨0, 16⟩
def BRG_EVENT_INIT : Fld := ⟨0, 6⟩
def BRG_EVENT_EN : Fld := ⟨6, 1⟩
def BRG_SB_GPIO_SIG : Fld := ⟨0, 16⟩
def BRG_SB_GPIO_EN : Fld := ⟨16, 1⟩
def BRG_SB_GPIO_EVENT : Fld := ⟨17, 1⟩
def BRG_POLL_CFG_EN : Fld := ⟨0, 1⟩
def BRG_POLL_CFG_LEN_M1 : Fld := ⟨1, 6⟩
def BRG_POLL_CFG_HOOPS_M1 : Fld := ⟨7, 12⟩
def BRG_STATUS_SLOTS_USED : Fld := ⟨0, 9⟩
def BRG_STATUS_STALL : Fld := ⟨9, 1⟩
def BRG_INT_EN_EN : Fld := ⟨0, 5⟩
def BRG_INT_STATUS_WRITE_FAIL : Fld := ⟨0, 1⟩
def BRG_INT_STATUS_SIDE_EFFECT_LOST : Fld := ⟨1, 1⟩
def BRG_INT_STATUS_AUTH_FAIL : Fld := ⟨2, 1⟩
def BRG_INT_STATUS_CNT_HALF : Fld := ⟨3, 1⟩
def BRG_INT_STATUS_CNT_OVER : Fld := ⟨4, 1⟩
def BRG_CNT_HALF_HALF : Fld := ⟨0, 16⟩
def BRG_CNT_OVER_OVER : Fld := ⟨0, 16⟩
def BRG_PORT_CFG_SDT : Fld := ⟨0, 8⟩
def BRG_PORT_CFG_VCID : Fld := ⟨8, 8⟩
def BRG_PORT_CFG_EST_M1 : Fld := ⟨16, 8⟩
def BRG_CNT_COUNT : Fld := ⟨0, 32⟩
def BRG_INIT_VALID : Fld := ⟨0, 1⟩
def BRG_INIT_KEY_SLOT : Fld := ⟨1, 8⟩
def BRG_INIT_ERR_TEMPLATE : Fld := ⟨9, 12⟩
def BRG_INIT_STATUS_FAILED : Fld := ⟨0, 1⟩
def BRG_INIT_STATUS_CAUSE : Fld := ⟨8, 8⟩
def BRG_INIT_STATUS_COUNT : Fld := ⟨16, 16⟩
def BRG_POLL_ADDR : Fld := ⟨0, 32⟩
def BRG_POLL_LEN_M1 : Fld := ⟨32, 3⟩
def BRG_POLL_SIG : Fld := ⟨35, 16⟩
def KEY_CFG_ATTEST_SLOT : Fld := ⟨0, 8⟩
def KEY_CFG_ATTEST_SIGN : Fld := ⟨8, 1⟩
def KEY_STATUS_XPORT_OPEN : Fld := ⟨0, 1⟩
def KEY_STATUS_ID_VALID : Fld := ⟨1, 1⟩
def KEY_STATUS_METRO_BLOCKED : Fld := ⟨2, 1⟩
def KEY_STATUS_ORPHANS : Fld := ⟨3, 8⟩
def KEY_SLOT_SEL_SLOT : Fld := ⟨0, 8⟩
def KEY_SLOT_INFO_STATE : Fld := ⟨0, 3⟩
def KEY_SLOT_INFO_PUB_VALID : Fld := ⟨3, 1⟩
def KEY_CMD_SLOT : Fld := ⟨0, 8⟩
def KEY_CMD_OP : Fld := ⟨8, 2⟩
def KEY_CMD_STATUS_BUSY : Fld := ⟨0, 1⟩
def KEY_CMD_STATUS_DONE : Fld := ⟨1, 1⟩
def KEY_CMD_STATUS_REFUSED : Fld := ⟨2, 1⟩
def KEY_CMD_STATUS_CAUSE : Fld := ⟨3, 4⟩
def KEY_SVC_ADDR_ADDR : Fld := ⟨7, 17⟩
def KEY_SVC_CMD_GO : Fld := ⟨0, 1⟩
def KEY_SVC_STATUS_BUSY : Fld := ⟨0, 1⟩
def KEY_SVC_STATUS_DONE : Fld := ⟨1, 1⟩
def KEY_INT_EN_EN : Fld := ⟨0, 5⟩
def KEY_INT_STATUS_CMD_DONE : Fld := ⟨0, 1⟩
def KEY_INT_STATUS_SVC_DONE : Fld := ⟨1, 1⟩
def KEY_INT_STATUS_CIPHER_FAULT : Fld := ⟨2, 1⟩
def KEY_INT_STATUS_CNT_HALF : Fld := ⟨3, 1⟩
def KEY_INT_STATUS_CNT_OVER : Fld := ⟨4, 1⟩
def KEY_CNT_HALF_HALF : Fld := ⟨0, 8⟩
def KEY_CNT_OVER_OVER : Fld := ⟨0, 8⟩
def CIPH_CFG_FAULT_MODE : Fld := ⟨0, 1⟩
def CIPH_STATUS_OOS : Fld := ⟨0, 24⟩
def KEY_CNT_COUNT : Fld := ⟨0, 32⟩
def KEY_SLOT_ATTR_ATTR : Fld := ⟨0, 160⟩
def KEY_XPORT_KT : Fld := ⟨0, 256⟩
def KEY_PUB_PUB : Fld := ⟨0, 456⟩
def KEY_REPL_BUF_PAYLOAD : Fld := ⟨0, 1024⟩
def KEY_MSEC_CFG_ENABLE : Fld := ⟨0, 1⟩
def KEY_MSEC_CFG_SUITE : Fld := ⟨1, 1⟩
def KEY_MSEC_CFG_CONF : Fld := ⟨2, 1⟩
def KEY_MSEC_CFG_SCI_TX : Fld := ⟨3, 1⟩
def KEY_MSEC_CFG_VALIDATE : Fld := ⟨4, 1⟩
def KEY_MSEC_CFG_WIN_LOG2 : Fld := ⟨5, 5⟩
def KEY_MSEC_CFG_ROOT_SLOT : Fld := ⟨10, 8⟩
def KEY_MSEC_CFG_ROT_M2 : Fld := ⟨18, 14⟩
def KEY_MSEC_PEER_NODE : Fld := ⟨0, 16⟩
def KEY_MSEC_PEER_PORT : Fld := ⟨16, 6⟩
def KEY_MSEC_SCI_SCI : Fld := ⟨0, 64⟩
def KEY_MSEC_RX_SCI_SCI : Fld := ⟨0, 64⟩
def KEY_MSEC_STATUS_TX_AN : Fld := ⟨0, 2⟩
def KEY_MSEC_STATUS_OOS : Fld := ⟨2, 1⟩
def KEY_MSEC_STATUS_NO_KEY : Fld := ⟨3, 1⟩
def KEY_MSEC_STATUS_EPOCH : Fld := ⟨8, 24⟩
def SEAL_CFG_KEY_SLOT : Fld := ⟨0, 8⟩
def SEAL_CFG_HALT_SIG_EN : Fld := ⟨8, 1⟩
def SEAL_CFG_HALT_SIG : Fld := ⟨16, 16⟩
def SEAL_TIMING_INTERVAL : Fld := ⟨0, 16⟩
def SEAL_TIMING_COUNT : Fld := ⟨16, 16⟩
def SEAL_STORE_CFG_SIZE : Fld := ⟨0, 2⟩
def SEAL_STATUS_HALT : Fld := ⟨0, 1⟩
def SEAL_STATUS_HALT_CAUSE : Fld := ⟨1, 6⟩
def SEAL_STATUS_STORE_FULL : Fld := ⟨7, 1⟩
def SEAL_STATUS_READY : Fld := ⟨8, 1⟩
def SEAL_STATUS_SIGNING : Fld := ⟨9, 1⟩
def SEAL_STATUS_REBUILT : Fld := ⟨10, 1⟩
def SEAL_NEXT_SEQ_SEQ : Fld := ⟨0, 48⟩
def SEAL_LAST_SEALED_SEQ : Fld := ⟨0, 48⟩
def SEAL_APPEND_PAGE : Fld := ⟨0, 32⟩
def SEAL_APPEND_SLOT_SLOT : Fld := ⟨0, 5⟩
def SEAL_ACK_PAGE_PAGE : Fld := ⟨0, 32⟩
def SEAL_BUF_LEVEL_SLOTS : Fld := ⟨0, 15⟩
def SEAL_FREE_BLOCKS_BLOCKS : Fld := ⟨0, 13⟩
def SEAL_MIRROR_EN : Fld := ⟨0, 1⟩
def SEAL_MIRROR_PORT : Fld := ⟨1, 2⟩
def SEAL_MIRROR_CLASS : Fld := ⟨3, 3⟩
def SEAL_MIRROR_NODE : Fld := ⟨16, 16⟩
def SEAL_MIRROR_DA_MAC : Fld := ⟨0, 48⟩
def SEAL_HEAD_HEAD : Fld := ⟨0, 512⟩
def SEAL_MIRROR_SA_MAC : Fld := ⟨0, 48⟩
def SEAL_CNT_COUNT : Fld := ⟨0, 64⟩
def SYS_RESET_CAUSE_CAUSE : Fld := ⟨0, 4⟩
def SYS_BOOT_COUNT_COUNT : Fld := ⟨0, 32⟩
def SYS_RESET_REQ_GO : Fld := ⟨0, 1⟩
def SYS_RESET_REQ_CONFIRM : Fld := ⟨8, 8⟩
def SYS_PWR_CTRL_REQ : Fld := ⟨0, 2⟩
def SYS_PWR_CFG_QUIET_EN : Fld := ⟨0, 1⟩
def SYS_PWR_CFG_QUIET_M1 : Fld := ⟨1, 12⟩
def SYS_PWR_CFG_TIMER_M1 : Fld := ⟨13, 12⟩
def SYS_PWR_STATUS_STATE : Fld := ⟨0, 2⟩
def SYS_PWR_STATUS_QUIET : Fld := ⟨2, 1⟩
def SYS_WAKE_EN_PIN : Fld := ⟨0, 8⟩
def SYS_WAKE_EN_GPIO : Fld := ⟨8, 8⟩
def SYS_WAKE_EN_CAN : Fld := ⟨16, 1⟩
def SYS_WAKE_EN_FRAME : Fld := ⟨17, 1⟩
def SYS_WAKE_EN_TIMER : Fld := ⟨18, 1⟩
def SYS_WAKE_POL_LEVEL : Fld := ⟨0, 16⟩
def SYS_WAKE_SRC_SRC : Fld := ⟨0, 19⟩
def FLT_WDOG_CFG_PERIOD_M1 : Fld := ⟨0, 16⟩
def FLT_WDOG_KICK_KICK : Fld := ⟨0, 1⟩
def FLT_WDOG_STATUS_REMAIN : Fld := ⟨0, 16⟩
def FLT_WDOG_STATUS_WARN : Fld := ⟨16, 1⟩
def FLT_THERM_CFG_ALERT : Fld := ⟨0, 8⟩
def FLT_THERM_CFG_RESUME : Fld := ⟨8, 8⟩
def FLT_THERM_STATUS_TEMP : Fld := ⟨0, 9⟩
def FLT_THERM_STATUS_ALERT_ACTIVE : Fld := ⟨9, 1⟩
def FLT_THERM_STATUS_HOLD : Fld := ⟨10, 1⟩
def FLT_THERM_STATUS_MAX : Fld := ⟨16, 9⟩
def FLT_LAST_FAULT_CODE : Fld := ⟨0, 16⟩
def FLT_LAST_FAULT_DETAIL : Fld := ⟨16, 16⟩
def FLT_LAST_FAULT_HOOP_INDEX : Fld := ⟨0, 32⟩
def FLT_INT_EN_EN : Fld := ⟨0, 5⟩
def FLT_INT_STATUS_DBE : Fld := ⟨0, 1⟩
def FLT_INT_STATUS_WDOG_WARN : Fld := ⟨1, 1⟩
def FLT_INT_STATUS_THERM_ALERT : Fld := ⟨2, 1⟩
def FLT_INT_STATUS_CNT_HALF : Fld := ⟨3, 1⟩
def FLT_INT_STATUS_CNT_OVER : Fld := ⟨4, 1⟩
def FLT_CNT_HALF_HALF : Fld := ⟨0, 12⟩
def FLT_CNT_HALF_HALF2 : Fld := ⟨16, 12⟩
def FLT_CNT_OVER_OVER : Fld := ⟨0, 12⟩
def FLT_CNT_OVER_OVER2 : Fld := ⟨16, 12⟩
def FLT_SBE_COUNT : Fld := ⟨0, 32⟩
def FLT_DBE_COUNT : Fld := ⟨0, 32⟩
def SYS_SP_RX_BASE_ADDR : Fld := ⟨6, 18⟩
def SYS_SP_RX_CFG_LOG2 : Fld := ⟨0, 4⟩
def SYS_SP_RX_CFG_SLOT : Fld := ⟨4, 2⟩
def SYS_SP_RX_CFG_EN : Fld := ⟨6, 1⟩
def SYS_SP_RX_WR_WR : Fld := ⟨0, 12⟩
def SYS_SP_RX_RD_RD : Fld := ⟨0, 12⟩
def SYS_SP_MAP_RING : Fld := ⟨0, 16⟩
def SYS_SP_TX_BASE_ADDR : Fld := ⟨5, 19⟩
def SYS_SP_TX_SIZE_LOG2 : Fld := ⟨0, 4⟩
def SYS_SP_TX_HEAD_HEAD : Fld := ⟨0, 12⟩
def SYS_SP_TX_TAIL_TAIL : Fld := ⟨0, 12⟩
def SYS_SP_INT_EN_EN : Fld := ⟨0, 4⟩
def SYS_SP_INT_STATUS_RX_READY : Fld := ⟨0, 1⟩
def SYS_SP_INT_STATUS_TX_IRQ : Fld := ⟨1, 1⟩
def SYS_SP_INT_STATUS_CNT_HALF : Fld := ⟨2, 1⟩
def SYS_SP_INT_STATUS_CNT_OVER : Fld := ⟨3, 1⟩
def SYS_SP_CNT_HALF_HALF : Fld := ⟨0, 6⟩
def SYS_SP_CNT_OVER_OVER : Fld := ⟨0, 6⟩
def SYS_SP_CNT_COUNT : Fld := ⟨0, 32⟩
def SYS_CHIP_ID_REV : Fld := ⟨0, 8⟩
def SYS_CHIP_ID_PART : Fld := ⟨8, 24⟩
def SYS_EVT_BASE_ADDR : Fld := ⟨4, 20⟩
def SYS_EVT_SIZE_LOG2 : Fld := ⟨0, 4⟩
def SYS_EVT_WR_WR : Fld := ⟨0, 14⟩
def SYS_EVT_RD_RD : Fld := ⟨0, 14⟩
def SYS_EVT_LOST_COUNT : Fld := ⟨0, 32⟩
def SYS_EVT_CTRL_EN : Fld := ⟨0, 1⟩
def SYS_IRQ_STATUS_LINES : Fld := ⟨0, 64⟩
def SYS_IRQ_HOOP_PEND : Fld := ⟨0, 1⟩
def SYS_IRQ_ROUTE_MASK : Fld := ⟨0, 64⟩
def SYS_IRQ_EGR_PORTS : Fld := ⟨0, 52⟩
def GPIO_IN_LEVEL : Fld := ⟨0, 32⟩
def GPIO_SAMPLE_SAMPLE : Fld := ⟨0, 32⟩
def GPIO_OE_OE : Fld := ⟨0, 32⟩
def GPIO_OUT_OUT : Fld := ⟨0, 32⟩
def GPIO_OUT_NEXT_NEXT : Fld := ⟨0, 32⟩
def GPIO_OUT_MASK_MASK : Fld := ⟨0, 32⟩
def GPIO_CHG_CHG : Fld := ⟨0, 32⟩
def GPIO_INT_EN_EN : Fld := ⟨0, 1⟩
def GPIO_INT_STATUS_CHANGE : Fld := ⟨0, 1⟩
def EYE_CFG_EN : Fld := ⟨0, 1⟩
def EYE_CFG_PORT : Fld := ⟨1, 6⟩
def EYE_CFG_IPV6 : Fld := ⟨7, 1⟩
def EYE_CFG_CLASS : Fld := ⟨8, 3⟩
def EYE_CFG_VID : Fld := ⟨11, 12⟩
def EYE_CFG_KEY_SLOT : Fld := ⟨23, 8⟩
def EYE_UDP_LOCAL : Fld := ⟨0, 16⟩
def EYE_UDP_HOST : Fld := ⟨16, 16⟩
def EYE_TEL_PERIOD_M1 : Fld := ⟨0, 16⟩
def EYE_TEL_LEN : Fld := ⟨16, 8⟩
def EYE_TEL_EN : Fld := ⟨24, 1⟩
def EYE_EVT_MASK_BLOCKS : Fld := ⟨0, 16⟩
def EYE_LOCAL_MAC_MAC : Fld := ⟨0, 48⟩
def EYE_HOST_MAC_MAC : Fld := ⟨0, 48⟩
def EYE_LOCAL_IP_IP : Fld := ⟨0, 128⟩
def EYE_HOST_IP_IP : Fld := ⟨0, 128⟩
def EYE_STATUS_RECOVERY : Fld := ⟨0, 1⟩
def EYE_STATUS_KEY_OK : Fld := ⟨1, 1⟩
def EYE_STATUS_QUEUED : Fld := ⟨2, 4⟩
def EYE_STATUS_STAGE_BUSY : Fld := ⟨6, 1⟩
def EYE_EPOCH_EPOCH : Fld := ⟨0, 32⟩
def EYE_RX_SEQ_COUNT : Fld := ⟨0, 32⟩
def EYE_TX_SEQ_COUNT : Fld := ⟨0, 32⟩
def EYE_INT_EN_EN : Fld := ⟨0, 5⟩
def EYE_INT_STATUS_AUTH_FAIL : Fld := ⟨0, 1⟩
def EYE_INT_STATUS_REPLAY : Fld := ⟨1, 1⟩
def EYE_INT_STATUS_TX_REFUSED : Fld := ⟨2, 1⟩
def EYE_INT_STATUS_CNT_HALF : Fld := ⟨3, 1⟩
def EYE_INT_STATUS_CNT_OVER : Fld := ⟨4, 1⟩
def EYE_CNT_HALF_HALF : Fld := ⟨0, 8⟩
def EYE_CNT_OVER_OVER : Fld := ⟨0, 8⟩
def EYE_CNT_COUNT : Fld := ⟨0, 32⟩
def EYE_TEL_LIST_ARG : Fld := ⟨0, 24⟩
def EYE_TEL_LIST_KIND : Fld := ⟨30, 2⟩
def ETH_WAKE_PAT_PATTERN : Fld := ⟨0, 128⟩
def ETH_WAKE_CFG_VALID : Fld := ⟨0, 1⟩
def ETH_WAKE_CFG_OFFSET : Fld := ⟨1, 8⟩
def ETH_WAKE_CFG_MASK : Fld := ⟨16, 16⟩
def T1S_WAKE_PAT_PATTERN : Fld := ⟨0, 128⟩
def T1S_WAKE_CFG_VALID : Fld := ⟨0, 1⟩
def T1S_WAKE_CFG_OFFSET : Fld := ⟨1, 8⟩
def T1S_WAKE_CFG_MASK : Fld := ⟨16, 16⟩

end Fl

end Sys2Proof.Machine
end

