-- ==== Sys2Proof/Machine/RegTab.lean ====
section
/-! DEFINITION. The register tables as data: for each register row its offset, its index dimensions, its number of words
and its fields with their access types, Reset values and Kept letters (R5, R6, R9). Generated from the register tables of
spec/02 to spec/16. -/

namespace Sys2Proof.Machine

/-- The access types of R6 that the tables use. -/
inductive Acc where
  | ro | rw | w1c | wo | srw
  deriving DecidableEq, Repr

/-- A field row: bits `lo` to `hi`, its access type, its Reset value, and the letters of its Kept column (R9). -/
structure FieldD where
  lo  : Nat
  hi  : Nat
  acc : Acc
  rst : Nat
  w   : Bool
  d   : Bool
  s   : Bool
  res : Bool := false
  deriving DecidableEq, Repr

/-- One index of a register row: its stride in bytes, its first value and how many values it takes. -/
structure DimD where
  stride : Nat
  first  : Nat
  count  : Nat
  deriving DecidableEq, Repr

/-- A register row. -/
structure RegD where
  off    : Nat
  dims   : List DimD
  words  : Nat
  fields : List FieldD
  deriving DecidableEq, Repr

namespace RegTab

def TIME_CTRL : RegD := ⟨0x0, [], 1, [
    ⟨0, 0, .rw, 0, false, false, false, false⟩,
    ⟨1, 1, .wo, 0, false, false, false, false⟩,
    ⟨2, 3, .srw, 0, false, true, false, false⟩,
    ⟨4, 31, .ro, 0, false, false, false, true⟩]⟩
def TIME_STATUS : RegD := ⟨0x4, [], 1, [
    ⟨0, 1, .ro, 0, false, true, false, false⟩,
    ⟨2, 2, .ro, 0, false, true, false, false⟩,
    ⟨3, 3, .ro, 0, true, true, true, false⟩,
    ⟨4, 8, .ro, 0, false, true, false, false⟩,
    ⟨9, 31, .ro, 0, false, false, false, true⟩]⟩
def TIME_RAW : RegD := ⟨0x8, [], 2, [
    ⟨0, 63, .ro, 0, true, true, true, false⟩]⟩
def TIME_OFFSET : RegD := ⟨0x10, [], 2, [
    ⟨0, 63, .ro, 0, true, true, true, false⟩]⟩
def TIME_OFFSET_FRAC : RegD := ⟨0x18, [], 1, [
    ⟨0, 15, .ro, 0, true, true, true, false⟩,
    ⟨16, 31, .ro, 0, false, false, false, true⟩]⟩
def TIME_NOW : RegD := ⟨0x20, [], 2, [
    ⟨0, 63, .ro, 0, false, false, false, false⟩]⟩
def TIME_NOW_FRAC : RegD := ⟨0x28, [], 1, [
    ⟨0, 15, .ro, 0, false, false, false, false⟩,
    ⟨16, 31, .ro, 0, false, false, false, true⟩]⟩
def TIME_NOW_HOOP : RegD := ⟨0x2c, [], 1, [
    ⟨0, 31, .ro, 0, false, false, false, false⟩]⟩
def TIME_RATE : RegD := ⟨0x30, [], 1, [
    ⟨0, 31, .rw, 0, true, true, true, false⟩]⟩
def TIME_SLEW_MAX : RegD := ⟨0x34, [], 1, [
    ⟨0, 8, .srw, 100, false, true, false, false⟩,
    ⟨9, 31, .ro, 0, false, false, false, true⟩]⟩
def TIME_ADJ : RegD := ⟨0x38, [], 1, [
    ⟨0, 31, .wo, 0, false, false, false, false⟩]⟩
def TIME_ADJ_REMAIN : RegD := ⟨0x3c, [], 1, [
    ⟨0, 31, .ro, 0, false, true, false, false⟩]⟩
def TIME_SERVO_OFFSET : RegD := ⟨0x40, [], 1, [
    ⟨0, 31, .wo, 0, false, false, false, false⟩]⟩
def TIME_SYNC_CFG : RegD := ⟨0x44, [], 1, [
    ⟨0, 3, .srw, 13, false, true, false, false⟩,
    ⟨4, 7, .ro, 0, false, false, false, true⟩,
    ⟨8, 15, .srw, 4, false, true, false, false⟩,
    ⟨16, 31, .ro, 0, false, false, false, true⟩]⟩
def TIME_HOLDOVER_MS : RegD := ⟨0x48, [], 1, [
    ⟨0, 31, .ro, 0, true, true, true, false⟩]⟩
def TIME_STEP : RegD := ⟨0x50, [], 2, [
    ⟨0, 63, .rw, 0, false, false, false, false⟩]⟩
def TIME_PPS_IN_TS : RegD := ⟨0x60, [⟨16, 0, 2⟩], 2, [
    ⟨0, 63, .ro, 0, false, false, false, false⟩]⟩
def TIME_PPS_IN_FRAC : RegD := ⟨0x68, [⟨16, 0, 2⟩], 1, [
    ⟨0, 15, .ro, 0, false, false, false, false⟩,
    ⟨16, 31, .ro, 0, false, false, false, true⟩]⟩
def TIME_PPS_IN_CNT : RegD := ⟨0x6c, [⟨16, 0, 2⟩], 1, [
    ⟨0, 31, .ro, 0, false, false, false, false⟩]⟩
def TIME_PPS_OUT_CFG : RegD := ⟨0x80, [⟨4, 0, 4⟩], 1, [
    ⟨0, 1, .srw, 0, false, true, false, false⟩,
    ⟨2, 9, .srw, 1, false, true, false, false⟩,
    ⟨10, 31, .ro, 0, false, false, false, true⟩]⟩
def TIME_TSQ_REC : RegD := ⟨0x100, [⟨32, 0, 8⟩], 4, [
    ⟨0, 127, .ro, 0, false, false, false, false⟩]⟩
def TIME_TSQ_LEVEL : RegD := ⟨0x110, [⟨32, 0, 8⟩], 1, [
    ⟨0, 6, .ro, 0, false, false, false, false⟩,
    ⟨7, 31, .ro, 0, false, false, false, true⟩]⟩
def TIME_TSQ_POP : RegD := ⟨0x114, [⟨32, 0, 8⟩], 1, [
    ⟨0, 0, .wo, 0, false, false, false, false⟩,
    ⟨1, 31, .ro, 0, false, false, false, true⟩]⟩
def TIME_CAL_TX : RegD := ⟨0x200, [⟨8, 0, 24⟩], 1, [
    ⟨0, 31, .srw, 0, false, true, false, false⟩]⟩
def TIME_CAL_RX : RegD := ⟨0x204, [⟨8, 0, 24⟩], 1, [
    ⟨0, 31, .srw, 0, false, true, false, false⟩]⟩
def TIME_PTP_CFG : RegD := ⟨0x300, [⟨4, 0, 24⟩], 1, [
    ⟨0, 0, .srw, 0, false, true, false, false⟩,
    ⟨1, 2, .srw, 0, false, true, false, false⟩,
    ⟨3, 3, .srw, 1, false, true, false, false⟩,
    ⟨4, 4, .srw, 0, false, true, false, false⟩,
    ⟨5, 31, .ro, 0, false, false, false, true⟩]⟩
def TIME_TSQ_OVF : RegD := ⟨0x400, [⟨4, 0, 48⟩], 1, [
    ⟨0, 31, .ro, 0, false, false, false, false⟩]⟩
def HOOP_PERIOD : RegD := ⟨0x800, [], 1, [
    ⟨0, 9, .srw, 100, false, true, false, false⟩,
    ⟨10, 31, .ro, 0, false, false, false, true⟩]⟩
def HOOP_PHASE : RegD := ⟨0x804, [], 1, [
    ⟨0, 19, .srw, 0, false, true, false, false⟩,
    ⟨20, 31, .ro, 0, false, false, false, true⟩]⟩
def HOOP_REPEAT : RegD := ⟨0x808, [], 1, [
    ⟨0, 12, .srw, 1, false, true, false, false⟩,
    ⟨13, 31, .ro, 0, false, false, false, true⟩]⟩
def HOOP_SWAP_DELAY : RegD := ⟨0x80c, [], 1, [
    ⟨0, 13, .srw, 1000, false, true, false, false⟩,
    ⟨14, 31, .ro, 0, false, false, false, true⟩]⟩
def HOOP_INDEX : RegD := ⟨0x810, [], 1, [
    ⟨0, 31, .ro, 0, true, true, true, false⟩]⟩
def HOOP_POS : RegD := ⟨0x814, [], 1, [
    ⟨0, 11, .ro, 0, true, true, true, false⟩,
    ⟨12, 31, .ro, 0, false, false, false, true⟩]⟩
def HOOP_COUNT : RegD := ⟨0x818, [], 2, [
    ⟨0, 63, .ro, 0, true, true, true, false⟩]⟩
def HOOP_LAST_B : RegD := ⟨0x820, [], 2, [
    ⟨0, 63, .ro, 0, true, true, true, false⟩]⟩
def HOOP_BUDGET : RegD := ⟨0x840, [⟨4, 0, 6⟩], 1, [
    ⟨0, 23, .srw, 0, false, true, false, false⟩,
    ⟨24, 31, .ro, 0, false, false, false, true⟩]⟩
def HOOP_CARRY : RegD := ⟨0x860, [⟨4, 0, 6⟩], 1, [
    ⟨0, 31, .ro, 0, false, false, false, false⟩]⟩
def rowsTIME0 : List RegD := [TIME_CTRL, TIME_STATUS, TIME_RAW, TIME_OFFSET, TIME_OFFSET_FRAC, TIME_NOW, TIME_NOW_FRAC, TIME_NOW_HOOP, TIME_RATE, TIME_SLEW_MAX, TIME_ADJ, TIME_ADJ_REMAIN, TIME_SERVO_OFFSET, TIME_SYNC_CFG, TIME_HOLDOVER_MS, TIME_STEP, TIME_PPS_IN_TS, TIME_PPS_IN_FRAC, TIME_PPS_IN_CNT, TIME_PPS_OUT_CFG, TIME_TSQ_REC, TIME_TSQ_LEVEL, TIME_TSQ_POP, TIME_CAL_TX, TIME_CAL_RX, TIME_PTP_CFG, TIME_TSQ_OVF, HOOP_PERIOD, HOOP_PHASE, HOOP_REPEAT, HOOP_SWAP_DELAY, HOOP_INDEX, HOOP_POS, HOOP_COUNT, HOOP_LAST_B, HOOP_BUDGET, HOOP_CARRY]

/-- The register rows of block TIME. -/
def rowsTIME : List RegD := rowsTIME0

def IMG_STATUS : RegD := ⟨0x0, [], 1, [
    ⟨0, 0, .ro, 0, false, true, false, false⟩,
    ⟨1, 1, .ro, 0, false, true, false, false⟩,
    ⟨2, 2, .ro, 0, false, true, false, false⟩,
    ⟨3, 3, .ro, 0, false, true, false, false⟩,
    ⟨4, 4, .ro, 0, false, true, false, false⟩,
    ⟨5, 31, .ro, 0, false, false, false, true⟩]⟩
def IMG_SLOT_RESULT : RegD := ⟨0x4, [⟨4, 0, 2⟩], 1, [
    ⟨0, 0, .ro, 0, false, true, false, false⟩,
    ⟨1, 1, .ro, 0, false, true, false, false⟩,
    ⟨2, 3, .ro, 0, false, true, false, false⟩,
    ⟨4, 9, .ro, 0, false, true, false, false⟩,
    ⟨10, 31, .ro, 0, false, true, false, false⟩]⟩
def IMG_ACTIVE_VERSION : RegD := ⟨0x10, [], 1, [
    ⟨0, 31, .ro, 0, false, true, false, false⟩]⟩
def IMG_NODE : RegD := ⟨0x14, [], 1, [
    ⟨0, 15, .ro, 0, false, true, false, false⟩,
    ⟨16, 16, .ro, 0, false, true, false, false⟩,
    ⟨17, 31, .ro, 0, false, false, false, true⟩]⟩
def IMG_LIFECYCLE : RegD := ⟨0x18, [], 1, [
    ⟨0, 2, .ro, 0, true, true, true, false⟩,
    ⟨3, 31, .ro, 0, false, false, false, true⟩]⟩
def IMG_ROLLBACK : RegD := ⟨0x1c, [], 1, [
    ⟨0, 7, .ro, 0, true, true, true, false⟩,
    ⟨8, 15, .ro, 0, false, true, false, false⟩,
    ⟨16, 31, .ro, 0, false, false, false, true⟩]⟩
def IMG_EPOCH_COMMIT : RegD := ⟨0x20, [], 1, [
    ⟨0, 0, .wo, 0, false, false, false, false⟩,
    ⟨1, 31, .ro, 0, false, false, false, true⟩]⟩
def IMG_UID : RegD := ⟨0x30, [], 4, [
    ⟨0, 127, .ro, 0, true, true, true, false⟩]⟩
def IMG_DBG_NONCE : RegD := ⟨0x40, [], 4, [
    ⟨0, 127, .ro, 0, false, true, false, false⟩]⟩
def IMG_STAGE_CTRL : RegD := ⟨0x50, [], 1, [
    ⟨0, 1, .wo, 0, false, false, false, false⟩,
    ⟨2, 31, .ro, 0, false, false, false, true⟩]⟩
def IMG_STAGE_ADDR : RegD := ⟨0x54, [], 1, [
    ⟨0, 23, .rw, 0, false, false, false, false⟩,
    ⟨24, 31, .ro, 0, false, false, false, true⟩]⟩
def IMG_STAGE_STATUS : RegD := ⟨0x58, [], 1, [
    ⟨0, 0, .ro, 0, false, false, false, false⟩,
    ⟨1, 1, .w1c, 0, false, false, false, false⟩,
    ⟨2, 2, .w1c, 0, false, false, false, false⟩,
    ⟨3, 3, .ro, 0, false, false, false, false⟩,
    ⟨4, 9, .ro, 0, false, false, false, false⟩,
    ⟨10, 11, .ro, 0, false, false, false, false⟩,
    ⟨12, 31, .ro, 0, false, false, false, true⟩]⟩
def IMG_DIGEST : RegD := ⟨0x100, [⟨64, 0, 3⟩], 16, [
    ⟨0, 511, .ro, 0, false, true, false, false⟩]⟩
def IMG_STAGE_BUF : RegD := ⟨0x200, [], 64, [
    ⟨0, 2047, .rw, 0, false, false, false, false⟩]⟩
def rowsIMAGE0 : List RegD := [IMG_STATUS, IMG_SLOT_RESULT, IMG_ACTIVE_VERSION, IMG_NODE, IMG_LIFECYCLE, IMG_ROLLBACK, IMG_EPOCH_COMMIT, IMG_UID, IMG_DBG_NONCE, IMG_STAGE_CTRL, IMG_STAGE_ADDR, IMG_STAGE_STATUS, IMG_DIGEST, IMG_STAGE_BUF]

/-- The register rows of block IMAGE. -/
def rowsIMAGE : List RegD := rowsIMAGE0

def ETH_CFG : RegD := ⟨0x0, [], 1, [
    ⟨0, 0, .srw, 0, false, true, false, false⟩,
    ⟨1, 2, .srw, 0, false, true, false, false⟩,
    ⟨3, 4, .srw, 0, false, true, false, false⟩,
    ⟨5, 18, .srw, 1518, false, true, false, false⟩,
    ⟨19, 31, .ro, 0, false, false, false, true⟩]⟩
def ETH_STATUS : RegD := ⟨0x4, [], 1, [
    ⟨0, 0, .ro, 0, false, false, false, false⟩,
    ⟨1, 1, .ro, 0, false, false, false, false⟩,
    ⟨2, 2, .ro, 0, false, false, false, false⟩,
    ⟨3, 3, .ro, 0, false, false, false, false⟩,
    ⟨4, 4, .ro, 0, false, false, false, false⟩,
    ⟨5, 31, .ro, 0, false, false, false, true⟩]⟩
def ETH_SERDES_TX : RegD := ⟨0x8, [], 1, [
    ⟨0, 3, .srw, 0, false, true, false, false⟩,
    ⟨4, 9, .srw, 63, false, true, false, false⟩,
    ⟨10, 14, .srw, 0, false, true, false, false⟩,
    ⟨15, 31, .ro, 0, false, false, false, true⟩]⟩
def ETH_SERDES_RX : RegD := ⟨0xc, [], 1, [
    ⟨0, 4, .srw, 8, false, true, false, false⟩,
    ⟨5, 10, .srw, 0, false, true, false, false⟩,
    ⟨11, 11, .srw, 0, false, true, false, false⟩,
    ⟨12, 31, .ro, 0, false, false, false, true⟩]⟩
def ETH_ADAPT_RESULT : RegD := ⟨0x10, [], 1, [
    ⟨0, 4, .ro, 0, false, false, false, false⟩,
    ⟨5, 10, .ro, 0, false, false, false, false⟩,
    ⟨11, 15, .ro, 0, false, false, false, true⟩,
    ⟨16, 31, .ro, 0, false, false, false, false⟩]⟩
def ETH_TX_THRESH : RegD := ⟨0x14, [], 1, [
    ⟨0, 13, .srw, 64, false, true, false, false⟩,
    ⟨14, 15, .ro, 0, false, false, false, true⟩,
    ⟨16, 29, .ro, 64, false, true, false, false⟩,
    ⟨30, 31, .ro, 0, false, false, false, true⟩]⟩
def ETH_FC_CFG : RegD := ⟨0x18, [], 1, [
    ⟨0, 0, .srw, 0, false, true, false, false⟩,
    ⟨1, 7, .ro, 0, false, false, false, true⟩,
    ⟨8, 15, .srw, 0, false, true, false, false⟩,
    ⟨16, 31, .ro, 0, false, false, false, true⟩]⟩
def ETH_PAUSE_WDOG : RegD := ⟨0x1c, [], 1, [
    ⟨0, 15, .srw, 0, false, true, false, false⟩,
    ⟨16, 31, .ro, 0, false, false, false, true⟩]⟩
def ETH_FC_STATUS : RegD := ⟨0x20, [], 1, [
    ⟨0, 0, .ro, 0, false, false, false, false⟩,
    ⟨1, 7, .ro, 0, false, false, false, true⟩,
    ⟨8, 15, .ro, 0, false, false, false, false⟩,
    ⟨16, 23, .ro, 0, false, false, false, false⟩,
    ⟨24, 24, .ro, 0, false, false, false, false⟩,
    ⟨25, 31, .ro, 0, false, false, false, true⟩]⟩
def ETH_CLASS_MAP : RegD := ⟨0x24, [], 1, [
    ⟨0, 23, .srw, 16434824, false, true, false, false⟩,
    ⟨24, 26, .srw, 0, false, true, false, false⟩,
    ⟨27, 31, .ro, 0, false, false, false, true⟩]⟩
def ETH_PHY : RegD := ⟨0x28, [], 1, [
    ⟨0, 4, .srw, 0, false, true, false, false⟩,
    ⟨5, 5, .srw, 0, false, true, false, false⟩,
    ⟨6, 31, .ro, 0, false, false, false, true⟩]⟩
def ETH_MDIO_CMD : RegD := ⟨0x2c, [], 1, [
    ⟨0, 15, .rw, 0, false, false, false, false⟩,
    ⟨16, 20, .rw, 0, false, false, false, false⟩,
    ⟨21, 30, .ro, 0, false, false, false, true⟩,
    ⟨31, 31, .wo, 0, false, false, false, false⟩]⟩
def ETH_MDIO_DATA : RegD := ⟨0x30, [], 1, [
    ⟨0, 15, .ro, 0, false, false, false, false⟩,
    ⟨16, 16, .ro, 0, false, false, false, false⟩,
    ⟨17, 17, .w1c, 0, false, false, false, false⟩,
    ⟨18, 31, .ro, 0, false, false, false, true⟩]⟩
def ETH_INT_EN : RegD := ⟨0x34, [], 1, [
    ⟨0, 5, .rw, 0, false, true, false, false⟩,
    ⟨6, 31, .ro, 0, false, false, false, true⟩]⟩
def ETH_INT_STATUS : RegD := ⟨0x38, [], 1, [
    ⟨0, 0, .w1c, 0, false, false, false, false⟩,
    ⟨1, 1, .ro, 0, false, false, false, false⟩,
    ⟨2, 2, .w1c, 0, false, false, false, false⟩,
    ⟨3, 3, .w1c, 0, false, false, false, false⟩,
    ⟨4, 4, .w1c, 0, false, false, false, false⟩,
    ⟨5, 5, .ro, 0, false, false, false, false⟩,
    ⟨6, 31, .ro, 0, false, false, false, true⟩]⟩
def ETH_CNT_HALF : RegD := ⟨0x40, [], 2, [
    ⟨0, 47, .w1c, 0, false, false, false, false⟩,
    ⟨48, 63, .ro, 0, false, false, false, true⟩]⟩
def ETH_CNT_OVER : RegD := ⟨0x48, [], 2, [
    ⟨0, 47, .w1c, 0, false, false, false, false⟩,
    ⟨48, 63, .ro, 0, false, false, false, true⟩]⟩
def ETH_FEC_CORR : RegD := ⟨0x50, [], 1, [
    ⟨0, 31, .ro, 0, false, false, false, false⟩]⟩
def ETH_FEC_UNCORR : RegD := ⟨0x54, [], 1, [
    ⟨0, 31, .ro, 0, false, false, false, false⟩]⟩
def ETH_TX_TOO_LONG : RegD := ⟨0x58, [], 1, [
    ⟨0, 31, .ro, 0, false, false, false, false⟩]⟩
def ETH_TX_LINK_DROP : RegD := ⟨0x5c, [], 1, [
    ⟨0, 31, .ro, 0, false, false, false, false⟩]⟩
def ETH_LINK_DOWNS : RegD := ⟨0x60, [], 1, [
    ⟨0, 31, .ro, 0, false, false, false, false⟩]⟩
def ETH_CNT : RegD := ⟨0x100, [⟨4, 0, 48⟩], 1, [
    ⟨0, 31, .ro, 0, false, false, false, false⟩]⟩
def ETH_CNT_SNAP : RegD := ⟨0x200, [⟨4, 0, 48⟩], 1, [
    ⟨0, 31, .ro, 0, false, false, false, false⟩]⟩
def ETH_STEER_MATCH : RegD := ⟨0x400, [⟨16, 0, 32⟩], 1, [
    ⟨0, 11, .srw, 0, false, true, false, false⟩,
    ⟨12, 14, .srw, 0, false, true, false, false⟩,
    ⟨15, 15, .ro, 0, false, false, false, true⟩,
    ⟨16, 31, .srw, 0, false, true, false, false⟩]⟩
def ETH_STEER_MASK : RegD := ⟨0x404, [⟨16, 0, 32⟩], 1, [
    ⟨0, 11, .srw, 0, false, true, false, false⟩,
    ⟨12, 14, .srw, 0, false, true, false, false⟩,
    ⟨15, 15, .ro, 0, false, false, false, true⟩,
    ⟨16, 31, .srw, 0, false, true, false, false⟩]⟩
def ETH_STEER_ACT : RegD := ⟨0x408, [⟨16, 0, 32⟩], 1, [
    ⟨0, 0, .srw, 0, false, true, false, false⟩,
    ⟨1, 2, .srw, 0, false, true, false, false⟩,
    ⟨3, 4, .srw, 0, false, true, false, false⟩,
    ⟨5, 7, .srw, 0, false, true, false, false⟩,
    ⟨8, 9, .srw, 0, false, true, false, false⟩,
    ⟨10, 31, .ro, 0, false, false, false, true⟩]⟩
def ETH_STEER_HITS : RegD := ⟨0x600, [⟨4, 0, 32⟩], 1, [
    ⟨0, 31, .ro, 0, false, false, false, false⟩]⟩
def ETH_WAKE_PAT : RegD := ⟨0x700, [⟨32, 0, 4⟩], 4, [
    ⟨0, 127, .srw, 0, false, true, false, false⟩]⟩
def ETH_WAKE_CFG : RegD := ⟨0x710, [⟨32, 0, 4⟩], 1, [
    ⟨0, 0, .srw, 0, false, true, false, false⟩,
    ⟨1, 8, .srw, 0, false, true, false, false⟩,
    ⟨9, 15, .ro, 0, false, false, false, true⟩,
    ⟨16, 31, .srw, 0, false, true, false, false⟩]⟩
def rowsETH0 : List RegD := [ETH_CFG, ETH_STATUS, ETH_SERDES_TX, ETH_SERDES_RX, ETH_ADAPT_RESULT, ETH_TX_THRESH, ETH_FC_CFG, ETH_PAUSE_WDOG, ETH_FC_STATUS, ETH_CLASS_MAP, ETH_PHY, ETH_MDIO_CMD, ETH_MDIO_DATA, ETH_INT_EN, ETH_INT_STATUS, ETH_CNT_HALF, ETH_CNT_OVER, ETH_FEC_CORR, ETH_FEC_UNCORR, ETH_TX_TOO_LONG, ETH_TX_LINK_DROP, ETH_LINK_DOWNS, ETH_CNT, ETH_CNT_SNAP, ETH_STEER_MATCH, ETH_STEER_MASK, ETH_STEER_ACT, ETH_STEER_HITS, ETH_WAKE_PAT, ETH_WAKE_CFG]

/-- The register rows of block ETH. -/
def rowsETH : List RegD := rowsETH0

def CAN_CFG : RegD := ⟨0x0, [], 1, [
    ⟨0, 1, .srw, 0, false, true, false, false⟩,
    ⟨2, 2, .srw, 0, false, true, false, false⟩,
    ⟨3, 3, .srw, 0, false, true, false, false⟩,
    ⟨4, 4, .srw, 0, false, true, false, false⟩,
    ⟨5, 5, .srw, 1, false, true, false, false⟩,
    ⟨6, 6, .srw, 0, false, true, false, false⟩,
    ⟨7, 7, .ro, 0, false, false, false, true⟩,
    ⟨8, 15, .srw, 204, false, true, false, false⟩,
    ⟨16, 31, .ro, 0, false, false, false, true⟩]⟩
def CAN_STATUS : RegD := ⟨0x4, [], 1, [
    ⟨0, 1, .ro, 0, false, false, false, false⟩,
    ⟨2, 9, .ro, 0, false, false, false, false⟩,
    ⟨10, 17, .ro, 0, false, false, false, false⟩,
    ⟨18, 18, .ro, 0, false, false, false, false⟩,
    ⟨19, 31, .ro, 0, false, false, false, true⟩]⟩
def CAN_NBT : RegD := ⟨0x8, [], 1, [
    ⟨0, 8, .srw, 1, false, true, false, false⟩,
    ⟨9, 17, .srw, 63, false, true, false, false⟩,
    ⟨18, 24, .srw, 16, false, true, false, false⟩,
    ⟨25, 31, .srw, 16, false, true, false, false⟩]⟩
def CAN_DBT : RegD := ⟨0xc, [], 1, [
    ⟨0, 5, .srw, 1, false, true, false, false⟩,
    ⟨6, 11, .srw, 7, false, true, false, false⟩,
    ⟨12, 16, .srw, 2, false, true, false, false⟩,
    ⟨17, 21, .srw, 2, false, true, false, false⟩,
    ⟨22, 31, .ro, 0, false, false, false, true⟩]⟩
def CAN_XBT : RegD := ⟨0x10, [], 1, [
    ⟨0, 5, .srw, 1, false, true, false, false⟩,
    ⟨6, 12, .srw, 5, false, true, false, false⟩,
    ⟨13, 18, .srw, 2, false, true, false, false⟩,
    ⟨19, 24, .srw, 2, false, true, false, false⟩,
    ⟨25, 31, .ro, 0, false, false, false, true⟩]⟩
def CAN_TDC : RegD := ⟨0x14, [], 1, [
    ⟨0, 0, .srw, 0, false, true, false, false⟩,
    ⟨1, 1, .srw, 0, false, true, false, false⟩,
    ⟨2, 8, .srw, 0, false, true, false, false⟩,
    ⟨9, 15, .srw, 0, false, true, false, false⟩,
    ⟨16, 22, .ro, 0, false, false, false, false⟩,
    ⟨23, 31, .ro, 0, false, false, false, true⟩]⟩
def CAN_PWM : RegD := ⟨0x18, [], 1, [
    ⟨0, 5, .srw, 1, false, true, false, false⟩,
    ⟨6, 11, .srw, 1, false, true, false, false⟩,
    ⟨12, 17, .srw, 0, false, true, false, false⟩,
    ⟨18, 31, .ro, 0, false, false, false, true⟩]⟩
def CAN_RECOVER : RegD := ⟨0x1c, [], 1, [
    ⟨0, 0, .wo, 0, false, false, false, false⟩,
    ⟨1, 31, .ro, 0, false, false, false, true⟩]⟩
def CAN_INT_EN : RegD := ⟨0x20, [], 1, [
    ⟨0, 11, .rw, 0, false, true, false, false⟩,
    ⟨12, 31, .ro, 0, false, false, false, true⟩]⟩
def CAN_INT_STATUS : RegD := ⟨0x24, [], 1, [
    ⟨0, 0, .w1c, 0, false, false, false, false⟩,
    ⟨1, 1, .w1c, 0, false, false, false, false⟩,
    ⟨2, 2, .w1c, 0, false, false, false, false⟩,
    ⟨3, 3, .ro, 0, false, false, false, false⟩,
    ⟨4, 4, .w1c, 0, false, false, false, false⟩,
    ⟨5, 5, .w1c, 0, false, false, false, false⟩,
    ⟨6, 6, .ro, 0, false, false, false, false⟩,
    ⟨7, 7, .w1c, 0, false, false, false, false⟩,
    ⟨8, 11, .ro, 0, false, false, false, false⟩,
    ⟨12, 31, .ro, 0, false, false, false, true⟩]⟩
def CAN_CNT_HALF : RegD := ⟨0x28, [], 1, [
    ⟨0, 27, .w1c, 0, false, false, false, false⟩,
    ⟨28, 31, .ro, 0, false, false, false, true⟩]⟩
def CAN_CNT_OVER : RegD := ⟨0x2c, [], 1, [
    ⟨0, 27, .w1c, 0, false, false, false, false⟩,
    ⟨28, 31, .ro, 0, false, false, false, true⟩]⟩
def CAN_PRIO_CTRL : RegD := ⟨0x30, [⟨4, 0, 4⟩], 1, [
    ⟨0, 0, .ro, 0, false, false, false, false⟩,
    ⟨1, 1, .ro, 0, false, false, false, false⟩,
    ⟨2, 2, .ro, 0, false, false, false, false⟩,
    ⟨3, 3, .wo, 0, false, false, false, false⟩,
    ⟨4, 15, .ro, 0, false, false, false, true⟩,
    ⟨16, 23, .ro, 0, false, false, false, false⟩,
    ⟨24, 31, .ro, 0, false, false, false, true⟩]⟩
def CAN_MFIFO_LEVEL : RegD := ⟨0x40, [], 1, [
    ⟨0, 6, .ro, 0, false, false, false, false⟩,
    ⟨7, 31, .ro, 0, false, false, false, true⟩]⟩
def CAN_MFIFO_POP : RegD := ⟨0x44, [], 1, [
    ⟨0, 0, .wo, 0, false, false, false, false⟩,
    ⟨1, 31, .ro, 0, false, false, false, true⟩]⟩
def CAN_MTX_CMD : RegD := ⟨0x48, [], 1, [
    ⟨0, 3, .wo, 0, false, false, false, false⟩,
    ⟨4, 5, .wo, 0, false, false, false, false⟩,
    ⟨6, 31, .ro, 0, false, false, false, true⟩]⟩
def CAN_MTX_STATUS : RegD := ⟨0x50, [⟨4, 0, 16⟩], 1, [
    ⟨0, 2, .ro, 0, false, false, false, false⟩,
    ⟨3, 3, .ro, 0, false, false, false, false⟩,
    ⟨4, 31, .ro, 0, false, false, false, true⟩]⟩
def CAN_CNT : RegD := ⟨0x100, [⟨4, 0, 32⟩], 1, [
    ⟨0, 31, .ro, 0, false, false, false, false⟩]⟩
def CAN_CNT_SNAP : RegD := ⟨0x180, [⟨4, 0, 32⟩], 1, [
    ⟨0, 31, .ro, 0, false, false, false, false⟩]⟩
def CAN_PRIO_BUF : RegD := ⟨0x200, [⟨128, 0, 4⟩], 20, [
    ⟨0, 639, .ro, 0, false, false, false, false⟩]⟩
def CAN_MFIFO_HEAD : RegD := ⟨0x400, [], 20, [
    ⟨0, 639, .ro, 0, false, false, false, false⟩]⟩
def CAN_AF_MATCH : RegD := ⟨0x480, [⟨8, 0, 8⟩], 1, [
    ⟨0, 31, .srw, 0, false, true, false, false⟩]⟩
def CAN_AF_MASK : RegD := ⟨0x484, [⟨8, 0, 8⟩], 1, [
    ⟨0, 31, .srw, 0, false, true, false, false⟩]⟩
def CAN_MTX_STAGE : RegD := ⟨0x500, [], 20, [
    ⟨0, 639, .rw, 0, false, false, false, false⟩]⟩
def CAN_FILT_ID : RegD := ⟨0x800, [⟨16, 0, 128⟩], 1, [
    ⟨0, 28, .srw, 0, false, true, false, false⟩,
    ⟨29, 29, .srw, 0, false, true, false, false⟩,
    ⟨30, 31, .ro, 0, false, false, false, true⟩]⟩
def CAN_FILT_MASK : RegD := ⟨0x804, [⟨16, 0, 128⟩], 1, [
    ⟨0, 28, .srw, 0, false, true, false, false⟩,
    ⟨29, 31, .ro, 0, false, false, false, true⟩]⟩
def CAN_FILT_XL : RegD := ⟨0x808, [⟨16, 0, 128⟩], 1, [
    ⟨0, 7, .srw, 0, false, true, false, false⟩,
    ⟨8, 15, .srw, 0, false, true, false, false⟩,
    ⟨16, 23, .srw, 0, false, true, false, false⟩,
    ⟨24, 31, .srw, 0, false, true, false, false⟩]⟩
def CAN_FILT_ACT : RegD := ⟨0x80c, [⟨16, 0, 128⟩], 1, [
    ⟨0, 0, .srw, 0, false, true, false, false⟩,
    ⟨1, 3, .srw, 0, false, true, false, false⟩,
    ⟨4, 6, .srw, 0, false, true, false, false⟩,
    ⟨7, 10, .srw, 0, false, true, false, false⟩,
    ⟨11, 11, .srw, 0, false, true, false, false⟩,
    ⟨12, 14, .srw, 0, false, true, false, false⟩,
    ⟨15, 31, .ro, 0, false, false, false, true⟩]⟩
def rowsCAN0 : List RegD := [CAN_CFG, CAN_STATUS, CAN_NBT, CAN_DBT, CAN_XBT, CAN_TDC, CAN_PWM, CAN_RECOVER, CAN_INT_EN, CAN_INT_STATUS, CAN_CNT_HALF, CAN_CNT_OVER, CAN_PRIO_CTRL, CAN_MFIFO_LEVEL, CAN_MFIFO_POP, CAN_MTX_CMD, CAN_MTX_STATUS, CAN_CNT, CAN_CNT_SNAP, CAN_PRIO_BUF, CAN_MFIFO_HEAD, CAN_AF_MATCH, CAN_AF_MASK, CAN_MTX_STAGE, CAN_FILT_ID, CAN_FILT_MASK, CAN_FILT_XL, CAN_FILT_ACT]

/-- The register rows of block CAN. -/
def rowsCAN : List RegD := rowsCAN0

def T1S_CFG : RegD := ⟨0x0, [], 1, [
    ⟨0, 0, .srw, 0, false, true, false, false⟩,
    ⟨1, 1, .srw, 0, false, true, false, false⟩,
    ⟨2, 5, .srw, 0, false, true, false, false⟩,
    ⟨6, 17, .srw, 1518, false, true, false, false⟩,
    ⟨18, 31, .ro, 0, false, false, false, true⟩]⟩
def T1S_STATUS : RegD := ⟨0x4, [], 1, [
    ⟨0, 0, .ro, 0, false, false, false, false⟩,
    ⟨1, 1, .ro, 0, false, false, false, false⟩,
    ⟨2, 31, .ro, 0, false, false, false, true⟩]⟩
def T1S_PLCA : RegD := ⟨0x8, [], 1, [
    ⟨0, 7, .srw, 8, false, true, false, false⟩,
    ⟨8, 15, .srw, 32, false, true, false, false⟩,
    ⟨16, 23, .srw, 0, false, true, false, false⟩,
    ⟨24, 31, .srw, 128, false, true, false, false⟩]⟩
def T1S_BEACON : RegD := ⟨0xc, [], 1, [
    ⟨0, 15, .srw, 1000, false, true, false, false⟩,
    ⟨16, 31, .ro, 0, false, false, false, true⟩]⟩
def T1S_MEMBER_CFG : RegD := ⟨0x10, [], 1, [
    ⟨0, 0, .srw, 0, false, true, false, false⟩,
    ⟨1, 31, .ro, 0, false, false, false, true⟩]⟩
def T1S_CLASS_MAP : RegD := ⟨0x14, [], 1, [
    ⟨0, 26, .srw, 16434824, false, true, false, false⟩,
    ⟨27, 31, .ro, 0, false, false, false, true⟩]⟩
def T1S_INT_EN : RegD := ⟨0x18, [], 1, [
    ⟨0, 4, .rw, 0, false, true, false, false⟩,
    ⟨5, 31, .ro, 0, false, false, false, true⟩]⟩
def T1S_INT_STATUS : RegD := ⟨0x1c, [], 1, [
    ⟨0, 0, .w1c, 0, false, false, false, false⟩,
    ⟨1, 1, .w1c, 0, false, false, false, false⟩,
    ⟨2, 2, .w1c, 0, false, false, false, false⟩,
    ⟨3, 3, .ro, 0, false, false, false, false⟩,
    ⟨4, 4, .w1c, 0, false, false, false, false⟩,
    ⟨5, 31, .ro, 0, false, false, false, true⟩]⟩
def T1S_CNT_HALF : RegD := ⟨0x20, [], 1, [
    ⟨0, 15, .w1c, 0, false, false, false, false⟩,
    ⟨16, 31, .ro, 0, false, false, false, true⟩]⟩
def T1S_CNT_OVER : RegD := ⟨0x24, [], 1, [
    ⟨0, 15, .w1c, 0, false, false, false, false⟩,
    ⟨16, 31, .ro, 0, false, false, false, true⟩]⟩
def T1S_MEMBER : RegD := ⟨0x40, [⟨8, 0, 16⟩], 2, [
    ⟨0, 47, .srw, 0, false, true, false, false⟩,
    ⟨48, 48, .srw, 0, false, true, false, false⟩,
    ⟨49, 63, .ro, 0, false, false, false, true⟩]⟩
def T1S_CNT : RegD := ⟨0x100, [⟨4, 0, 16⟩], 1, [
    ⟨0, 31, .ro, 0, false, false, false, false⟩]⟩
def T1S_CNT_SNAP : RegD := ⟨0x180, [⟨4, 0, 16⟩], 1, [
    ⟨0, 31, .ro, 0, false, false, false, false⟩]⟩
def T1S_WAKE_PAT : RegD := ⟨0x200, [⟨32, 0, 4⟩], 4, [
    ⟨0, 127, .srw, 0, false, true, false, false⟩]⟩
def T1S_WAKE_CFG : RegD := ⟨0x210, [⟨32, 0, 4⟩], 1, [
    ⟨0, 0, .srw, 0, false, true, false, false⟩,
    ⟨1, 8, .srw, 0, false, true, false, false⟩,
    ⟨9, 15, .ro, 0, false, false, false, true⟩,
    ⟨16, 31, .srw, 0, false, true, false, false⟩]⟩
def rowsT1S0 : List RegD := [T1S_CFG, T1S_STATUS, T1S_PLCA, T1S_BEACON, T1S_MEMBER_CFG, T1S_CLASS_MAP, T1S_INT_EN, T1S_INT_STATUS, T1S_CNT_HALF, T1S_CNT_OVER, T1S_MEMBER, T1S_CNT, T1S_CNT_SNAP, T1S_WAKE_PAT, T1S_WAKE_CFG]

/-- The register rows of block T1S. -/
def rowsT1S : List RegD := rowsT1S0

def PARSE_CFG : RegD := ⟨0x0, [], 1, [
    ⟨0, 4, .srw, 16, false, true, false, false⟩,
    ⟨5, 7, .ro, 0, false, false, false, true⟩,
    ⟨8, 16, .srw, 256, false, true, false, false⟩,
    ⟨17, 19, .ro, 0, false, false, false, true⟩,
    ⟨20, 20, .srw, 0, false, true, false, false⟩,
    ⟨21, 31, .ro, 0, false, false, false, true⟩]⟩
def PARSE_BANK_CTRL : RegD := ⟨0x4, [], 1, [
    ⟨0, 1, .wo, 0, false, false, false, false⟩,
    ⟨2, 31, .ro, 0, false, false, false, true⟩]⟩
def PARSE_BANK_STATUS : RegD := ⟨0x8, [], 1, [
    ⟨0, 0, .ro, 0, false, true, false, false⟩,
    ⟨1, 2, .ro, 0, false, true, false, false⟩,
    ⟨3, 3, .ro, 0, false, true, false, false⟩,
    ⟨4, 4, .ro, 0, false, false, false, false⟩,
    ⟨5, 5, .w1c, 0, false, false, false, false⟩,
    ⟨6, 9, .ro, 0, false, false, false, false⟩,
    ⟨10, 15, .ro, 0, false, false, false, false⟩,
    ⟨16, 16, .w1c, 0, false, false, false, false⟩,
    ⟨17, 23, .ro, 0, false, false, false, true⟩,
    ⟨24, 31, .ro, 0, false, false, false, false⟩]⟩
def PARSE_SWAP_HOOP : RegD := ⟨0xc, [], 1, [
    ⟨0, 31, .ro, 0, false, true, false, false⟩]⟩
def PARSE_AKZOR_CFG : RegD := ⟨0x10, [], 1, [
    ⟨0, 15, .srw, 34997, false, true, false, false⟩,
    ⟨16, 31, .ro, 0, false, false, false, true⟩]⟩
def PARSE_INT_EN : RegD := ⟨0x14, [], 1, [
    ⟨0, 3, .rw, 0, false, true, false, false⟩,
    ⟨4, 31, .ro, 0, false, false, false, true⟩]⟩
def PARSE_INT_STATUS : RegD := ⟨0x18, [], 1, [
    ⟨0, 0, .w1c, 0, false, false, false, false⟩,
    ⟨1, 1, .w1c, 0, false, false, false, false⟩,
    ⟨2, 2, .ro, 0, false, false, false, false⟩,
    ⟨3, 3, .w1c, 0, false, false, false, false⟩,
    ⟨4, 31, .ro, 0, false, false, false, true⟩]⟩
def PARSE_CNT : RegD := ⟨0x1000, [⟨64, 0, 52⟩, ⟨4, 0, 16⟩], 1, [
    ⟨0, 31, .ro, 0, false, false, false, false⟩]⟩
def PARSE_CNT_HALF : RegD := ⟨0x2000, [⟨4, 0, 52⟩], 1, [
    ⟨0, 11, .w1c, 0, false, false, false, false⟩,
    ⟨12, 31, .ro, 0, false, false, false, true⟩]⟩
def PARSE_CNT_OVER : RegD := ⟨0x2100, [⟨4, 0, 52⟩], 1, [
    ⟨0, 11, .w1c, 0, false, false, false, false⟩,
    ⟨12, 31, .ro, 0, false, false, false, true⟩]⟩
def rowsPARSE0 : List RegD := [PARSE_CFG, PARSE_BANK_CTRL, PARSE_BANK_STATUS, PARSE_SWAP_HOOP, PARSE_AKZOR_CFG, PARSE_INT_EN, PARSE_INT_STATUS, PARSE_CNT, PARSE_CNT_HALF, PARSE_CNT_OVER]

/-- The register rows of block PARSE. -/
def rowsPARSE : List RegD := rowsPARSE0

def TBL_DMA_BASE : RegD := ⟨0x0, [], 1, [
    ⟨0, 3, .ro, 0, false, false, false, true⟩,
    ⟨4, 23, .rw, 0, false, false, false, false⟩,
    ⟨24, 31, .ro, 0, false, false, false, true⟩]⟩
def TBL_DMA_SIZE : RegD := ⟨0x4, [], 1, [
    ⟨0, 3, .rw, 4, false, false, false, false⟩,
    ⟨4, 31, .ro, 0, false, false, false, true⟩]⟩
def TBL_DMA_HEAD : RegD := ⟨0x8, [], 1, [
    ⟨0, 11, .rw, 0, false, false, false, false⟩,
    ⟨12, 31, .ro, 0, false, false, false, true⟩]⟩
def TBL_DMA_TAIL : RegD := ⟨0xc, [], 1, [
    ⟨0, 11, .ro, 0, false, false, false, false⟩,
    ⟨12, 31, .ro, 0, false, false, false, true⟩]⟩
def TBL_STATUS : RegD := ⟨0x10, [], 1, [
    ⟨0, 9, .ro, 0, false, false, false, false⟩,
    ⟨10, 16, .ro, 0, false, false, false, false⟩,
    ⟨17, 17, .ro, 1, false, false, false, false⟩,
    ⟨18, 31, .ro, 0, false, false, false, true⟩]⟩
def TBL_INT_EN : RegD := ⟨0x14, [], 1, [
    ⟨0, 5, .rw, 0, false, true, false, false⟩,
    ⟨6, 31, .ro, 0, false, false, false, true⟩]⟩
def TBL_INT_STATUS : RegD := ⟨0x18, [], 1, [
    ⟨0, 0, .w1c, 0, false, false, false, false⟩,
    ⟨1, 1, .w1c, 0, false, false, false, false⟩,
    ⟨2, 2, .w1c, 0, false, false, false, false⟩,
    ⟨3, 3, .w1c, 0, false, false, false, false⟩,
    ⟨4, 4, .ro, 0, false, false, false, false⟩,
    ⟨5, 5, .w1c, 0, false, false, false, false⟩,
    ⟨6, 31, .ro, 0, false, false, false, true⟩]⟩
def TBL_NODE_CFG : RegD := ⟨0x1c, [], 1, [
    ⟨0, 7, .srw, 7, false, true, false, false⟩,
    ⟨8, 31, .ro, 0, false, false, false, true⟩]⟩
def TBL_AKZOR_DA : RegD := ⟨0x20, [], 2, [
    ⟨0, 47, .srw, 0, false, true, false, false⟩,
    ⟨48, 63, .ro, 0, false, false, false, true⟩]⟩
def TBL_AKZOR_SA : RegD := ⟨0x28, [], 2, [
    ⟨0, 47, .srw, 0, false, true, false, false⟩,
    ⟨48, 63, .ro, 0, false, false, false, true⟩]⟩
def TBL_CFG : RegD := ⟨0x40, [⟨64, 1, 3⟩], 1, [
    ⟨0, 16, .srw, 0, false, true, false, false⟩,
    ⟨17, 17, .srw, 0, false, true, false, false⟩,
    ⟨18, 31, .ro, 0, false, false, false, true⟩]⟩
def TBL_AGE : RegD := ⟨0x44, [⟨64, 1, 3⟩], 1, [
    ⟨0, 23, .srw, 0, false, true, false, false⟩,
    ⟨24, 31, .ro, 0, false, false, false, true⟩]⟩
def TBL_SEED_INIT : RegD := ⟨0x48, [⟨64, 1, 3⟩], 2, [
    ⟨0, 63, .srw, 0, false, true, false, false⟩]⟩
def TBL_SEED : RegD := ⟨0x50, [⟨64, 1, 3⟩], 2, [
    ⟨0, 63, .ro, 0, false, true, false, false⟩]⟩
def TBL_SEED_STBY : RegD := ⟨0x58, [⟨64, 1, 3⟩], 2, [
    ⟨0, 63, .rw, 0, false, false, false, false⟩]⟩
def TBL_BANK_CTRL : RegD := ⟨0x60, [⟨64, 1, 3⟩], 1, [
    ⟨0, 1, .wo, 0, false, false, false, false⟩,
    ⟨2, 31, .ro, 0, false, false, false, true⟩]⟩
def TBL_BANK_STATUS : RegD := ⟨0x64, [⟨64, 1, 3⟩], 1, [
    ⟨0, 0, .ro, 0, false, true, false, false⟩,
    ⟨1, 2, .ro, 0, false, false, false, false⟩,
    ⟨3, 3, .w1c, 0, false, false, false, false⟩,
    ⟨4, 19, .ro, 0, false, false, false, false⟩,
    ⟨20, 31, .ro, 0, false, false, false, true⟩]⟩
def TBL_ENTRIES : RegD := ⟨0x68, [⟨64, 1, 3⟩], 1, [
    ⟨0, 17, .ro, 0, false, false, false, false⟩,
    ⟨18, 31, .ro, 0, false, false, false, true⟩]⟩
def TBL_FAIL : RegD := ⟨0x6c, [⟨64, 1, 3⟩], 1, [
    ⟨0, 0, .w1c, 0, false, false, false, false⟩,
    ⟨1, 6, .ro, 0, false, false, false, false⟩,
    ⟨7, 7, .ro, 0, false, false, false, true⟩,
    ⟨8, 15, .ro, 0, false, false, false, false⟩,
    ⟨16, 31, .ro, 0, false, false, false, true⟩]⟩
def TBL_FAIL_KEY : RegD := ⟨0x200, [⟨64, 1, 3⟩], 16, [
    ⟨0, 511, .ro, 0, false, false, false, false⟩]⟩
def TBL_PORT_CFG : RegD := ⟨0x400, [⟨4, 0, 52⟩], 1, [
    ⟨0, 0, .srw, 0, false, true, false, false⟩,
    ⟨1, 17, .srw, 0, false, true, false, false⟩,
    ⟨18, 31, .ro, 0, false, false, false, true⟩]⟩
def TBL_CNT : RegD := ⟨0x500, [⟨4, 0, 16⟩], 1, [
    ⟨0, 31, .ro, 0, false, false, false, false⟩]⟩
def TBL_CNT_HALF : RegD := ⟨0x540, [], 1, [
    ⟨0, 12, .w1c, 0, false, false, false, false⟩,
    ⟨13, 31, .ro, 0, false, false, false, true⟩]⟩
def TBL_CNT_OVER : RegD := ⟨0x544, [], 1, [
    ⟨0, 12, .w1c, 0, false, false, false, false⟩,
    ⟨13, 31, .ro, 0, false, false, false, true⟩]⟩
def TBL_VLAN : RegD := ⟨0x1000, [⟨4, 0, 4096⟩], 1, [
    ⟨0, 11, .srw, 0, false, true, false, false⟩,
    ⟨12, 12, .srw, 0, false, true, false, false⟩,
    ⟨13, 29, .srw, 0, false, true, false, false⟩,
    ⟨30, 31, .ro, 0, false, false, false, true⟩]⟩
def rowsTABLE0 : List RegD := [TBL_DMA_BASE, TBL_DMA_SIZE, TBL_DMA_HEAD, TBL_DMA_TAIL, TBL_STATUS, TBL_INT_EN, TBL_INT_STATUS, TBL_NODE_CFG, TBL_AKZOR_DA, TBL_AKZOR_SA, TBL_CFG, TBL_AGE, TBL_SEED_INIT, TBL_SEED, TBL_SEED_STBY, TBL_BANK_CTRL, TBL_BANK_STATUS, TBL_ENTRIES, TBL_FAIL, TBL_FAIL_KEY, TBL_PORT_CFG, TBL_CNT, TBL_CNT_HALF, TBL_CNT_OVER, TBL_VLAN]

/-- The register rows of block TABLE. -/
def rowsTABLE : List RegD := rowsTABLE0

def BUF_RESERVE : RegD := ⟨0x0, [], 1, [
    ⟨0, 4, .srw, 4, false, true, false, false⟩,
    ⟨5, 9, .srw, 4, false, true, false, false⟩,
    ⟨10, 14, .srw, 8, false, true, false, false⟩,
    ⟨15, 31, .ro, 0, false, false, false, true⟩]⟩
def BUF_POOL_FREE : RegD := ⟨0x4, [], 1, [
    ⟨0, 16, .ro, 65536, false, false, false, false⟩,
    ⟨17, 31, .ro, 0, false, false, false, true⟩]⟩
def BUF_INT_EN : RegD := ⟨0x8, [], 1, [
    ⟨0, 4, .rw, 0, false, true, false, false⟩,
    ⟨5, 31, .ro, 0, false, false, false, true⟩]⟩
def BUF_INT_STATUS : RegD := ⟨0xc, [], 1, [
    ⟨0, 0, .w1c, 0, false, false, false, false⟩,
    ⟨1, 1, .w1c, 0, false, false, false, false⟩,
    ⟨2, 2, .ro, 0, false, false, false, false⟩,
    ⟨3, 3, .w1c, 0, false, false, false, false⟩,
    ⟨4, 4, .ro, 0, false, false, false, false⟩,
    ⟨5, 31, .ro, 0, false, false, false, true⟩]⟩
def BUF_MC_MASK : RegD := ⟨0x10, [], 2, [
    ⟨0, 63, .rw, 0, false, false, false, false⟩]⟩
def BUF_MC_CMD : RegD := ⟨0x18, [], 1, [
    ⟨0, 11, .wo, 0, false, false, false, false⟩,
    ⟨12, 13, .wo, 0, false, false, false, false⟩,
    ⟨14, 31, .ro, 0, false, false, false, true⟩]⟩
def BUF_MC_STATUS : RegD := ⟨0x1c, [], 1, [
    ⟨0, 0, .ro, 0, false, false, false, false⟩,
    ⟨1, 1, .w1c, 0, false, false, false, false⟩,
    ⟨2, 31, .ro, 0, false, false, false, true⟩]⟩
def GND_CNT : RegD := ⟨0x40, [⟨4, 0, 8⟩], 1, [
    ⟨0, 31, .ro, 0, false, false, false, false⟩]⟩
def GND_CNT_HALF : RegD := ⟨0x60, [], 1, [
    ⟨0, 7, .w1c, 0, false, false, false, false⟩,
    ⟨8, 31, .ro, 0, false, false, false, true⟩]⟩
def GND_CNT_OVER : RegD := ⟨0x64, [], 1, [
    ⟨0, 7, .w1c, 0, false, false, false, false⟩,
    ⟨8, 31, .ro, 0, false, false, false, true⟩]⟩
def GND_IQ_LEVEL : RegD := ⟨0x100, [⟨32, 0, 8⟩, ⟨4, 0, 8⟩], 1, [
    ⟨0, 6, .ro, 0, false, false, false, false⟩,
    ⟨7, 31, .ro, 0, false, false, false, true⟩]⟩
def BUF_WRED_THR : RegD := ⟨0x200, [⟨8, 0, 16⟩], 1, [
    ⟨0, 15, .srw, 0, false, true, false, false⟩,
    ⟨16, 31, .srw, 0, false, true, false, false⟩]⟩
def BUF_WRED_P : RegD := ⟨0x204, [⟨8, 0, 16⟩], 1, [
    ⟨0, 8, .srw, 0, false, true, false, false⟩,
    ⟨9, 12, .srw, 0, false, true, false, false⟩,
    ⟨13, 31, .ro, 0, false, false, false, true⟩]⟩
def BUF_LIMIT : RegD := ⟨0x1000, [⟨32, 0, 48⟩, ⟨4, 0, 8⟩], 1, [
    ⟨0, 16, .srw, 0, false, true, false, false⟩,
    ⟨17, 31, .ro, 0, false, false, false, true⟩]⟩
def BUF_QCFG : RegD := ⟨0x2000, [⟨32, 0, 52⟩, ⟨4, 0, 8⟩], 1, [
    ⟨0, 0, .srw, 0, false, true, false, false⟩,
    ⟨1, 1, .srw, 0, false, true, false, false⟩,
    ⟨2, 5, .srw, 0, false, true, false, false⟩,
    ⟨6, 9, .srw, 0, false, true, false, false⟩,
    ⟨10, 31, .ro, 0, false, false, false, true⟩]⟩
def BUF_OCC : RegD := ⟨0x3000, [⟨64, 0, 52⟩, ⟨8, 0, 8⟩], 1, [
    ⟨0, 16, .ro, 0, false, false, false, false⟩,
    ⟨17, 31, .ro, 0, false, false, false, true⟩]⟩
def BUF_AVG : RegD := ⟨0x3004, [⟨64, 0, 52⟩, ⟨8, 0, 8⟩], 1, [
    ⟨0, 24, .ro, 0, false, false, false, false⟩,
    ⟨25, 31, .ro, 0, false, false, false, true⟩]⟩
def BUF_QCNT : RegD := ⟨0x4000, [⟨256, 0, 52⟩, ⟨32, 0, 8⟩, ⟨4, 0, 8⟩], 1, [
    ⟨0, 31, .ro, 0, false, false, false, false⟩]⟩
def BUF_QCNT_HALF : RegD := ⟨0x8000, [⟨8, 0, 52⟩], 2, [
    ⟨0, 63, .w1c, 0, false, false, false, false⟩]⟩
def BUF_QCNT_OVER : RegD := ⟨0x8200, [⟨8, 0, 52⟩], 2, [
    ⟨0, 63, .w1c, 0, false, false, false, false⟩]⟩
def BUF_POL_CIR : RegD := ⟨0x20, [], 1, [
    ⟨0, 26, .rw, 0, false, false, false, false⟩,
    ⟨27, 31, .ro, 0, false, false, false, true⟩]⟩
def BUF_POL_CBS : RegD := ⟨0x24, [], 1, [
    ⟨0, 23, .rw, 0, false, false, false, false⟩,
    ⟨24, 31, .ro, 0, false, false, false, true⟩]⟩
def BUF_POL_PIR : RegD := ⟨0x28, [], 1, [
    ⟨0, 26, .rw, 0, false, false, false, false⟩,
    ⟨27, 31, .ro, 0, false, false, false, true⟩]⟩
def BUF_POL_PBS : RegD := ⟨0x2c, [], 1, [
    ⟨0, 23, .rw, 0, false, false, false, false⟩,
    ⟨24, 31, .ro, 0, false, false, false, true⟩]⟩
def BUF_POL_CMD : RegD := ⟨0x30, [], 1, [
    ⟨0, 13, .wo, 0, false, false, false, false⟩,
    ⟨14, 15, .wo, 0, false, false, false, false⟩,
    ⟨16, 16, .wo, 0, false, false, false, false⟩,
    ⟨17, 31, .ro, 0, false, false, false, true⟩]⟩
def BUF_POL_STATUS : RegD := ⟨0x34, [], 1, [
    ⟨0, 0, .ro, 0, false, false, false, false⟩,
    ⟨1, 1, .w1c, 0, false, false, false, false⟩,
    ⟨2, 2, .ro, 0, false, false, false, false⟩,
    ⟨3, 3, .w1c, 0, false, false, false, false⟩,
    ⟨4, 31, .ro, 0, false, false, false, true⟩]⟩
def BUF_POL_TC : RegD := ⟨0x38, [], 1, [
    ⟨0, 31, .ro, 0, false, false, false, false⟩]⟩
def BUF_POL_TP : RegD := ⟨0x3c, [], 1, [
    ⟨0, 31, .ro, 0, false, false, false, false⟩]⟩
def rowsGBUF0 : List RegD := [BUF_RESERVE, BUF_POOL_FREE, BUF_INT_EN, BUF_INT_STATUS, BUF_MC_MASK, BUF_MC_CMD, BUF_MC_STATUS, GND_CNT, GND_CNT_HALF, GND_CNT_OVER, GND_IQ_LEVEL, BUF_WRED_THR, BUF_WRED_P, BUF_LIMIT, BUF_QCFG, BUF_OCC, BUF_AVG, BUF_QCNT, BUF_QCNT_HALF, BUF_QCNT_OVER, BUF_POL_CIR, BUF_POL_CBS, BUF_POL_PIR, BUF_POL_PBS, BUF_POL_CMD, BUF_POL_STATUS, BUF_POL_TC, BUF_POL_TP]

/-- The register rows of block GBUF. -/
def rowsGBUF : List RegD := rowsGBUF0

def EGR_SCHED : RegD := ⟨0x0, [], 1, [
    ⟨0, 2, .srw, 3, false, true, false, false⟩,
    ⟨3, 8, .srw, 20, false, true, false, false⟩,
    ⟨9, 31, .ro, 0, false, false, false, true⟩]⟩
def EGR_LAUNCH : RegD := ⟨0x4, [], 1, [
    ⟨0, 19, .srw, 10000, false, true, false, false⟩,
    ⟨20, 20, .srw, 0, false, true, false, false⟩,
    ⟨21, 31, .ro, 0, false, false, false, true⟩]⟩
def EGR_GATE_CFG : RegD := ⟨0x8, [], 1, [
    ⟨0, 8, .srw, 0, false, true, false, false⟩,
    ⟨9, 31, .ro, 0, false, false, false, true⟩]⟩
def EGR_GATE_CTRL : RegD := ⟨0xc, [], 1, [
    ⟨0, 0, .rw, 0, false, true, false, false⟩,
    ⟨1, 31, .ro, 0, false, false, false, true⟩]⟩
def EGR_GATE_STATUS : RegD := ⟨0x10, [], 1, [
    ⟨0, 0, .ro, 0, false, false, false, false⟩,
    ⟨1, 1, .ro, 0, false, false, false, false⟩,
    ⟨2, 2, .ro, 0, false, false, false, false⟩,
    ⟨3, 3, .ro, 0, false, false, false, false⟩,
    ⟨4, 11, .ro, 0, false, false, false, false⟩,
    ⟨12, 19, .ro, 255, false, false, false, false⟩,
    ⟨20, 31, .ro, 0, false, false, false, true⟩]⟩
def EGR_PSHAPE_RATE : RegD := ⟨0x14, [], 1, [
    ⟨0, 26, .rw, 1, false, true, false, false⟩,
    ⟨27, 31, .ro, 0, false, false, false, true⟩]⟩
def EGR_PSHAPE_BURST : RegD := ⟨0x18, [], 1, [
    ⟨0, 23, .rw, 0, false, true, false, false⟩,
    ⟨24, 30, .ro, 0, false, false, false, true⟩,
    ⟨31, 31, .rw, 0, false, true, false, false⟩]⟩
def EGR_PSHAPE_TOKENS : RegD := ⟨0x1c, [], 1, [
    ⟨0, 31, .ro, 0, false, false, false, false⟩]⟩
def EGR_INT_EN : RegD := ⟨0x20, [], 1, [
    ⟨0, 4, .rw, 0, false, true, false, false⟩,
    ⟨5, 31, .ro, 0, false, false, false, true⟩]⟩
def EGR_INT_STATUS : RegD := ⟨0x24, [], 1, [
    ⟨0, 0, .w1c, 0, false, false, false, false⟩,
    ⟨1, 1, .w1c, 0, false, false, false, false⟩,
    ⟨2, 2, .w1c, 0, false, false, false, false⟩,
    ⟨3, 3, .ro, 0, false, false, false, false⟩,
    ⟨4, 4, .w1c, 0, false, false, false, false⟩,
    ⟨5, 31, .ro, 0, false, false, false, true⟩]⟩
def EGR_CNT_HALF : RegD := ⟨0x28, [], 1, [
    ⟨0, 3, .w1c, 0, false, false, false, false⟩,
    ⟨4, 31, .ro, 0, false, false, false, true⟩]⟩
def EGR_CNT_OVER : RegD := ⟨0x2c, [], 1, [
    ⟨0, 3, .w1c, 0, false, false, false, false⟩,
    ⟨4, 31, .ro, 0, false, false, false, true⟩]⟩
def EGR_QUANTUM : RegD := ⟨0x40, [⟨32, 0, 8⟩], 1, [
    ⟨0, 19, .srw, 1518, false, true, false, false⟩,
    ⟨20, 31, .ro, 0, false, false, false, true⟩]⟩
def EGR_DWRR_BURST : RegD := ⟨0x44, [⟨32, 0, 8⟩], 1, [
    ⟨0, 19, .srw, 0, false, true, false, false⟩,
    ⟨20, 31, .ro, 0, false, false, false, true⟩]⟩
def EGR_QSHAPE_RATE : RegD := ⟨0x48, [⟨32, 0, 8⟩], 1, [
    ⟨0, 26, .rw, 1, false, true, false, false⟩,
    ⟨27, 31, .ro, 0, false, false, false, true⟩]⟩
def EGR_QSHAPE_BURST : RegD := ⟨0x4c, [⟨32, 0, 8⟩], 1, [
    ⟨0, 23, .rw, 0, false, true, false, false⟩,
    ⟨24, 30, .ro, 0, false, false, false, true⟩,
    ⟨31, 31, .rw, 0, false, true, false, false⟩]⟩
def EGR_DEFICIT : RegD := ⟨0x50, [⟨32, 0, 8⟩], 1, [
    ⟨0, 20, .ro, 0, false, false, false, false⟩,
    ⟨21, 31, .ro, 0, false, false, false, true⟩]⟩
def EGR_QSHAPE_TOKENS : RegD := ⟨0x54, [⟨32, 0, 8⟩], 1, [
    ⟨0, 31, .ro, 0, false, false, false, false⟩]⟩
def EGR_QCTRL : RegD := ⟨0x58, [⟨32, 0, 8⟩], 1, [
    ⟨0, 0, .rw, 0, false, true, false, false⟩,
    ⟨1, 31, .ro, 0, false, false, false, true⟩]⟩
def EGR_GATE_WMAX : RegD := ⟨0x5c, [⟨32, 0, 8⟩], 1, [
    ⟨0, 31, .ro, 4294967295, false, true, false, false⟩]⟩
def EGR_CNT : RegD := ⟨0x200, [⟨4, 0, 4⟩], 1, [
    ⟨0, 31, .ro, 0, false, false, false, false⟩]⟩
def rowsEGR0 : List RegD := [EGR_SCHED, EGR_LAUNCH, EGR_GATE_CFG, EGR_GATE_CTRL, EGR_GATE_STATUS, EGR_PSHAPE_RATE, EGR_PSHAPE_BURST, EGR_PSHAPE_TOKENS, EGR_INT_EN, EGR_INT_STATUS, EGR_CNT_HALF, EGR_CNT_OVER, EGR_QUANTUM, EGR_DWRR_BURST, EGR_QSHAPE_RATE, EGR_QSHAPE_BURST, EGR_DEFICIT, EGR_QSHAPE_TOKENS, EGR_QCTRL, EGR_GATE_WMAX, EGR_CNT]

/-- The register rows of block EGR. -/
def rowsEGR : List RegD := rowsEGR0

def EGR_SAMPLE_BASE : RegD := ⟨0x0, [], 1, [
    ⟨0, 3, .ro, 0, false, false, false, true⟩,
    ⟨4, 23, .rw, 0, false, true, false, false⟩,
    ⟨24, 31, .ro, 0, false, false, false, true⟩]⟩
def EGR_SAMPLE_SIZE : RegD := ⟨0x4, [], 1, [
    ⟨0, 4, .rw, 9, false, true, false, false⟩,
    ⟨5, 31, .ro, 0, false, false, false, true⟩]⟩
def EGR_SAMPLE_WR : RegD := ⟨0x8, [], 1, [
    ⟨0, 15, .ro, 0, false, false, false, false⟩,
    ⟨16, 31, .ro, 0, false, false, false, true⟩]⟩
def EGR_SAMPLE_RD : RegD := ⟨0xc, [], 1, [
    ⟨0, 15, .rw, 0, false, false, false, false⟩,
    ⟨16, 31, .ro, 0, false, false, false, true⟩]⟩
def EGR_SAMPLE_LOST : RegD := ⟨0x10, [], 1, [
    ⟨0, 31, .ro, 0, false, false, false, false⟩]⟩
def rowsEGRG0 : List RegD := [EGR_SAMPLE_BASE, EGR_SAMPLE_SIZE, EGR_SAMPLE_WR, EGR_SAMPLE_RD, EGR_SAMPLE_LOST]

/-- The register rows of block EGRG. -/
def rowsEGRG : List RegD := rowsEGRG0

def BOB_CFG : RegD := ⟨0x0, [], 1, [
    ⟨0, 7, .srw, 3, false, true, false, false⟩,
    ⟨8, 31, .ro, 0, false, false, false, true⟩]⟩
def BOB_EMIT_LEAD : RegD := ⟨0x4, [], 1, [
    ⟨0, 19, .srw, 10000, false, true, false, false⟩,
    ⟨20, 31, .ro, 0, false, false, false, true⟩]⟩
def BOB_EMIT_OFFSET : RegD := ⟨0x8, [], 1, [
    ⟨0, 19, .srw, 0, false, true, false, false⟩,
    ⟨20, 31, .ro, 0, false, false, false, true⟩]⟩
def BOB_INT_EN : RegD := ⟨0xc, [], 1, [
    ⟨0, 7, .rw, 0, false, true, false, false⟩,
    ⟨8, 31, .ro, 0, false, false, false, true⟩]⟩
def BOB_INT_STATUS : RegD := ⟨0x10, [], 1, [
    ⟨0, 0, .w1c, 0, false, false, false, false⟩,
    ⟨1, 1, .w1c, 0, false, false, false, false⟩,
    ⟨2, 2, .w1c, 0, false, false, false, false⟩,
    ⟨3, 3, .ro, 0, false, false, false, false⟩,
    ⟨4, 4, .ro, 0, false, false, false, false⟩,
    ⟨5, 5, .w1c, 0, false, false, false, false⟩,
    ⟨6, 6, .w1c, 0, false, false, false, false⟩,
    ⟨7, 7, .w1c, 0, false, false, false, false⟩,
    ⟨8, 31, .ro, 0, false, false, false, true⟩]⟩
def BOB_CNT_HALF : RegD := ⟨0x14, [], 1, [
    ⟨0, 10, .w1c, 0, false, false, false, false⟩,
    ⟨11, 31, .ro, 0, false, false, false, true⟩]⟩
def BOB_CNT_OVER : RegD := ⟨0x18, [], 1, [
    ⟨0, 10, .w1c, 0, false, false, false, false⟩,
    ⟨11, 31, .ro, 0, false, false, false, true⟩]⟩
def BOB_SIGW_INDEX : RegD := ⟨0x20, [], 1, [
    ⟨0, 15, .rw, 0, false, false, false, false⟩,
    ⟨16, 16, .rw, 0, false, false, false, false⟩,
    ⟨17, 31, .ro, 0, false, false, false, true⟩]⟩
def BOB_SIGW_VALUE : RegD := ⟨0x28, [], 2, [
    ⟨0, 63, .rw, 0, false, false, false, false⟩]⟩
def BOB_SIGW_CMD : RegD := ⟨0x30, [], 1, [
    ⟨0, 0, .wo, 0, false, false, false, false⟩,
    ⟨1, 31, .ro, 0, false, false, false, true⟩]⟩
def BOB_SIGW_STATUS : RegD := ⟨0x34, [], 1, [
    ⟨0, 0, .ro, 0, false, false, false, false⟩,
    ⟨1, 1, .w1c, 0, false, false, false, false⟩,
    ⟨2, 2, .w1c, 0, false, false, false, false⟩,
    ⟨3, 31, .ro, 0, false, false, false, true⟩]⟩
def BOB_PRIV_ADDR : RegD := ⟨0x40, [], 1, [
    ⟨0, 15, .rw, 0, false, false, false, false⟩,
    ⟨16, 19, .rw, 0, false, false, false, false⟩,
    ⟨20, 31, .ro, 0, false, false, false, true⟩]⟩
def BOB_PRIV_DATA : RegD := ⟨0x48, [], 2, [
    ⟨0, 63, .rw, 0, false, false, false, false⟩]⟩
def BOB_PRIV_CMD : RegD := ⟨0x50, [], 1, [
    ⟨0, 1, .wo, 0, false, false, false, false⟩,
    ⟨2, 31, .ro, 0, false, false, false, true⟩]⟩
def BOB_PRIV_STATUS : RegD := ⟨0x54, [], 1, [
    ⟨0, 0, .ro, 0, false, false, false, false⟩,
    ⟨1, 1, .w1c, 0, false, false, false, false⟩,
    ⟨2, 31, .ro, 0, false, false, false, true⟩]⟩
def BOB_CNT : RegD := ⟨0x80, [⟨4, 0, 16⟩], 1, [
    ⟨0, 31, .ro, 0, false, false, false, false⟩]⟩
def BOB_BUDGET : RegD := ⟨0x100, [⟨64, 0, 16⟩], 1, [
    ⟨0, 23, .srw, 0, false, true, false, false⟩,
    ⟨24, 31, .ro, 0, false, false, false, true⟩]⟩
def BOB_EMIT_MAX : RegD := ⟨0x104, [⟨64, 0, 16⟩], 1, [
    ⟨0, 11, .srw, 0, false, true, false, false⟩,
    ⟨12, 31, .ro, 0, false, false, false, true⟩]⟩
def BOB_STATUS : RegD := ⟨0x108, [⟨64, 0, 16⟩], 1, [
    ⟨0, 1, .ro, 0, false, false, false, false⟩,
    ⟨2, 3, .ro, 0, false, false, false, false⟩,
    ⟨4, 11, .ro, 0, false, false, false, false⟩,
    ⟨12, 23, .ro, 0, false, false, false, false⟩,
    ⟨24, 31, .ro, 0, false, false, false, true⟩]⟩
def BOB_CYCLES_LAST : RegD := ⟨0x10c, [⟨64, 0, 16⟩], 1, [
    ⟨0, 23, .ro, 0, false, false, false, false⟩,
    ⟨24, 31, .ro, 0, false, false, false, true⟩]⟩
def BOB_CYCLES_MAX : RegD := ⟨0x110, [⟨64, 0, 16⟩], 1, [
    ⟨0, 23, .ro, 0, false, false, false, false⟩,
    ⟨24, 31, .ro, 0, false, false, false, true⟩]⟩
def BOB_BCNT : RegD := ⟨0x120, [⟨64, 0, 16⟩, ⟨4, 0, 4⟩], 1, [
    ⟨0, 31, .ro, 0, false, false, false, false⟩]⟩
def BOB_BCNT_HALF : RegD := ⟨0x130, [⟨64, 0, 16⟩], 1, [
    ⟨0, 3, .w1c, 0, false, false, false, false⟩,
    ⟨4, 31, .ro, 0, false, false, false, true⟩]⟩
def BOB_BCNT_OVER : RegD := ⟨0x134, [⟨64, 0, 16⟩], 1, [
    ⟨0, 3, .w1c, 0, false, false, false, false⟩,
    ⟨4, 31, .ro, 0, false, false, false, true⟩]⟩
def BOB_CMAP : RegD := ⟨0x4000, [⟨64, 0, 256⟩, ⟨8, 0, 8⟩], 2, [
    ⟨0, 15, .srw, 0, false, true, false, false⟩,
    ⟨16, 26, .srw, 0, false, true, false, false⟩,
    ⟨27, 30, .srw, 0, false, true, false, false⟩,
    ⟨31, 31, .ro, 0, false, false, false, true⟩,
    ⟨32, 34, .srw, 0, false, true, false, false⟩,
    ⟨35, 36, .srw, 0, false, true, false, false⟩,
    ⟨37, 37, .srw, 0, false, true, false, false⟩,
    ⟨38, 62, .ro, 0, false, false, false, true⟩,
    ⟨63, 63, .srw, 0, false, true, false, false⟩]⟩
def rowsBOBBIN0 : List RegD := [BOB_CFG, BOB_EMIT_LEAD, BOB_EMIT_OFFSET, BOB_INT_EN, BOB_INT_STATUS, BOB_CNT_HALF, BOB_CNT_OVER, BOB_SIGW_INDEX, BOB_SIGW_VALUE, BOB_SIGW_CMD, BOB_SIGW_STATUS, BOB_PRIV_ADDR, BOB_PRIV_DATA, BOB_PRIV_CMD, BOB_PRIV_STATUS, BOB_CNT, BOB_BUDGET, BOB_EMIT_MAX, BOB_STATUS, BOB_CYCLES_LAST, BOB_CYCLES_MAX, BOB_BCNT, BOB_BCNT_HALF, BOB_BCNT_OVER, BOB_CMAP]

/-- The register rows of block BOBBIN. -/
def rowsBOBBIN : List RegD := rowsBOBBIN0

def BRG_CFG : RegD := ⟨0x0, [], 1, [
    ⟨0, 0, .srw, 0, false, true, false, false⟩,
    ⟨1, 3, .srw, 0, false, true, false, false⟩,
    ⟨4, 6, .srw, 0, false, true, false, false⟩,
    ⟨7, 15, .ro, 0, false, false, false, true⟩,
    ⟨16, 31, .srw, 51410, false, true, false, false⟩]⟩
def BRG_L2 : RegD := ⟨0x4, [], 1, [
    ⟨0, 15, .srw, 34998, false, true, false, false⟩,
    ⟨16, 31, .ro, 0, false, false, false, true⟩]⟩
def BRG_MAC : RegD := ⟨0x8, [], 2, [
    ⟨0, 47, .srw, 0, false, true, false, false⟩,
    ⟨48, 63, .ro, 0, false, false, false, true⟩]⟩
def BRG_COLLECT : RegD := ⟨0x10, [], 1, [
    ⟨0, 15, .srw, 20, false, true, false, false⟩,
    ⟨16, 31, .ro, 0, false, false, false, true⟩]⟩
def BRG_EVENT : RegD := ⟨0x14, [], 1, [
    ⟨0, 5, .srw, 0, false, true, false, false⟩,
    ⟨6, 6, .srw, 0, false, true, false, false⟩,
    ⟨7, 31, .ro, 0, false, false, false, true⟩]⟩
def BRG_SB : RegD := ⟨0x18, [], 1, [
    ⟨0, 15, .srw, 0, false, true, false, false⟩,
    ⟨16, 16, .srw, 0, false, true, false, false⟩,
    ⟨17, 17, .srw, 0, false, true, false, false⟩,
    ⟨18, 31, .ro, 0, false, false, false, true⟩]⟩
def BRG_POLL_CFG : RegD := ⟨0x1c, [], 1, [
    ⟨0, 0, .srw, 0, false, true, false, false⟩,
    ⟨1, 6, .srw, 0, false, true, false, false⟩,
    ⟨7, 18, .srw, 0, false, true, false, false⟩,
    ⟨19, 31, .ro, 0, false, false, false, true⟩]⟩
def BRG_STATUS : RegD := ⟨0x20, [], 1, [
    ⟨0, 8, .ro, 0, false, false, false, false⟩,
    ⟨9, 9, .ro, 0, false, false, false, false⟩,
    ⟨10, 31, .ro, 0, false, false, false, true⟩]⟩
def BRG_INT_EN : RegD := ⟨0x24, [], 1, [
    ⟨0, 4, .rw, 0, false, true, false, false⟩,
    ⟨5, 31, .ro, 0, false, false, false, true⟩]⟩
def BRG_INT_STATUS : RegD := ⟨0x28, [], 1, [
    ⟨0, 0, .w1c, 0, false, false, false, false⟩,
    ⟨1, 1, .w1c, 0, false, false, false, false⟩,
    ⟨2, 2, .w1c, 0, false, false, false, false⟩,
    ⟨3, 3, .ro, 0, false, false, false, false⟩,
    ⟨4, 4, .w1c, 0, false, false, false, false⟩,
    ⟨5, 31, .ro, 0, false, false, false, true⟩]⟩
def BRG_CNT_HALF : RegD := ⟨0x2c, [], 1, [
    ⟨0, 15, .w1c, 0, false, false, false, false⟩,
    ⟨16, 31, .ro, 0, false, false, false, true⟩]⟩
def BRG_CNT_OVER : RegD := ⟨0x30, [], 1, [
    ⟨0, 15, .w1c, 0, false, false, false, false⟩,
    ⟨16, 31, .ro, 0, false, false, false, true⟩]⟩
def BRG_PORT_CFG : RegD := ⟨0x80, [⟨4, 0, 24⟩], 1, [
    ⟨0, 7, .srw, 0, false, true, false, false⟩,
    ⟨8, 15, .srw, 0, false, true, false, false⟩,
    ⟨16, 23, .srw, 0, false, true, false, false⟩,
    ⟨24, 31, .ro, 0, false, false, false, true⟩]⟩
def BRG_CNT : RegD := ⟨0x100, [⟨4, 0, 16⟩], 1, [
    ⟨0, 31, .ro, 0, false, false, false, false⟩]⟩
def BRG_INIT : RegD := ⟨0x200, [⟨8, 0, 64⟩], 1, [
    ⟨0, 0, .srw, 0, false, true, false, false⟩,
    ⟨1, 8, .srw, 0, false, true, false, false⟩,
    ⟨9, 20, .srw, 0, false, true, false, false⟩,
    ⟨21, 31, .ro, 0, false, false, false, true⟩]⟩
def BRG_INIT_STATUS : RegD := ⟨0x204, [⟨8, 0, 64⟩], 1, [
    ⟨0, 0, .w1c, 0, false, false, false, false⟩,
    ⟨1, 7, .ro, 0, false, false, false, true⟩,
    ⟨8, 15, .ro, 0, false, false, false, false⟩,
    ⟨16, 31, .ro, 0, false, false, false, false⟩]⟩
def BRG_POLL : RegD := ⟨0x400, [⟨8, 0, 64⟩], 2, [
    ⟨0, 31, .srw, 0, false, true, false, false⟩,
    ⟨32, 34, .srw, 0, false, true, false, false⟩,
    ⟨35, 50, .srw, 0, false, true, false, false⟩,
    ⟨51, 63, .ro, 0, false, false, false, true⟩]⟩
def rowsBRIDGE0 : List RegD := [BRG_CFG, BRG_L2, BRG_MAC, BRG_COLLECT, BRG_EVENT, BRG_SB, BRG_POLL_CFG, BRG_STATUS, BRG_INT_EN, BRG_INT_STATUS, BRG_CNT_HALF, BRG_CNT_OVER, BRG_PORT_CFG, BRG_CNT, BRG_INIT, BRG_INIT_STATUS, BRG_POLL]

/-- The register rows of block BRIDGE. -/
def rowsBRIDGE : List RegD := rowsBRIDGE0

def KEY_CFG : RegD := ⟨0x0, [], 1, [
    ⟨0, 7, .srw, 0, false, true, false, false⟩,
    ⟨8, 8, .srw, 0, false, true, false, false⟩,
    ⟨9, 31, .ro, 0, false, false, false, true⟩]⟩
def KEY_STATUS : RegD := ⟨0x4, [], 1, [
    ⟨0, 0, .ro, 0, false, false, false, false⟩,
    ⟨1, 1, .ro, 0, false, false, false, false⟩,
    ⟨2, 2, .ro, 0, true, true, false, false⟩,
    ⟨3, 10, .ro, 0, false, false, false, false⟩,
    ⟨11, 31, .ro, 0, false, false, false, true⟩]⟩
def KEY_SLOT_SEL : RegD := ⟨0x8, [], 1, [
    ⟨0, 7, .rw, 0, false, false, false, false⟩,
    ⟨8, 31, .ro, 0, false, false, false, true⟩]⟩
def KEY_SLOT_INFO : RegD := ⟨0xc, [], 1, [
    ⟨0, 2, .ro, 0, false, false, false, false⟩,
    ⟨3, 3, .ro, 0, false, false, false, false⟩,
    ⟨4, 31, .ro, 0, false, false, false, true⟩]⟩
def KEY_CMD : RegD := ⟨0x10, [], 1, [
    ⟨0, 7, .wo, 0, false, false, false, false⟩,
    ⟨8, 9, .wo, 0, false, false, false, false⟩,
    ⟨10, 31, .ro, 0, false, false, false, true⟩]⟩
def KEY_CMD_STATUS : RegD := ⟨0x14, [], 1, [
    ⟨0, 0, .ro, 0, false, false, false, false⟩,
    ⟨1, 1, .w1c, 0, false, false, false, false⟩,
    ⟨2, 2, .w1c, 0, false, false, false, false⟩,
    ⟨3, 6, .ro, 0, false, false, false, false⟩,
    ⟨7, 31, .ro, 0, false, false, false, true⟩]⟩
def KEY_SVC_ADDR : RegD := ⟨0x18, [], 1, [
    ⟨0, 6, .ro, 0, false, false, false, true⟩,
    ⟨7, 23, .rw, 0, false, false, false, false⟩,
    ⟨24, 31, .ro, 0, false, false, false, true⟩]⟩
def KEY_SVC_CMD : RegD := ⟨0x1c, [], 1, [
    ⟨0, 0, .wo, 0, false, false, false, false⟩,
    ⟨1, 31, .ro, 0, false, false, false, true⟩]⟩
def KEY_SVC_STATUS : RegD := ⟨0x20, [], 1, [
    ⟨0, 0, .ro, 0, false, false, false, false⟩,
    ⟨1, 1, .w1c, 0, false, false, false, false⟩,
    ⟨2, 31, .ro, 0, false, false, false, true⟩]⟩
def KEY_INT_EN : RegD := ⟨0x24, [], 1, [
    ⟨0, 4, .rw, 0, false, true, false, false⟩,
    ⟨5, 31, .ro, 0, false, false, false, true⟩]⟩
def KEY_INT_STATUS : RegD := ⟨0x28, [], 1, [
    ⟨0, 0, .ro, 0, false, false, false, false⟩,
    ⟨1, 1, .ro, 0, false, false, false, false⟩,
    ⟨2, 2, .w1c, 0, false, false, false, false⟩,
    ⟨3, 3, .ro, 0, false, false, false, false⟩,
    ⟨4, 4, .w1c, 0, false, false, false, false⟩,
    ⟨5, 31, .ro, 0, false, false, false, true⟩]⟩
def KEY_CNT_HALF : RegD := ⟨0x2c, [], 1, [
    ⟨0, 7, .w1c, 0, false, false, false, false⟩,
    ⟨8, 31, .ro, 0, false, false, false, true⟩]⟩
def KEY_CNT_OVER : RegD := ⟨0x30, [], 1, [
    ⟨0, 7, .w1c, 0, false, false, false, false⟩,
    ⟨8, 31, .ro, 0, false, false, false, true⟩]⟩
def CIPH_CFG : RegD := ⟨0x34, [], 1, [
    ⟨0, 0, .srw, 0, false, true, false, false⟩,
    ⟨1, 31, .ro, 0, false, false, false, true⟩]⟩
def CIPH_STATUS : RegD := ⟨0x38, [], 1, [
    ⟨0, 23, .ro, 0, false, false, false, false⟩,
    ⟨24, 31, .ro, 0, false, false, false, true⟩]⟩
def KEY_CNT : RegD := ⟨0x40, [⟨4, 0, 8⟩], 1, [
    ⟨0, 31, .ro, 0, false, false, false, false⟩]⟩
def KEY_SLOT_ATTR : RegD := ⟨0x80, [], 5, [
    ⟨0, 159, .ro, 0, false, false, false, false⟩]⟩
def KEY_XPORT : RegD := ⟨0xa0, [], 8, [
    ⟨0, 255, .ro, 0, false, false, false, false⟩]⟩
def KEY_PUB : RegD := ⟨0xc0, [], 15, [
    ⟨0, 455, .ro, 0, false, false, false, false⟩,
    ⟨456, 479, .ro, 0, false, false, false, true⟩]⟩
def KEY_REPL_BUF : RegD := ⟨0x100, [], 32, [
    ⟨0, 1023, .rw, 0, false, false, false, false⟩]⟩
def KEY_MSEC_CFG : RegD := ⟨0x200, [⟨32, 0, 24⟩], 1, [
    ⟨0, 0, .srw, 0, false, true, false, false⟩,
    ⟨1, 1, .srw, 0, false, true, false, false⟩,
    ⟨2, 2, .srw, 1, false, true, false, false⟩,
    ⟨3, 3, .srw, 1, false, true, false, false⟩,
    ⟨4, 4, .srw, 0, false, true, false, false⟩,
    ⟨5, 9, .srw, 0, false, true, false, false⟩,
    ⟨10, 17, .srw, 0, false, true, false, false⟩,
    ⟨18, 31, .srw, 0, false, true, false, false⟩]⟩
def KEY_MSEC_PEER : RegD := ⟨0x204, [⟨32, 0, 24⟩], 1, [
    ⟨0, 15, .srw, 0, false, true, false, false⟩,
    ⟨16, 21, .srw, 0, false, true, false, false⟩,
    ⟨22, 31, .ro, 0, false, false, false, true⟩]⟩
def KEY_MSEC_SCI : RegD := ⟨0x208, [⟨32, 0, 24⟩], 2, [
    ⟨0, 63, .srw, 0, false, true, false, false⟩]⟩
def KEY_MSEC_RX_SCI : RegD := ⟨0x210, [⟨32, 0, 24⟩], 2, [
    ⟨0, 63, .srw, 0, false, true, false, false⟩]⟩
def KEY_MSEC_STATUS : RegD := ⟨0x218, [⟨32, 0, 24⟩], 1, [
    ⟨0, 1, .ro, 0, false, false, false, false⟩,
    ⟨2, 2, .ro, 0, false, false, false, false⟩,
    ⟨3, 3, .ro, 0, false, false, false, false⟩,
    ⟨4, 7, .ro, 0, false, false, false, true⟩,
    ⟨8, 31, .ro, 0, false, false, false, false⟩]⟩
def rowsKEY0 : List RegD := [KEY_CFG, KEY_STATUS, KEY_SLOT_SEL, KEY_SLOT_INFO, KEY_CMD, KEY_CMD_STATUS, KEY_SVC_ADDR, KEY_SVC_CMD, KEY_SVC_STATUS, KEY_INT_EN, KEY_INT_STATUS, KEY_CNT_HALF, KEY_CNT_OVER, CIPH_CFG, CIPH_STATUS, KEY_CNT, KEY_SLOT_ATTR, KEY_XPORT, KEY_PUB, KEY_REPL_BUF, KEY_MSEC_CFG, KEY_MSEC_PEER, KEY_MSEC_SCI, KEY_MSEC_RX_SCI, KEY_MSEC_STATUS]

/-- The register rows of block KEY. -/
def rowsKEY : List RegD := rowsKEY0

def SEAL_CFG : RegD := ⟨0x0, [], 1, [
    ⟨0, 7, .srw, 0, false, true, false, false⟩,
    ⟨8, 8, .srw, 0, false, true, false, false⟩,
    ⟨9, 15, .ro, 0, false, false, false, true⟩,
    ⟨16, 31, .srw, 0, false, true, false, false⟩]⟩
def SEAL_TIMING : RegD := ⟨0x4, [], 1, [
    ⟨0, 15, .srw, 0, false, true, false, false⟩,
    ⟨16, 31, .srw, 0, false, true, false, false⟩]⟩
def SEAL_STORE_CFG : RegD := ⟨0x8, [], 1, [
    ⟨0, 1, .srw, 0, false, true, false, false⟩,
    ⟨2, 31, .ro, 0, false, false, false, true⟩]⟩
def SEAL_STATUS : RegD := ⟨0xc, [], 1, [
    ⟨0, 0, .ro, 0, false, false, false, false⟩,
    ⟨1, 6, .ro, 0, false, false, false, false⟩,
    ⟨7, 7, .ro, 0, false, false, false, false⟩,
    ⟨8, 8, .ro, 0, false, false, false, false⟩,
    ⟨9, 9, .ro, 0, false, false, false, false⟩,
    ⟨10, 10, .ro, 0, false, false, false, false⟩,
    ⟨11, 31, .ro, 0, false, false, false, true⟩]⟩
def SEAL_NEXT_SEQ : RegD := ⟨0x10, [], 2, [
    ⟨0, 47, .ro, 1, true, true, true, false⟩,
    ⟨48, 63, .ro, 0, false, false, false, true⟩]⟩
def SEAL_LAST_SEALED : RegD := ⟨0x18, [], 2, [
    ⟨0, 47, .ro, 0, false, true, false, false⟩,
    ⟨48, 63, .ro, 0, false, false, false, true⟩]⟩
def SEAL_APPEND : RegD := ⟨0x20, [], 1, [
    ⟨0, 31, .ro, 0, true, true, true, false⟩]⟩
def SEAL_APPEND_SLOT : RegD := ⟨0x24, [], 1, [
    ⟨0, 4, .ro, 0, true, true, true, false⟩,
    ⟨5, 31, .ro, 0, false, false, false, true⟩]⟩
def SEAL_ACK_PAGE : RegD := ⟨0x28, [], 1, [
    ⟨0, 31, .ro, 0, true, true, true, false⟩]⟩
def SEAL_BUF_LEVEL : RegD := ⟨0x2c, [], 1, [
    ⟨0, 14, .ro, 0, false, true, false, false⟩,
    ⟨15, 31, .ro, 0, false, false, false, true⟩]⟩
def SEAL_FREE_BLOCKS : RegD := ⟨0x30, [], 1, [
    ⟨0, 12, .ro, 0, false, false, false, false⟩,
    ⟨13, 31, .ro, 0, false, false, false, true⟩]⟩
def SEAL_MIRROR : RegD := ⟨0x34, [], 1, [
    ⟨0, 0, .srw, 0, false, true, false, false⟩,
    ⟨1, 2, .srw, 0, false, true, false, false⟩,
    ⟨3, 5, .srw, 0, false, true, false, false⟩,
    ⟨6, 15, .ro, 0, false, false, false, true⟩,
    ⟨16, 31, .srw, 0, false, true, false, false⟩]⟩
def SEAL_MIRROR_DA : RegD := ⟨0x38, [], 2, [
    ⟨0, 47, .srw, 0, false, true, false, false⟩,
    ⟨48, 63, .ro, 0, false, false, false, true⟩]⟩
def SEAL_HEAD : RegD := ⟨0x40, [], 16, [
    ⟨0, 511, .ro, 0, true, true, true, false⟩]⟩
def SEAL_MIRROR_SA : RegD := ⟨0x80, [], 2, [
    ⟨0, 47, .srw, 0, false, true, false, false⟩,
    ⟨48, 63, .ro, 0, false, false, false, true⟩]⟩
def SEAL_CNT : RegD := ⟨0x100, [⟨8, 0, 13⟩], 2, [
    ⟨0, 63, .ro, 0, false, false, false, false⟩]⟩
def rowsSEAL0 : List RegD := [SEAL_CFG, SEAL_TIMING, SEAL_STORE_CFG, SEAL_STATUS, SEAL_NEXT_SEQ, SEAL_LAST_SEALED, SEAL_APPEND, SEAL_APPEND_SLOT, SEAL_ACK_PAGE, SEAL_BUF_LEVEL, SEAL_FREE_BLOCKS, SEAL_MIRROR, SEAL_MIRROR_DA, SEAL_HEAD, SEAL_MIRROR_SA, SEAL_CNT]

/-- The register rows of block SEAL. -/
def rowsSEAL : List RegD := rowsSEAL0

def SYS_RESET_CAUSE : RegD := ⟨0x100, [], 1, [
    ⟨0, 3, .ro, 0, true, true, true, false⟩,
    ⟨4, 31, .ro, 0, false, false, false, true⟩]⟩
def SYS_BOOT_COUNT : RegD := ⟨0x104, [], 1, [
    ⟨0, 31, .ro, 0, true, true, true, false⟩]⟩
def SYS_RESET_REQ : RegD := ⟨0x108, [], 1, [
    ⟨0, 0, .wo, 0, false, false, false, false⟩,
    ⟨1, 7, .ro, 0, false, false, false, true⟩,
    ⟨8, 15, .wo, 0, false, false, false, false⟩,
    ⟨16, 31, .ro, 0, false, false, false, true⟩]⟩
def SYS_PWR_CTRL : RegD := ⟨0x10c, [], 1, [
    ⟨0, 1, .wo, 0, false, false, false, false⟩,
    ⟨2, 31, .ro, 0, false, false, false, true⟩]⟩
def SYS_PWR_CFG : RegD := ⟨0x110, [], 1, [
    ⟨0, 0, .srw, 0, false, true, false, false⟩,
    ⟨1, 12, .srw, 0, false, true, false, false⟩,
    ⟨13, 24, .srw, 0, false, true, false, false⟩,
    ⟨25, 31, .ro, 0, false, false, false, true⟩]⟩
def SYS_PWR_STATUS : RegD := ⟨0x114, [], 1, [
    ⟨0, 1, .ro, 0, false, false, false, false⟩,
    ⟨2, 2, .ro, 0, false, false, false, false⟩,
    ⟨3, 31, .ro, 0, false, false, false, true⟩]⟩
def SYS_WAKE_EN : RegD := ⟨0x118, [], 1, [
    ⟨0, 7, .srw, 0, false, true, false, false⟩,
    ⟨8, 15, .srw, 0, false, true, false, false⟩,
    ⟨16, 16, .srw, 0, false, true, false, false⟩,
    ⟨17, 17, .srw, 0, false, true, false, false⟩,
    ⟨18, 18, .srw, 0, false, true, false, false⟩,
    ⟨19, 31, .ro, 0, false, false, false, true⟩]⟩
def SYS_WAKE_POL : RegD := ⟨0x11c, [], 1, [
    ⟨0, 15, .srw, 0, false, true, false, false⟩,
    ⟨16, 31, .ro, 0, false, false, false, true⟩]⟩
def SYS_WAKE_SRC : RegD := ⟨0x120, [], 1, [
    ⟨0, 18, .ro, 0, true, true, true, false⟩,
    ⟨19, 31, .ro, 0, false, false, false, true⟩]⟩
def SYS_SP_RX_BASE : RegD := ⟨0x200, [⟨16, 0, 4⟩], 1, [
    ⟨0, 5, .ro, 0, false, false, false, true⟩,
    ⟨6, 23, .rw, 0, false, true, false, false⟩,
    ⟨24, 31, .ro, 0, false, false, false, true⟩]⟩
def SYS_SP_RX_CFG : RegD := ⟨0x204, [⟨16, 0, 4⟩], 1, [
    ⟨0, 3, .rw, 6, false, true, false, false⟩,
    ⟨4, 5, .rw, 0, false, true, false, false⟩,
    ⟨6, 6, .rw, 0, false, true, false, false⟩,
    ⟨7, 31, .ro, 0, false, false, false, true⟩]⟩
def SYS_SP_RX_WR : RegD := ⟨0x208, [⟨16, 0, 4⟩], 1, [
    ⟨0, 11, .ro, 0, false, true, false, false⟩,
    ⟨12, 31, .ro, 0, false, false, false, true⟩]⟩
def SYS_SP_RX_RD : RegD := ⟨0x20c, [⟨16, 0, 4⟩], 1, [
    ⟨0, 11, .rw, 0, false, true, false, false⟩,
    ⟨12, 31, .ro, 0, false, false, false, true⟩]⟩
def SYS_SP_MAP : RegD := ⟨0x240, [], 1, [
    ⟨0, 15, .srw, 0, false, true, false, false⟩,
    ⟨16, 31, .ro, 0, false, false, false, true⟩]⟩
def SYS_SP_TX_BASE : RegD := ⟨0x250, [], 1, [
    ⟨0, 4, .ro, 0, false, false, false, true⟩,
    ⟨5, 23, .rw, 0, false, true, false, false⟩,
    ⟨24, 31, .ro, 0, false, false, false, true⟩]⟩
def SYS_SP_TX_SIZE : RegD := ⟨0x254, [], 1, [
    ⟨0, 3, .rw, 4, false, true, false, false⟩,
    ⟨4, 31, .ro, 0, false, false, false, true⟩]⟩
def SYS_SP_TX_HEAD : RegD := ⟨0x258, [], 1, [
    ⟨0, 11, .rw, 0, false, true, false, false⟩,
    ⟨12, 31, .ro, 0, false, false, false, true⟩]⟩
def SYS_SP_TX_TAIL : RegD := ⟨0x25c, [], 1, [
    ⟨0, 11, .ro, 0, false, true, false, false⟩,
    ⟨12, 31, .ro, 0, false, false, false, true⟩]⟩
def SYS_SP_INT_EN : RegD := ⟨0x260, [], 1, [
    ⟨0, 3, .rw, 0, false, true, false, false⟩,
    ⟨4, 31, .ro, 0, false, false, false, true⟩]⟩
def SYS_SP_INT_STATUS : RegD := ⟨0x264, [], 1, [
    ⟨0, 0, .ro, 0, false, false, false, false⟩,
    ⟨1, 1, .w1c, 0, false, false, false, false⟩,
    ⟨2, 2, .ro, 0, false, false, false, false⟩,
    ⟨3, 3, .w1c, 0, false, false, false, false⟩,
    ⟨4, 31, .ro, 0, false, false, false, true⟩]⟩
def SYS_SP_CNT_HALF : RegD := ⟨0x268, [], 1, [
    ⟨0, 5, .w1c, 0, false, false, false, false⟩,
    ⟨6, 31, .ro, 0, false, false, false, true⟩]⟩
def SYS_SP_CNT_OVER : RegD := ⟨0x26c, [], 1, [
    ⟨0, 5, .w1c, 0, false, false, false, false⟩,
    ⟨6, 31, .ro, 0, false, false, false, true⟩]⟩
def SYS_SP_CNT : RegD := ⟨0x280, [⟨4, 0, 8⟩], 1, [
    ⟨0, 31, .ro, 0, false, false, false, false⟩]⟩
def SYS_CHIP_ID : RegD := ⟨0x0, [], 1, [
    ⟨0, 7, .ro, 161, true, true, true, false⟩,
    ⟨8, 31, .ro, 53320, true, true, true, false⟩]⟩
def SYS_EVT_BASE : RegD := ⟨0x10, [], 1, [
    ⟨0, 3, .ro, 0, false, false, false, true⟩,
    ⟨4, 23, .rw, 0, false, true, false, false⟩,
    ⟨24, 31, .ro, 0, false, false, false, true⟩]⟩
def SYS_EVT_SIZE : RegD := ⟨0x14, [], 1, [
    ⟨0, 3, .rw, 8, false, true, false, false⟩,
    ⟨4, 31, .ro, 0, false, false, false, true⟩]⟩
def SYS_EVT_WR : RegD := ⟨0x18, [], 1, [
    ⟨0, 13, .ro, 0, false, true, false, false⟩,
    ⟨14, 31, .ro, 0, false, false, false, true⟩]⟩
def SYS_EVT_RD : RegD := ⟨0x1c, [], 1, [
    ⟨0, 13, .rw, 0, false, true, false, false⟩,
    ⟨14, 31, .ro, 0, false, false, false, true⟩]⟩
def SYS_EVT_LOST : RegD := ⟨0x20, [], 1, [
    ⟨0, 31, .ro, 0, false, false, false, false⟩]⟩
def SYS_EVT_CTRL : RegD := ⟨0x24, [], 1, [
    ⟨0, 0, .rw, 0, false, true, false, false⟩,
    ⟨1, 31, .ro, 0, false, false, false, true⟩]⟩
def SYS_IRQ_STATUS : RegD := ⟨0x40, [], 2, [
    ⟨0, 63, .ro, 0, false, false, false, false⟩]⟩
def SYS_IRQ_HOOP : RegD := ⟨0x48, [], 1, [
    ⟨0, 0, .w1c, 0, false, false, false, false⟩,
    ⟨1, 31, .ro, 0, false, false, false, true⟩]⟩
def SYS_IRQ_ROUTE : RegD := ⟨0x50, [⟨8, 0, 4⟩], 2, [
    ⟨0, 63, .rw, 0, false, true, false, false⟩]⟩
def SYS_IRQ_EGR : RegD := ⟨0x70, [], 2, [
    ⟨0, 51, .ro, 0, false, false, false, false⟩,
    ⟨52, 63, .ro, 0, false, false, false, true⟩]⟩
def rowsSYS0 : List RegD := [SYS_RESET_CAUSE, SYS_BOOT_COUNT, SYS_RESET_REQ, SYS_PWR_CTRL, SYS_PWR_CFG, SYS_PWR_STATUS, SYS_WAKE_EN, SYS_WAKE_POL, SYS_WAKE_SRC, SYS_SP_RX_BASE, SYS_SP_RX_CFG, SYS_SP_RX_WR, SYS_SP_RX_RD, SYS_SP_MAP, SYS_SP_TX_BASE, SYS_SP_TX_SIZE, SYS_SP_TX_HEAD, SYS_SP_TX_TAIL, SYS_SP_INT_EN, SYS_SP_INT_STATUS, SYS_SP_CNT_HALF, SYS_SP_CNT_OVER, SYS_SP_CNT, SYS_CHIP_ID, SYS_EVT_BASE, SYS_EVT_SIZE, SYS_EVT_WR, SYS_EVT_RD, SYS_EVT_LOST, SYS_EVT_CTRL, SYS_IRQ_STATUS, SYS_IRQ_HOOP, SYS_IRQ_ROUTE, SYS_IRQ_EGR]

/-- The register rows of block SYS. -/
def rowsSYS : List RegD := rowsSYS0

def FLT_WDOG_CFG : RegD := ⟨0x0, [], 1, [
    ⟨0, 15, .srw, 999, false, true, false, false⟩,
    ⟨16, 31, .ro, 0, false, false, false, true⟩]⟩
def FLT_WDOG_KICK : RegD := ⟨0x4, [], 1, [
    ⟨0, 0, .wo, 0, false, false, false, false⟩,
    ⟨1, 31, .ro, 0, false, false, false, true⟩]⟩
def FLT_WDOG_STATUS : RegD := ⟨0x8, [], 1, [
    ⟨0, 15, .ro, 0, false, false, false, false⟩,
    ⟨16, 16, .w1c, 0, false, false, false, false⟩,
    ⟨17, 31, .ro, 0, false, false, false, true⟩]⟩
def FLT_THERM_CFG : RegD := ⟨0xc, [], 1, [
    ⟨0, 7, .srw, 105, false, true, false, false⟩,
    ⟨8, 15, .srw, 100, false, true, false, false⟩,
    ⟨16, 31, .ro, 0, false, false, false, true⟩]⟩
def FLT_THERM_STATUS : RegD := ⟨0x10, [], 1, [
    ⟨0, 8, .ro, 0, false, false, false, false⟩,
    ⟨9, 9, .ro, 0, false, false, false, false⟩,
    ⟨10, 10, .ro, 0, false, false, false, false⟩,
    ⟨11, 15, .ro, 0, false, false, false, true⟩,
    ⟨16, 24, .ro, 0, false, false, false, false⟩,
    ⟨25, 31, .ro, 0, false, false, false, true⟩]⟩
def FLT_LAST_FAULT : RegD := ⟨0x14, [], 1, [
    ⟨0, 15, .ro, 0, true, true, true, false⟩,
    ⟨16, 31, .ro, 0, true, true, true, false⟩]⟩
def FLT_LAST_FAULT_HOOP : RegD := ⟨0x18, [], 1, [
    ⟨0, 31, .ro, 0, true, true, true, false⟩]⟩
def FLT_INT_EN : RegD := ⟨0x1c, [], 1, [
    ⟨0, 4, .rw, 0, false, true, false, false⟩,
    ⟨5, 31, .ro, 0, false, false, false, true⟩]⟩
def FLT_INT_STATUS : RegD := ⟨0x20, [], 1, [
    ⟨0, 0, .w1c, 0, false, false, false, false⟩,
    ⟨1, 1, .w1c, 0, false, false, false, false⟩,
    ⟨2, 2, .w1c, 0, false, false, false, false⟩,
    ⟨3, 3, .ro, 0, false, false, false, false⟩,
    ⟨4, 4, .w1c, 0, false, false, false, false⟩,
    ⟨5, 31, .ro, 0, false, false, false, true⟩]⟩
def FLT_CNT_HALF : RegD := ⟨0x24, [], 1, [
    ⟨0, 11, .w1c, 0, false, false, false, false⟩,
    ⟨12, 15, .ro, 0, false, false, false, true⟩,
    ⟨16, 27, .w1c, 0, false, false, false, false⟩,
    ⟨28, 31, .ro, 0, false, false, false, true⟩]⟩
def FLT_CNT_OVER : RegD := ⟨0x28, [], 1, [
    ⟨0, 11, .w1c, 0, false, false, false, false⟩,
    ⟨12, 15, .ro, 0, false, false, false, true⟩,
    ⟨16, 27, .w1c, 0, false, false, false, false⟩,
    ⟨28, 31, .ro, 0, false, false, false, true⟩]⟩
def FLT_SBE : RegD := ⟨0x100, [⟨4, 0, 12⟩], 1, [
    ⟨0, 31, .ro, 0, false, false, false, false⟩]⟩
def FLT_DBE : RegD := ⟨0x140, [⟨4, 0, 12⟩], 1, [
    ⟨0, 31, .ro, 0, false, false, false, false⟩]⟩
def rowsFAULT0 : List RegD := [FLT_WDOG_CFG, FLT_WDOG_KICK, FLT_WDOG_STATUS, FLT_THERM_CFG, FLT_THERM_STATUS, FLT_LAST_FAULT, FLT_LAST_FAULT_HOOP, FLT_INT_EN, FLT_INT_STATUS, FLT_CNT_HALF, FLT_CNT_OVER, FLT_SBE, FLT_DBE]

/-- The register rows of block FAULT. -/
def rowsFAULT : List RegD := rowsFAULT0

def GPIO_IN : RegD := ⟨0x0, [], 1, [
    ⟨0, 31, .ro, 0, false, false, false, false⟩]⟩
def GPIO_SAMPLE : RegD := ⟨0x4, [], 1, [
    ⟨0, 31, .ro, 0, false, false, false, false⟩]⟩
def GPIO_OE : RegD := ⟨0x8, [], 1, [
    ⟨0, 31, .srw, 0, false, true, false, false⟩]⟩
def GPIO_OUT : RegD := ⟨0xc, [], 1, [
    ⟨0, 31, .rw, 0, false, true, false, false⟩]⟩
def GPIO_OUT_NEXT : RegD := ⟨0x10, [], 1, [
    ⟨0, 31, .rw, 0, false, true, false, false⟩]⟩
def GPIO_OUT_MASK : RegD := ⟨0x14, [], 1, [
    ⟨0, 31, .rw, 0, false, true, false, false⟩]⟩
def GPIO_CHG : RegD := ⟨0x18, [], 1, [
    ⟨0, 31, .w1c, 0, false, false, false, false⟩]⟩
def GPIO_INT_EN : RegD := ⟨0x1c, [], 1, [
    ⟨0, 0, .rw, 0, false, true, false, false⟩,
    ⟨1, 31, .ro, 0, false, false, false, true⟩]⟩
def GPIO_INT_STATUS : RegD := ⟨0x20, [], 1, [
    ⟨0, 0, .ro, 0, false, false, false, false⟩,
    ⟨1, 31, .ro, 0, false, false, false, true⟩]⟩
def rowsGPIO0 : List RegD := [GPIO_IN, GPIO_SAMPLE, GPIO_OE, GPIO_OUT, GPIO_OUT_NEXT, GPIO_OUT_MASK, GPIO_CHG, GPIO_INT_EN, GPIO_INT_STATUS]

/-- The register rows of block GPIO. -/
def rowsGPIO : List RegD := rowsGPIO0

def EYE_CFG : RegD := ⟨0x0, [], 1, [
    ⟨0, 0, .srw, 0, false, true, false, false⟩,
    ⟨1, 6, .srw, 0, false, true, false, false⟩,
    ⟨7, 7, .srw, 0, false, true, false, false⟩,
    ⟨8, 10, .srw, 0, false, true, false, false⟩,
    ⟨11, 22, .srw, 0, false, true, false, false⟩,
    ⟨23, 30, .srw, 0, false, true, false, false⟩,
    ⟨31, 31, .ro, 0, false, false, false, true⟩]⟩
def EYE_UDP : RegD := ⟨0x4, [], 1, [
    ⟨0, 15, .srw, 51411, false, true, false, false⟩,
    ⟨16, 31, .srw, 51411, false, true, false, false⟩]⟩
def EYE_TEL : RegD := ⟨0x8, [], 1, [
    ⟨0, 15, .srw, 0, false, true, false, false⟩,
    ⟨16, 23, .srw, 0, false, true, false, false⟩,
    ⟨24, 24, .srw, 0, false, true, false, false⟩,
    ⟨25, 31, .ro, 0, false, false, false, true⟩]⟩
def EYE_EVT_MASK : RegD := ⟨0xc, [], 1, [
    ⟨0, 15, .srw, 0, false, true, false, false⟩,
    ⟨16, 31, .ro, 0, false, false, false, true⟩]⟩
def EYE_LOCAL_MAC : RegD := ⟨0x10, [], 2, [
    ⟨0, 47, .srw, 0, false, true, false, false⟩,
    ⟨48, 63, .ro, 0, false, false, false, true⟩]⟩
def EYE_HOST_MAC : RegD := ⟨0x18, [], 2, [
    ⟨0, 47, .srw, 0, false, true, false, false⟩,
    ⟨48, 63, .ro, 0, false, false, false, true⟩]⟩
def EYE_LOCAL_IP : RegD := ⟨0x20, [], 4, [
    ⟨0, 127, .srw, 0, false, true, false, false⟩]⟩
def EYE_HOST_IP : RegD := ⟨0x30, [], 4, [
    ⟨0, 127, .srw, 0, false, true, false, false⟩]⟩
def EYE_STATUS : RegD := ⟨0x40, [], 1, [
    ⟨0, 0, .ro, 0, false, false, false, false⟩,
    ⟨1, 1, .ro, 0, false, false, false, false⟩,
    ⟨2, 5, .ro, 0, false, false, false, false⟩,
    ⟨6, 6, .ro, 0, false, false, false, false⟩,
    ⟨7, 31, .ro, 0, false, false, false, true⟩]⟩
def EYE_EPOCH : RegD := ⟨0x44, [], 1, [
    ⟨0, 31, .ro, 0, false, true, false, false⟩]⟩
def EYE_RX_SEQ : RegD := ⟨0x48, [], 1, [
    ⟨0, 31, .ro, 0, false, true, false, false⟩]⟩
def EYE_TX_SEQ : RegD := ⟨0x4c, [], 1, [
    ⟨0, 31, .ro, 0, false, true, false, false⟩]⟩
def EYE_INT_EN : RegD := ⟨0x50, [], 1, [
    ⟨0, 4, .rw, 0, false, true, false, false⟩,
    ⟨5, 31, .ro, 0, false, false, false, true⟩]⟩
def EYE_INT_STATUS : RegD := ⟨0x54, [], 1, [
    ⟨0, 0, .w1c, 0, false, false, false, false⟩,
    ⟨1, 1, .w1c, 0, false, false, false, false⟩,
    ⟨2, 2, .w1c, 0, false, false, false, false⟩,
    ⟨3, 3, .ro, 0, false, false, false, false⟩,
    ⟨4, 4, .w1c, 0, false, false, false, false⟩,
    ⟨5, 31, .ro, 0, false, false, false, true⟩]⟩
def EYE_CNT_HALF : RegD := ⟨0x58, [], 1, [
    ⟨0, 7, .w1c, 0, false, false, false, false⟩,
    ⟨8, 31, .ro, 0, false, false, false, true⟩]⟩
def EYE_CNT_OVER : RegD := ⟨0x5c, [], 1, [
    ⟨0, 7, .w1c, 0, false, false, false, false⟩,
    ⟨8, 31, .ro, 0, false, false, false, true⟩]⟩
def EYE_CNT : RegD := ⟨0x80, [⟨4, 0, 8⟩], 1, [
    ⟨0, 31, .ro, 0, false, false, false, false⟩]⟩
def EYE_TEL_LIST : RegD := ⟨0x200, [⟨4, 0, 128⟩], 1, [
    ⟨0, 23, .srw, 0, false, true, false, false⟩,
    ⟨24, 29, .ro, 0, false, false, false, true⟩,
    ⟨30, 31, .srw, 0, false, true, false, false⟩]⟩
def rowsEYELET0 : List RegD := [EYE_CFG, EYE_UDP, EYE_TEL, EYE_EVT_MASK, EYE_LOCAL_MAC, EYE_HOST_MAC, EYE_LOCAL_IP, EYE_HOST_IP, EYE_STATUS, EYE_EPOCH, EYE_RX_SEQ, EYE_TX_SEQ, EYE_INT_EN, EYE_INT_STATUS, EYE_CNT_HALF, EYE_CNT_OVER, EYE_CNT, EYE_TEL_LIST]

/-- The register rows of block EYELET. -/
def rowsEYELET : List RegD := rowsEYELET0

end RegTab

end Sys2Proof.Machine
end

