-- ==== Sys2Proof/Machine/Sparse.lean ====
section
/-! DEFINITION. Sparse stores: a list of (key, value) pairs in one canonical form, keys strictly rising and no entry equal
to what an unlisted key reads as. Register file and memories are such stores. -/

namespace Sys2Proof.Machine

/-- What key `k` reads as: the listed value, or `d` where none is listed. -/
def sget {α : Type} (l : List (Nat × α)) (k : Nat) (d : α) : α :=
  match l with
  | [] => d
  | (j, v) :: t => if j = k then v else sget t k d

/-- The list without any entry of key `k`. -/
def serase {α : Type} (l : List (Nat × α)) (k : Nat) : List (Nat × α) :=
  match l with
  | [] => []
  | (j, v) :: t => if j = k then serase t k else (j, v) :: serase t k

/-- The list with the entry (k, v) put before the first greater key. -/
def sinsert {α : Type} (l : List (Nat × α)) (k : Nat) (v : α) : List (Nat × α) :=
  match l with
  | [] => [(k, v)]
  | (j, w) :: t => if k < j then (k, v) :: (j, w) :: t else (j, w) :: sinsert t k v

/-- The store after `v` is written to key `k`, whose default is `d`. -/
def sset {α : Type} [DecidableEq α] (l : List (Nat × α)) (k : Nat) (d v : α) : List (Nat × α) :=
  if v = d then serase l k else sinsert (serase l k) k v

/-- Keys strictly rising. -/
def srising {α : Type} : List (Nat × α) → Bool
  | [] => true
  | [_] => true
  | (j, _) :: (k, w) :: t => decide (j < k) && srising ((k, w) :: t)

/-- Keys strictly rising, and no entry equal to the default `d`: the canonical form of a memory. -/
def swf {α : Type} [DecidableEq α] (l : List (Nat × α)) (d : α) : Bool :=
  srising l && l.all (fun e => decide (e.2 ≠ d))

/-- `n` bytes from key `a` on. -/
def sgetN {α : Type} (l : List (Nat × α)) (a : Nat) (d : α) : Nat → List α
  | 0 => []
  | n + 1 => sget l a d :: sgetN l (a + 1) d n

/-- The store after the values of `vs` are written from key `a` on. -/
def ssetN {α : Type} [DecidableEq α] (l : List (Nat × α)) (a : Nat) (d : α) : List α → List (Nat × α)
  | [] => l
  | v :: vs => ssetN (sset l a d v) (a + 1) d vs

/-- The entries that the values of `vs` make from key `a` on: those that differ from the default. -/
def snew {α : Type} [DecidableEq α] (a : Nat) (d : α) : List α → List (Nat × α)
  | [] => []
  | v :: vs => if v = d then snew (a + 1) d vs else (a, v) :: snew (a + 1) d vs

/-- The store after the values of `vs` are written from key `a` on, in one pass: what `ssetN` does, for long strings. -/
def sfill {α : Type} [DecidableEq α] (l : List (Nat × α)) (a : Nat) (d : α) (vs : List α) : List (Nat × α) :=
  l.filter (fun e => e.1 < a) ++ snew a d vs ++ l.filter (fun e => a + vs.length ≤ e.1)

end Sys2Proof.Machine
end

