-- ==== Sys2Proof/Machine/State.lean ====
section
/-! DEFINITION. The state of the block: the register file, the memories, the queues and engines, and the queue of the
commands that wait. Plain data throughout. -/

namespace Sys2Proof.Machine

/-- Why the machine stops with a fault. No command of this block stops: every row of the table has an effect the manual
gives, in every state. The one constructor stands for a memory access outside every listed range, which the interface
cannot reach (all addresses are taken modulo the map); nothing raises it. Safe. -/
inductive Fault where
  /-- Raised by nothing; kept so that the type is inhabited. Safe. -/
  | unreachable
  deriving DecidableEq, Repr

/-- Why a command has no meaning. -/
inductive Refusal where
  /-- Raised by an arm of Dispatch whose command has no meaning yet. Safe: the machine stops where the hardware goes on. -/
  | notModelled (mnemonic : String)
  deriving DecidableEq, Repr

/-- Where the part stands (R330 to R352). -/
inductive Phase where
  /-- POR held by the supervisors (R384). -/
  | por
  /-- RESET_N low (R385). -/
  | held
  /-- A start is running, the loader at work (R71). -/
  | start
  /-- Locked and running (R77); forwarding from the first boundary on. -/
  | run
  /-- A pre-reset flush (R332), of the kind in `Power.flush`. -/
  | flush
  /-- DOZE (R340). -/
  | doze
  /-- Leaving DOZE (R342). -/
  | dozeExit
  /-- SLEEP (R343). -/
  | sleep
  /-- Safe hold of the loader (R79). -/
  | safeHold
  /-- Thermal safe hold (R349). -/
  | thermHold
  /-- The power-fail hold (R351). -/
  | pfailHold
  deriving DecidableEq, Repr

/-- What a flush opens (R332, R339, R343, R349), or the emergency seal before the power-fail hold (R351). -/
inductive FlushKind where
  | warm | sleep | doze | therm | pfail
  deriving DecidableEq, Repr

/-- Power, reset and temperature state that no register shows. -/
structure Power where
  phase      : Phase
  /-- Forwarding has begun in this run: the first boundary after the lock or the DOZE exit has passed. -/
  fwd        : Bool
  flush      : FlushKind
  /-- TIME_RAW at the start of the flush. -/
  flushAt    : Nat
  /-- Cause the next start records (R335). -/
  cause      : Nat
  /-- RESET_N is high. -/
  resetNHigh : Bool
  /-- The flush's tail seal has been programmed with its page digest. -/
  tailDone   : Bool
  /-- A warm reset asked for by the eyelet, to begin at a boundary (R366): TIME_RAW at acceptance. -/
  eyeReset   : Option Nat
  /-- The reply to that request has left its port. -/
  eyeReplied : Bool
  /-- DOZE entry waits for the next boundary (R339). -/
  dozeReq    : Bool
  /-- The waiting DOZE entry comes from the quiet rule. -/
  dozeQuiet  : Bool
  /-- A wake arrived during entry (R342, R343). -/
  wakeHeld   : Bool
  /-- Repeat boundaries passed in DOZE. -/
  dozeReps   : Nat
  /-- Consecutive repeats without a good frame or message on ports 0 to 47 (R339). -/
  quietReps  : Nat
  /-- A good frame or message came in the current repeat. -/
  busyRep    : Bool
  /-- A thermal trip arrived during a warm or SLEEP flush (R352). -/
  thermTrip  : Bool
  /-- The sensor has been read since the start, or since DOZE (R348). -/
  tempSeen   : Bool
  /-- Consecutive readings at 120 °C or above (R349). -/
  hotRuns    : Nat
  /-- TIME_RAW since which TEMP has stayed below RESUME in thermal safe hold (R350). -/
  coolSince  : Option Nat
  /-- A fatal fault or watchdog expiry was detected and the following start has not locked (R338). -/
  faultLow   : Bool
  /-- FLT_LAST_FAULT was written since the previous start (R335). -/
  freshFault : Bool
  /-- Boundaries to the watchdog's expiry (R336). -/
  wdog       : Nat
  /-- FLT_WDOG_WARN has been raised in the watchdog's present period. -/
  wdogWarned : Bool
  /-- The debug-unlock mark of the always-on domain (R69, R345). -/
  dbgMark    : Bool
  /-- Nanoseconds by which the always-on domain's oscillator count is ahead of TIME_RAW, for the check of R29. -/
  oscCount   : Nat
  /-- PWRFAIL_N is low (R386). -/
  pwrfail    : Bool
  /-- A fatal double-bit error has been found; the warm reset follows at the end of the command (R337). -/
  fatal      : Bool
  /-- A start that relocks the PLL waits for its loader: TIME_RAW counts REFCLK cycles (R29). -/
  relock     : Bool
  /-- The node number that the always-on domain keeps (R343). -/
  node       : Nat
  deriving DecidableEq, Repr

/-- What stands on an output (R387): a level, high impedance, electrical idle, or what its block drives. -/
inductive PinLevel where
  | low | high | highZ | idle | driven
  deriving DecidableEq, Repr

/-- The outputs of the core domain whose state while their block does not drive them R387 gives, beside those of `Pins`. -/
structure Pads where
  mdc        : PinLevel
  mdio       : PinLevel
  canTxd     : PinLevel
  tdo        : PinLevel
  ospiDq     : PinLevel
  ospiDqs    : PinLevel
  ospiCsN    : PinLevel
  ospiResetN : PinLevel
  sdTx       : PinLevel
  t1s        : PinLevel
  deriving DecidableEq, Repr

/-- The pins the manual names (R338, R348, R325, R56, R377, R387, R390). -/
structure Pins where
  faultNLow  : Bool
  legalHalt  : Bool
  thermAlert : Bool
  /-- PPS_OUT[j] is high until this TIME_RAW. -/
  ppsOutTill : List (Nat × Nat)
  /-- PPS_OUT pulses driven so far on each pin. -/
  ppsOutCnt  : List (Nat × Nat)
  /-- GPIO outputs are driven (R377); otherwise every GPIO pin is high-impedance. -/
  gpioDriven : Bool
  /-- Levels the board drives on GPIO inputs. -/
  gpioIn     : Word
  /-- Bit k: OSPI0 brings a read error for slot k (R80). -/
  ospiBad    : BitVec 2
  /-- Pages of the ring of OSPI1 whose read fails (R358). -/
  ospiBad1   : List Nat
  pads       : Pads
  /-- TIME_RAW until which OSPI0_RESET_N and OSPI1_RESET_N are low in the start in progress (R390). -/
  ospiTill   : Nat
  deriving DecidableEq, Repr

/-- The part of the time base that no register shows (R29 to R38). -/
structure Clock where
  /-- Signed amount still to slew, 2^-16 ns. -/
  slewRemain : Int
  /-- The whole adjustment of the slew in progress, 2^-4 ns. -/
  slewAdj    : Int
  /-- Part of a 2^-16 ns not yet slewed, 10^-6 of it. -/
  slewAcc    : Nat
  /-- Trust change waiting for the next boundary (R37). -/
  pendTrust  : Option Nat
  /-- The trust asked for in the boundary cycle itself, which waits for the boundary after it; the inner `none` asks for the trust
  in force (R37). -/
  lateTrust  : Option (Option Nat)
  /-- The latest trust changes, newest first: LT of the boundary, and the trust before it (R37, R310). -/
  trustWas   : List (Int × Nat)
  /-- TIME_RAW of the latest loss of sync (R38). -/
  lostAt     : Nat
  /-- TIME_RAW of the latest servo report, or of the start. -/
  reportAt   : Nat
  /-- Trust was SYNCED at every boundary of the repeat in progress so far. -/
  repSynced  : Bool
  /-- TIME_RAW of the latest PPS_IN edge or missing report, for each input. -/
  ppsAt      : List (Nat × Nat)
  /-- SWAP_DELAY of the hoop in progress has passed (R50). -/
  swapped    : Bool
  /-- The emit build of the hoop in progress has started (R236). -/
  built      : Bool
  /-- TIME_RAW of the latest boundary cycle. -/
  boundRaw   : Nat
  /-- TIME_RAW of the latest lock. -/
  lockRaw    : Nat
  /-- The latest second of LT at which an output of PPS_OUT was driven, and TIME_RAW of the first cycle in which LT had reached it (R56). -/
  second     : Option (Int × Nat)
  deriving DecidableEq, Repr

/-- One event record (R371). The block byte is code bits [15:8]. -/
structure Ev where
  code   : Nat
  port   : Nat
  hoop   : Word
  detail : BitVec 64
  /-- TIME_RAW of the cycle the event was raised in (R373). -/
  raw    : Nat
  deriving DecidableEq, Repr

/-- The event unit (R371 to R373) and the eyelet's copies (R362). -/
structure Events where
  /-- Raised, not yet written: at most 64. -/
  queue   : List Ev
  /-- The holding queue of 64 while the ring does not run. -/
  holding : List Ev
  /-- Records lost since the last SYS_EVT_LOST record. -/
  lost    : Nat
  /-- Counts of happenings in this hoop, for events raised at the first of a hoop: (key, count). -/
  marks   : List (Nat × Nat)
  /-- The eyelet's first 64 events of the hoop, oldest first. -/
  eye     : List Ev
  /-- Events beyond those 64 in this hoop. -/
  eyeLost : Nat
  /-- From this TIME_RAW on the ring accepts the next record (R373). -/
  freeAt  : Nat
  deriving DecidableEq, Repr

/-- A frame or a copy inside the part: its bytes and its descriptor (R177), with what the slow-path descriptor (R368)
and the later stages need. -/
structure Frame where
  /-- Destination address to end of payload, without FCS; or the CAN header and data. -/
  data      : Bytes
  isCan     : Bool := false
  /-- Identity of the frame whose body cells the copies share (R188). -/
  fid       : Nat := 0
  src       : Nat := 0
  bank      : Nat := 0
  pass      : Bool := false
  cls       : Nat := 0
  colour    : Nat := 0
  rewrite   : Nat := 0
  rwArg     : Nat := 0
  ct        : Bool := false
  evidence  : Bool := false
  capture   : Bool := false
  bridge    : Bool := false
  tsCap     : Bool := false
  launchV   : Bool := false
  launch    : Nat := 0
  /-- LAUNCH_LATE was counted and the hold lost, under POLICY 1 (R213). -/
  lateDone  : Bool := false
  stomp     : Bool := false
  egress    : Nat := 0
  seq       : Nat := 0
  action    : Nat := 0
  /-- Ingress timestamp (R17) and start-of-frame timestamp (R42), 2^-16 ns of LT. -/
  ts        : Int := 0
  sof       : Int := 0
  tsHoop    : Nat := 0
  tsTrust   : Nat := 0
  reason    : Nat := 0
  cause     : Nat := 0
  node      : Nat := 0
  filter    : Nat := 0
  mq        : Nat := 0
  flowHit   : Bool := false
  nodeValid : Bool := false
  fdbDa     : Bool := false
  fdbSa     : Bool := false
  kind      : Nat := 0
  dest      : Nat := 0
  /-- Where the frame goes: 0 = the port `goDest`, 1 = the group `goDest`, 2 = nowhere. -/
  goKind    : Nat := 0
  goDest    : Nat := 0
  /-- Forwarded on a NODE decision: header start of its Akzor header, plus one; 0 = not so forwarded (R156). -/
  hopAt     : Nat := 0
  slowCopy  : Bool := false
  ctDis     : Bool := false
  police    : Bool := false
  policer   : Nat := 0
  evTempl   : Nat := 0
  capMap    : Nat := 0
  /-- An action record was read for the frame: `action` is credited (R157). -/
  acted     : Bool := false
  /-- Header end of the last parse node, and the header start of that node plus one when it is an Akzor node, else 0. -/
  hdrEnd    : Nat := 0
  lastAkz   : Nat := 0
  /-- The parse vector (R134). -/
  pv        : Bytes := []
  /-- TAG of R43. -/
  tag       : Nat := 0
  /-- Cells charged (R176, R183), and to which limit: 0 = its queue, 1 = RSV_MGMT, 2 = RSV_RECIRC, 3 = RSV_EMIT. -/
  charge    : Nat := 0
  limit     : Nat := 0
  /-- Couching-bridge transaction this frame carries, plus one; 0 = none (R272). -/
  brg       : Nat := 0
  /-- 7 in the reply to an eyelet WARM_RESET request, whose departure the reset waits for (R366); 0 in every other frame. -/
  eye       : Nat := 0
  /-- Whether the frame arrived protected by MACsec with a bad ICV under Check (R304), or was found bad. -/
  msecBad   : Bool := false
  /-- LT of the enqueue, whole ns modulo 2^48 (R213). -/
  enq       : Nat := 0
  /-- Address of the transmit-ring descriptor that sent it in lookup mode, plus one; 0 = none (R369). -/
  txDesc    : Nat := 0
  /-- The cells the copy holds, by pointer, its head cell first (R176). -/
  cells     : List Nat := []
  /-- Its reception was cut: the bytes held end without an FCS of their own (R90, R86). -/
  cut       : Bool := false
  /-- TIME_RAW of the forwarding decision: frames of one cycle are admitted by group (R184, R306). -/
  decided   : Nat := 0
  /-- TIME_RAW at which the frame completed the checks of its reception (R18, R306). -/
  rxAt      : Nat := 0
  /-- Its parse found LENGTH_CONFLICT at its end, and it was taken cut-through on its head: the class it came with, for the exception it
  raises where no cut-through copy is admitted after all (R141, R142). -/
  conflict  : Option Nat := none
  deriving DecidableEq, Repr

/-- What has happened since the coming boundary fell due, in its boundary cycle or after it. -/
structure Late where
  /-- Counter events: (counter address, amount) (R52). -/
  counts : List (Nat × Nat)
  /-- Requests that wait for the boundary after: (kind, index) (R51). -/
  asks   : List (Nat × Nat)
  /-- TIME_RAW of the boundary cycle, once it has come; 0 before. -/
  raw    : Nat
  /-- The copies that held cells when the boundary cycle came (R214). -/
  copies : List Frame
  deriving DecidableEq, Repr

/-- A copy crossing the ground (R179): the intermediate its cells pass; TIME_RAW at which its last entry has reached its egress group;
and whether a double-bit error in an entry has lost it (R193). -/
structure Flight where
  copy    : Frame
  inter   : Nat
  arrived : Option Nat
  lost    : Bool
  deriving DecidableEq, Repr

/-- A cell that has still to cross stage 1: its pointer, its frame, the egress port whose head cell it is, the egress groups that take an
entry of it, those for which it is the frame's last, and the frame length in the last cell of all, else 0. -/
structure PathCell where
  cell : Nat
  fid  : Nat
  port : Option Nat
  egs  : List Nat
  ends : List Nat
  len  : Nat
  deriving DecidableEq, Repr

/-- An entry in the queue of an intermediate (R179): a cell, its frame, the egress port whose head cell it is, and whether it is the
frame's last for its group. -/
structure Entry where
  cell : Nat
  fid  : Nat
  port : Option Nat
  last : Bool
  deriving DecidableEq, Repr

/-- Copies of one frame that wait for an intermediate (R180). -/
structure Spread where
  group   : Nat
  copies  : List Frame
  stalled : Bool
  deriving DecidableEq, Repr

/-- The sequence state of one triple (R181). -/
structure Triple where
  src    : Nat
  egress : Nat
  cls    : Nat
  next   : Nat
  expect : Nat
  deriving DecidableEq, Repr

/-- An early copy held by its egress group, and TIME_RAW when it arrived (R181, R182). -/
structure Held where
  copy : Frame
  raw  : Nat
  deriving DecidableEq, Repr

/-- What a source notes when a frame of its own meets admission: nothing; the emit unit the template and the counter of its kind of frame
(R238); the eyelet the kind and the sequence of a datagram (R358). -/
inductive Note where
  | none
  | emit (template cnt : Nat)
  | eye (kind seq : Nat)
  deriving DecidableEq, Repr

/-- A frame that waits at its source for its turn at the injection rate of its port (R13): TIME_RAW of its injection; its egress port is its
destination. -/
structure Inject where
  due  : Nat
  copy : Frame
  note : Note
  deriving DecidableEq, Repr

/-- What a policer gets back when the last byte of a frame metered at its head arrives (R199): TIME_RAW of it, the policer, whether the
frame debited TC, and the bytes. -/
structure AddBack where
  due     : Nat
  policer : Nat
  tc      : Bool
  bytes   : Nat
  deriving DecidableEq, Repr

/-- The ground (R178 to R182, R188). -/
structure Ground where
  flight  : List Flight
  spread  : List Spread
  triples : List Triple
  held    : List Held
  /-- ptr[g] of R180. -/
  ptr     : List (Nat × Nat)
  /-- sent[g][m] of R180, key 8g + m. -/
  sent    : List (Nat × Nat)
  /-- LFSR of each egress group (R192); unlisted = 0xACE1. -/
  lfsr    : List (Nat × BitVec 16)
  nextFid : Nat
  /-- Cells that wait for stage 1 on the path from group g to intermediate m, key 8g + m. -/
  paths   : List (Nat × List PathCell)
  /-- The queue of intermediate m for egress group e, oldest entry first, key 8m + e; at most 64 entries. -/
  queues  : List (Nat × List Entry)
  /-- Where each queue of 64 takes its next entry, by the same key. -/
  wrPos   : List (Nat × Nat)
  /-- The next cell slot, counted from TIME_RAW 0. -/
  slot    : Nat
  /-- Frames of the internal sources that wait for their injection, in the order of its time (R13). -/
  inj     : List Inject
  /-- TIME_RAW from which each internal port may inject its next frame. -/
  injFree : List (Nat × Nat)
  /-- What policers get back (R199). -/
  backs   : List AddBack
  deriving DecidableEq, Repr

/-- A frame on the wire of an egress port. -/
structure Sending where
  port   : Nat
  /-- The copy, which holds its cells until the frame has left. -/
  copy   : Frame
  /-- The copy as rewritten, for the internal ports. -/
  out    : Frame
  /-- The bytes as sent, without FCS. -/
  bytes  : Bytes
  /-- sent_length, FCS included. -/
  slen   : Nat
  stomp  : Bool
  /-- The port's link was down: the frame is being discarded at line rate (R86). -/
  dead   : Bool
  started : Nat
  /-- ETH_TX_THRESH.CURRENT at the start of the frame (R99). -/
  thresh : Nat
  deriving DecidableEq, Repr

/-- What left the part: the port, the bytes without FCS, whether the FCS was stomped, and the four bytes of the FCS in the order they
were sent; none on a CAN port. -/
structure Sent where
  port  : Nat
  bytes : Bytes
  stomp : Bool
  fcs   : Bytes
  deriving DecidableEq, Repr

/-- Egress state of a port that no register shows (R202, R204, R206, R210, R213). -/
structure EgrPort where
  /-- Class whose DWRR visit is in progress. -/
  visit     : Option Nat
  /-- Class after which the next visit comes. -/
  lastVisit : Nat
  /-- TIME_RAW of the latest shaper update. -/
  shapeAt   : Nat
  /-- Remainders of the token accruals, key c, 8 = port: in 1/8000000 byte. -/
  shapeRem  : List (Nat × Nat)
  /-- A TEST request waits for a repeat boundary. -/
  testReq   : Bool
  /-- The gate list had a fault in this repeat. -/
  gateFault : Bool
  /-- Greatest sojourn, and frames dequeued, in this hoop, by class. -/
  sojourn   : List (Nat × Nat)
  dequeued  : List (Nat × Nat)
  /-- The same of the starts decided since the coming boundary fell due: they belong to the hoop that begins with it (R52). -/
  sojNext   : List (Nat × Nat)
  deqNext   : List (Nat × Nat)
  /-- TIME_RAW from which the transmitter can begin a frame: the end of the frame before, and its interframe gap (R201). -/
  idleAt    : Nat
  deriving DecidableEq, Repr

/-- Ethernet port state that no register shows. -/
structure EthPort where
  /-- The receiver's CTLE and first DFE tap in force (R85). -/
  ctle      : Nat
  dfe1      : Nat
  /-- TIME_RAW of signal detect, or of the latest restart of adaptation. -/
  signalAt  : Option Nat
  adapting  : Bool
  adapted   : Bool
  retries   : Nat
  /-- TIME_RAW since which lock has been held. -/
  lockAt    : Option Nat
  /-- TIME_RAW at which a running pause ends: key n = class n, 8 = the whole port. -/
  pauseEnd  : List (Nat × Nat)
  /-- TIME_RAW from which the pause in force has run without a gap. -/
  pauseFrom : List (Nat × Nat)
  /-- TIME_RAW of the cycle in which the pause in force began: it acts from the cycle after (R102). -/
  pauseSet  : List (Nat × Nat)
  /-- Watchdog counts (R103). -/
  wdogCnt   : List (Nat × Nat)
  /-- While pause is ignored: the hoops of ignoring left, plus one. -/
  ignLeft   : List (Nat × Nat)
  deriving DecidableEq, Repr

/-- A datapath transmit buffer of a CAN controller (R114). -/
structure CanTx where
  copy    : Frame
  cancel  : Bool
  /-- Its capture record has been made (R43). -/
  stamped : Bool
  deriving DecidableEq, Repr

/-- A CAN controller (R105 to R121, R402). -/
structure CanPort where
  txb      : List (Nat × CanTx)
  /-- Images of the management transmit buffers (R116). -/
  mtx      : List (Nat × Bytes)
  mfifo    : List Bytes
  shadow   : List (Nat × Bytes)
  /-- The buffer in transmission: class c, or 8 + n for management buffer n. -/
  active   : Option Nat
  /-- In the protocol exception state (R402). -/
  excState : Bool
  /-- Occurrences of 11 recessive bits since the recovery from bus-off began (R120). -/
  recov    : Nat
  deriving DecidableEq, Repr

/-- A T1S port (R122 to R127). -/
structure T1sPort where
  /-- TIME_RAW of the latest BEACON known of. -/
  beaconAt : Nat
  /-- Attempts at the frame that is being sent in CSMA/CD. -/
  attempts : Nat
  /-- The frame that met a collision, to be sent in the next opportunity (R125). -/
  retry    : Option Sending
  /-- Further frames that the transmit opportunity allows (R123). -/
  burst    : Nat
  deriving DecidableEq, Repr

/-- A lookup result a parsed frame was given, for the learning queue (R163). -/
structure LearnReq where
  vid  : Nat
  mac  : Bytes
  port : Nat
  deriving DecidableEq, Repr

/-- A bucket lock (R170): table, bucket, and the hoop it was taken in. -/
structure Lock where
  table  : Nat
  bucket : Nat
  hoop   : Nat
  deriving DecidableEq, Repr

/-- The tables' state that no register shows (R150 to R174). -/
structure Tables where
  learnQ   : List LearnReq
  locks    : List Lock
  /-- Locks that expired and were not answered yet: table, bucket. -/
  expired  : List (Nat × Nat)
  /-- Standby buckets written since PREPARE, by table. -/
  written  : List (Nat × Nat)
  /-- Seeds copied at PREPARE, by table. -/
  prepSeed : List (Nat × Nat)
  /-- Records in GRACE: index, and the boundaries still to pass. -/
  grace    : List (Nat × Nat)
  /-- LIVE records. -/
  live     : List Nat
  /-- Cycles spent in this hoop, by activity (R54). -/
  spent    : List (Nat × Nat)
  /-- Activities that stopped before an item this hoop. -/
  carried  : List Nat
  /-- The ageing scan of table t: the bucket it visits next under key t, the buckets owed under key 8 + t, and under key 16 + t whether it
  has been resumed after DOZE (R168). -/
  scanPos  : List (Nat × Nat)
  /-- Full hoop count until which the scan removes nothing, by table (R173). -/
  scanHold : List (Nat × Nat)
  /-- Akzor sequence counters, by egress port (R158). -/
  akzorSeq : List (Nat × Nat)
  deriving DecidableEq, Repr

/-- The parser's state that no register shows (R145 to R148). -/
structure Parser where
  /-- New parses are held (the pause of R147). -/
  paused    : Bool
  /-- TIME_RAW at which the pause ended. -/
  pauseEnd  : Nat
  deriving DecidableEq, Repr


/-- One half of a key slot (R282): material, check value, and the public key of an Ed448 key. -/
structure KeyHalf where
  mat : Bytes
  kcv : Bytes
  pub : Bytes
  deriving DecidableEq, Repr

/-- A key slot (R282): its state as KEY_SLOT_INFO.STATE codes it, its attributes (KEYSLOT payload bytes 0 to 19), and its
two halves. -/
structure KeySlot where
  st   : Nat
  attr : Bytes
  act  : KeyHalf
  pend : Option KeyHalf
  deriving DecidableEq, Repr

/-- A MACsec secure association (R301): epoch, key, salt of XPN, and the next PN to send, or the lowest acceptable PN and
the next expected one. -/
structure Sa where
  epoch : Nat
  key   : Bytes
  salt  : Bytes
  pn    : Nat
  low   : Nat
  deriving DecidableEq, Repr

/-- The working keys of a MACsec port (R302): the transmit SA, the transmit SA of the coming epoch, the receive SAs, and
the cipher faults of this hoop (R298). -/
structure Msec where
  tx     : Option Sa
  txNext : Option Sa
  rx     : List Sa
  faults : Nat
  deriving DecidableEq, Repr

/-- A working key that a consumer derived at its first use (R289). -/
structure WorkKey where
  slot  : Nat
  label : Bytes
  key   : Bytes
  deriving DecidableEq, Repr

/-- A firmware service operation in progress (R299): the descriptor's address, what it will report, and what it will write. -/
structure SvcJob where
  desc   : Nat
  status : Nat
  dest   : Nat
  out    : Bytes
  tag    : Bytes
  /-- The operation uses the Ed448 engine. -/
  signs  : Bool
  deriving DecidableEq, Repr

/-- A key replacement under verification (R292): slot, payload, hoop index of the command. -/
structure KeyJob where
  slot    : Nat
  payload : Bytes
  hoop    : Nat
  deriving DecidableEq, Repr

/-- Whom the Ed448 engine serves (R296), in the order in which it takes waiting requests; the test signature of a replacement comes last. -/
inductive EdUser where
  | sealing
  | verifier
  | attest
  | service
  | replacement
  deriving DecidableEq, Repr

/-- The key store and the cipher engine (R282 to R304). -/
structure KeyStore where
  slots : List (Nat × KeySlot)
  work  : List WorkKey
  msec  : List (Nat × Msec)
  svc   : Option SvcJob
  job   : Option KeyJob
  /-- Checked pairs whose next result will not agree (R298); no command puts a pair here. -/
  bad   : List Nat
  /-- The request the Ed448 engine has taken (R296). -/
  ed    : Option EdUser
  deriving DecidableEq, Repr

/-- The one-time programmable items (R66). Thermometer items are held as their counts. -/
structure Otp where
  lifecycle : Nat
  imageDig  : Bytes
  operDig   : List Bytes
  metroDig  : List Bytes
  lockOn    : Bool
  lockNode  : Nat
  floor     : Nat
  recovery  : Nat
  uid       : Bytes
  huk       : Bytes
  deriving DecidableEq, Repr

/-- A request the eyelet unit accepted (R358). -/
structure EyeReq where
  kind : Nat
  seq  : Nat
  body : Bytes
  deriving DecidableEq, Repr

/-- The eyelet unit (R354 to R366): accepted requests, oldest first; GAP and FIRST of the next TELEMETRY; and whether it
holds the staging engine. -/
structure Eyelet where
  queue : List EyeReq
  gap   : Bool
  first : Bool
  stage : Bool
  deriving DecidableEq, Repr

/-- What the latest read of a management core brought (R4, R57, R375). -/
structure ReadPort where
  data  : Word
  fault : Bool
  deriving DecidableEq, Repr

/-- An entry of signal memory (R220). -/
structure SigEntry where
  value : BitVec 64
  stamp : Word
  count : Nat
  flags : Nat
  deriving DecidableEq, Repr

/-- What has happened in the core cycle in progress, for the rules on events that meet in one cycle. -/
structure Cycle where
  /-- Bits that hardware has set: (word address, bits) (R8). -/
  sets   : List (Nat × Nat)
  /-- Private-memory words that bobbins have stored: (bobbin, byte address) (R246). -/
  stores : List (Nat × Nat)
  /-- Policers that firmware has written, as they stood before: frames of the cycle meet those (R200). -/
  pols   : List (Nat × Bytes)
  /-- Capture records that found their group's queue full: egress port, TAG, transmit time. A pop in the cycle makes room for one (R44). -/
  tsWait : List (Fin 48 × Nat × Int)
  /-- CAN messages that found the management FIFO full: controller, filter, image. A pop in the cycle makes room for one (R112). -/
  mfWait : List (Fin 16 × Nat × Bytes)
  /-- Management buffers whose PENDING message was cancelled in the cycle, which a commit of the same cycle finds in transmission: controller,
  buffer (R117). -/
  cancels : List (Fin 16 × Fin 16)
  /-- Priority buffers whose main half a message was written into: (controller, buffer); and those of them it overran (R113). -/
  prioIn   : List (Fin 16 × Fin 4)
  prioOver : List (Fin 16 × Fin 4)
  /-- What buckets held before this cycle wrote them: (address, bytes) (R154). -/
  buckets : List (Nat × Bytes)
  /-- Table entries that a hit set ACTIVE, and slots that an ageing visit decides at the cycle's end: address, bytes to clear (0 where only
  ACTIVE goes), and the entry as it was visited (R167). -/
  hits    : List Nat
  ages    : List (Nat × Nat × Bytes)
  /-- What private-memory words, none where bad, and signal entries held before this cycle wrote them (R225, R246). -/
  privOld : List ((Nat × Nat) × Option (BitVec 64))
  sigOld  : List (Nat × SigEntry)
  /-- The GPIO outputs that the boundary update of this cycle has set, and their levels (R377). -/
  gpio    : Option (Word × Word)
  deriving DecidableEq, Repr

/-- Signal memory (R220 to R223): the entries of both banks, entry i of bank n under key 65536n + i; an unlisted entry holds
zero with the stamp `stamp`. `pos` is the next index of the refresh. -/
structure SigMem where
  ents  : List (Nat × SigEntry)
  stamp : Word
  pos   : Nat
  /-- TIME_RAW of the first cycle that is free for a capture (R219, R222). -/
  free  : Nat
  /-- Captures of the part's own units that wait for their cycle: TIME_RAW of it, index, hoop, value, flags. -/
  wait  : List (Nat × Nat × Word × BitVec 64 × Nat)
  deriving DecidableEq, Repr

/-- An emit record (R235): template, field values, and the hoop it was committed in (R241). -/
structure EmitRec where
  template : Nat
  vals     : List (BitVec 64)
  hoop     : Nat
  deriving DecidableEq, Repr

/-- A signal read that is outstanding (R228, R229): the cycle in which its result is ready, its register pair, its result. -/
structure SldWait where
  due   : Nat
  reg   : Nat
  value : BitVec 64
  info  : BitVec 64
  deriving DecidableEq, Repr

/-- A REP in progress (R252): first word of the body, the word after it, iterations left. -/
structure RepLoop where
  start : Nat
  stop  : Nat
  left  : Nat
  deriving DecidableEq, Repr

/-- A bobbin (R227 to R232): the registers, predicates, word address and issue timing of its run, and its record sets. Cycles
count from the start of the run; keys of `ready` are 0 to 31 for registers and 32 to 39 for predicates. -/
structure Lane where
  /-- TIME_RAW of cycle 0 of the run. -/
  started   : Nat
  wregs     : List (Nat × BitVec 64)
  preds     : BitVec 8
  pc        : Nat
  /-- The earliest cycle in which the next instruction may issue. -/
  cyc       : Nat
  ready     : List (Nat × Nat)
  /-- The cycle until which an SLD is outstanding, by slice. -/
  slices    : List (Nat × Nat)
  /-- The latest issue cycle of an ST, plus 2. -/
  stDone    : Nat
  loops     : List RepLoop
  sld       : List SldWait
  records   : List EmitRec
  committed : Option (List EmitRec)
  /-- The set decided for the next launch (R232). -/
  out       : List EmitRec
  deriving DecidableEq, Repr

/-- An item of the record buffer (R313): a chain record, or a seal, whose 128 bytes before the signature stand alone until it is
signed. `seq` is the record's sequence number, or the last one the seal covers; `slot` its first buffer slot; `tail` marks a
tail or emergency seal, which closes its page. -/
structure ChainItem where
  bytes  : Bytes
  isSeal : Bool
  signed : Bool
  seq    : Nat
  head   : Bytes
  slot   : Nat
  tail   : Bool
  deriving DecidableEq, Repr

/-- The seal unit (R305 to R329) beside its registers: the record buffer; a seal that waits for a signature to end; the full hoop
count at which the triggers last restarted; the last sequence of the last seal in the store; the last chain record programmed
and its chain value; the erased blocks, the blocks to be erased again after POR, and the reclaimable ones; whether the append page
has been opened; whether the always-on items survive; a foreign store; programming stopped; the hoop indices that the
always-on domain keeps (R280): that in which the latest flush began, and that at which the core domain stopped; the CHAIN_LOST
sequences not yet sealed. -/
structure Chain where
  buf      : List ChainItem
  wr       : Nat
  due      : Bool
  since    : Nat
  stored   : Nat
  prog     : Nat
  progHead : Bytes
  erased   : List Nat
  again    : List Nat
  reclaim  : List Nat
  opened   : Bool
  kept     : Bool
  foreign  : Bool
  stopped  : Bool
  lastHoop : Nat
  stopHoop : Nat
  lostSeqs : List Nat
  deriving DecidableEq, Repr

/-- A transaction slot of the couching bridge (R266). `st`: 0 FREE, 1 QUEUED, 2 ACTIVE, 3 READY, 4 DELIVERED, 5 DONE, 6 ORPHAN. `init`
is the initiator, 64 for a poll; `keyed` says that (initiator, tag) still finds the slot; `route` is bytes 4 to 15 of its BMAP
entry; `order` numbers the acceptances; `since` is the full hoop count of the dispatch or of the state that a collection timer
runs from; `seg` is the next answer segment. -/
structure BrgSlot where
  st     : Nat
  init   : Nat
  tag    : Nat
  keyed  : Bool
  write  : Bool
  addr   : Nat
  len    : Nat
  data   : Bytes
  route  : Bytes
  status : Nat
  far    : Nat
  order  : Nat
  since  : Nat
  seg    : Nat
  deriving DecidableEq, Repr

/-- What the bridge has still to send (R275, R279) in the cycle in progress: an ERROR_REPORT, or, where `poll`, the signal of poll
entry `tag` with VALID clear. -/
structure BrgOut where
  poll   : Bool
  init   : Nat
  addr   : Nat
  tag    : Nat
  status : Nat
  data   : Bytes
  deriving DecidableEq, Repr

/-- The couching bridge (R260 to R281): the slots by number, the generations of the far-side tags, the acceptances so far, what is
still to be sent, the boundaries the start stall still has, the next entry of the poll pass in progress, the last OK value of
each poll plus one, the previous GPIO sample, the event sequence, and the RESET_NOTICE that waits (status, last hoop index). -/
structure Brg where
  slots  : List (Nat × BrgSlot)
  gens   : List (Nat × Nat)
  order  : Nat
  out    : List BrgOut
  stall  : Nat
  pollAt : Option Nat
  polled : List (Nat × Nat)
  gpio   : Option Nat
  seq    : Nat
  notice : Option (Nat × Nat)
  deriving DecidableEq, Repr

/-- A PHY write of an MDIO record (R88), with the wait after it in microseconds. -/
structure PhyWrite where
  port   : Nat
  clause : Nat
  phy    : Nat
  device : Nat
  reg    : Nat
  value  : Nat
  wait   : Nat
  deriving DecidableEq, Repr

/-- The loader (R63 to R75): DUAL records so far, MDIO accesses held back, TABLE entries not yet placed, whether the checks after END
have passed on what the records have left, whether a metrology section stands, and the key slots it has defined; `image` says that a
load from a slot has ended well; `blobTop` is the end of the highest BLOB of management memory, and `rate` TIME_RATE as the start found
it. -/
structure Loader where
  duals   : Nat
  mdio    : List PhyWrite
  entries : List (Nat × Bytes)
  checked : Bool
  metro   : Bool
  image   : Bool
  mslots  : List Nat
  blobTop : Nat
  rate    : Nat
  deriving DecidableEq, Repr

/-- An operation of the staging engine (R74, R365): 1 erase, 2 program, 3 check; slot, offset, page data; `eye` is the sequence of the
STAGE request that asked for it, and `reply` the frame of a recovery request. -/
structure StageJob where
  op   : Nat
  slot : Nat
  off  : Nat
  data : Bytes
  eye  : Option Nat
  reply : Option Frame
  deriving DecidableEq, Repr
/-- Power state under POR. -/
def powerInit : Power := ⟨.por, false, .warm, 0, 0, true, false, none, false, false, false, false, 0, 0, false, false, false, 0, none,
  false, false, 0, false, false, 0, false, false, false, 0⟩

/-- The outputs during POR, RESET_N and SLEEP (R387). -/
def padsInit : Pads := ⟨.low, .highZ, .high, .highZ, .highZ, .highZ, .high, .low, .idle, .highZ⟩

/-- The outputs once a start has begun: their blocks drive them, and OSPI RESET_N is low until the loader reads (R387, R390). -/
def padsStart : Pads := ⟨.driven, .driven, .driven, .driven, .driven, .driven, .driven, .low, .driven, .driven⟩

/-- Pins during POR (R387): LEGAL_HALT driven high, THERM_ALERT and PPS_OUT low, FAULT_N released, GPIO high-impedance. -/
def pinsInit : Pins := ⟨false, true, false, [], [], false, 0, 0, [], padsInit, 0⟩

/-- The time base after POR (R29, R35). -/
def clockInit : Clock := ⟨0, 0, 0, none, none, [], 0, 0, false, [], true, true, 0, 0, none⟩

/-- The empty ground. -/
def groundInit : Ground := ⟨[], [], [], [], [], [], [], 0, [], [], [], 0, [], [], []⟩

/-- An egress port without history. -/
def egrInit : EgrPort := ⟨none, 0, 0, [], false, false, [], [], [], [], 0⟩

/-- An Ethernet port whose link is down. -/
def ethInit : EthPort := ⟨0, 0, none, false, false, 0, none, [], [], [], [], []⟩

/-- A CAN controller with empty buffers. -/
def canInit : CanPort := ⟨[], [], [], [], none, false, 0⟩

/-- A T1S port without history. -/
def t1sInit : T1sPort := ⟨0, 0, none, 0⟩

/-- Tables without locks, requests or live records. -/
def tablesInit : Tables := ⟨[], [], [], [], [], [], [], [], [], [], [], []⟩


/-- An empty key slot. -/
def slotInit : KeySlot := ⟨0, [], ⟨[], [], []⟩, none⟩

/-- A port without MACsec keys. -/
def msecInit : Msec := ⟨none, none, [], 0⟩

/-- The empty key store. -/
def keysInit : KeyStore := ⟨[], [], [], none, none, [], none⟩

/-- OTP with nothing fused: life-cycle state BLANK, every value zero. -/
def otpInit : Otp := ⟨0, [], [], [], false, 0, 0, 0, List.replicate 16 0, List.replicate 32 0⟩

/-- The eyelet unit after a start. -/
def eyeInit : Eyelet := ⟨[], false, true, false⟩


/-- Empty signal memory. -/
def sigInit : SigMem := ⟨[], 0, 0, 0, []⟩

/-- An entry of signal memory that is not valid. -/
def sigZero (stamp : Word) : SigEntry := ⟨0, stamp, 0, 0⟩

/-- A bobbin that has not run. -/
def laneInit : Lane := ⟨0, [], 1, 0, 0, [], [], 0, [], [], [], none, []⟩

/-- The seal unit after POR. -/
def chainInit : Chain := ⟨[], 0, false, 0, 0, 0, [], [], [], [], false, false, false, false, 0, 0, []⟩

/-- A FREE slot of the couching bridge. -/
def brgSlotInit : BrgSlot := ⟨0, 0, 0, false, false, 0, 0, [], [], 0, 0, 0, 0, 0⟩

/-- The couching bridge without transactions. -/
def brgInit : Brg := ⟨[], [], 0, [], 0, none, [], none, 0, none⟩

/-- The loader at a start. -/
def ldrInit : Loader := ⟨0, [], [], false, false, false, [], 0, 0⟩
/-- A cycle in which nothing has happened. -/
def cycInit : Cycle := ⟨[], [], [], [], [], [], [], [], [], [], [], [], [], none⟩

/-- The state of the block. -/
structure State where
  /-- Every register with an address, by byte address of the word; an unlisted word holds its Reset value. -/
  regs    : List (Nat × Word)
  /-- Latched high words of 64-bit registers (R4, R57), by address of the high word; unlisted = 0. -/
  latch   : List (Nat × Word)
  /-- On-die memories, by debug-window address (R375) or by the addresses of `Mm`; unlisted = 0. -/
  sram    : List Host.Cell
  /-- Management memory; unlisted = 0. -/
  mgmt    : List Host.Cell
  /-- OSPI0 (slot A from 0, slot B from 16 MiB) and OSPI1; unlisted = 0xFF, erased. -/
  ospi0   : List Host.Cell
  ospi1   : List Host.Cell
  /-- 64-bit words that hold a double-bit error: (memory m of R347, word address). -/
  dbe     : List (Nat × Nat)
  /-- The words that hold a single-bit error, likewise. -/
  sbe     : List (Nat × Nat)
  pwr     : Power
  pins    : Pins
  clk     : Clock
  /-- What the cycle in progress has seen. -/
  cyc     : Cycle
  /-- What came since the coming boundary fell due. -/
  sinceDue : Late
  ev      : Events
  /-- Frames received and not yet parsed, in arrival order. -/
  rxQ     : List Frame
  /-- Frames with a decision, waiting for admission. -/
  admQ    : List Frame
  gnd     : Ground
  /-- Copies in the output queues, in order of release. -/
  outQ    : List Frame
  sending : List Sending
  /-- Frames and CAN messages that have left on ports 0 to 47, oldest first. -/
  sent    : List Sent
  eth     : List (Nat × EthPort)
  can     : List (Nat × CanPort)
  t1s     : List (Nat × T1sPort)
  egr     : List (Nat × EgrPort)
  /-- MDIO reads queued: ports in order (R89). -/
  mdioQ   : List Nat
  /-- Timestamp capture queues, by group (R43): four words each, oldest first. -/
  tsq     : List (Nat × List (BitVec 128))
  /-- Records lost since the last queued record, by group (R44). -/
  tsqLost : List (Nat × Nat)
  tbl     : Tables
  prs     : Parser
  /-- Frames to be captured (R217), and evidence frames in the formation queue (R306). -/
  capQ    : List Frame
  evQ     : List Frame
  /-- The key store and the cipher engine. -/
  keys : KeyStore
  /-- OTP (R66). -/
  otp : Otp
  /-- OTP as the start in progress read it (R66). -/
  otpRead : Otp
  /-- The eyelet unit. -/
  eye : Eyelet
  /-- What the latest read of a management core brought. -/
  readPort : ReadPort
  /-- The high word that the latest read of 64 bits brought. -/
  readHigh : Word
  /-- Reservations of the management cores (R374): core, address and bytes of its latest load-reserved. -/
  resv    : List (Fin 4 × Nat × Nat)
  /-- Copies that have left the queues of port 48, for the receive rings (R368), and of port 50, for the couching bridge. -/
  spQ : List Frame
  brgQ : List Frame
  /-- Queue sample records latched and not yet written (R214). -/
  smp : List Bytes
  /-- Signal memory. -/
  sig : SigMem
  /-- The bobbins, by number. -/
  lanes : List (Nat × Lane)
  /-- The seal unit. -/
  chain : Chain
  /-- The couching bridge. -/
  brg : Brg
  /-- The loader. -/
  ldr : Loader
  /-- PHY writes that MDIO records have made, oldest first. -/
  phy : List PhyWrite
  /-- The staging engine's operation in progress. -/
  stg : Option StageJob
  /-- Applications of a free value so far; every use of a value of Config advances it. -/
  freeCtr : Nat
  /-- The commands that wait, first in first out. -/
  pending : List Instr
  deriving DecidableEq, Repr

namespace State

/-- The machine after POR, with POR still held (R383, R384): every register at its Reset value, every queue empty. -/
def reset : State where
  regs    := []
  latch   := []
  sram    := []
  mgmt    := []
  ospi0   := []
  ospi1   := []
  dbe     := []
  sbe     := []
  pwr     := powerInit
  pins    := pinsInit
  clk     := clockInit
  cyc     := cycInit
  sinceDue := ⟨[], [], 0, []⟩
  ev      := ⟨[], [], 0, [], [], 0, 0⟩
  rxQ     := []
  admQ    := []
  gnd     := groundInit
  outQ    := []
  sending := []
  sent    := []
  eth     := []
  can     := []
  t1s     := []
  egr     := []
  mdioQ   := []
  tsq     := []
  tsqLost := []
  tbl     := tablesInit
  prs     := ⟨false, 0⟩
  capQ    := []
  evQ     := []
  keys := keysInit
  otp := otpInit
  otpRead := otpInit
  eye := eyeInit
  readPort := ⟨0, false⟩
  readHigh := 0
  resv := []
  spQ := []
  brgQ := []
  smp := []
  sig := sigInit
  lanes := []
  chain := chainInit
  brg := brgInit
  ldr := ldrInit
  phy := []
  stg := none
  freeCtr := 0
  pending := []

end State

end Sys2Proof.Machine
end

