-- ==== Sys2Proof/Machine/Ops.lean ====
section
/-! DEFINITION. The named operations the meanings are written over: registers and fields, memories, local time, free
values. -/

namespace Sys2Proof.Machine

/-! ## Registers -/

/-- The word of a register (R4). -/
def State.rdw (s : State) (r : Reg) : Word := sget s.regs r.addr (BitVec.ofNat 32 r.rst)

/-- A register's word as a number. -/
def State.rd (s : State) (r : Reg) : Nat := (s.rdw r).toNat

/-- The state with the number `v` in a register, modulo 2^32. -/
def State.wr (s : State) (r : Reg) (v : Nat) : State :=
  { s with regs := sset s.regs r.addr (BitVec.ofNat 32 r.rst) (BitVec.ofNat 32 v) }

/-- A 64-bit register, the low word at the lower address (R4). -/
def State.rd64 (s : State) (r : Reg) : Nat := s.rd r + 2 ^ 32 * s.rd (regWord r 1)

/-- Writes a 64-bit register. -/
def State.wr64 (s : State) (r : Reg) (v : Nat) : State := (s.wr r v).wr (regWord r 1) (v / 2 ^ 32)

/-- A field of a number. -/
def fieldOf (v : Nat) (f : Fld) : Nat := v / 2 ^ f.lo % 2 ^ f.width

/-- A number with a field set to `x`. -/
def withField (v : Nat) (f : Fld) (x : Nat) : Nat :=
  v / 2 ^ (f.lo + f.width) * 2 ^ (f.lo + f.width) + x % 2 ^ f.width * 2 ^ f.lo + v % 2 ^ f.lo

/-- A field of a register; a field at bit 32 or above lies in a later word. -/
def State.fd (s : State) (r : Reg) (f : Fld) : Nat :=
  fieldOf (s.rd (regWord r (f.lo / 32))) ⟨f.lo % 32, f.width⟩

/-- The state with a field of a register set. -/
def State.sf (s : State) (r : Reg) (f : Fld) (x : Nat) : State :=
  s.wr (regWord r (f.lo / 32)) (withField (s.rd (regWord r (f.lo / 32))) ⟨f.lo % 32, f.width⟩ x)

/-- A one-bit field. -/
def State.flag (s : State) (r : Reg) (f : Fld) : Bool := s.fd r f = 1

/-- Bit `i` of a register of any width. -/
def State.bit (s : State) (r : Reg) (i : Nat) : Bool := bitOf (s.rd (regWord r (i / 32))) (i % 32)

/-- Hardware sets the bits `m` of the word at `a` in this cycle (R8). -/
def State.noteSet (s : State) (a m : Nat) : State :=
  { s with cyc := { s.cyc with sets := sset s.cyc.sets a 0 (sget s.cyc.sets a 0 ||| m) } }

/-- The state with bit `i` of a register set by hardware. -/
def State.setBit (s : State) (r : Reg) (i : Nat) : State :=
  (s.sf r ⟨i, 1⟩ 1).noteSet (regWord r (i / 32)).addr (2 ^ (i % 32))

/-- `n` words of a register as bytes in the word layout of R111 and R403: byte 4n + k in bits [8k + 7:8k] of word n. -/
def State.rdBytes (s : State) (r : Reg) : Nat → Bytes
  | 0 => []
  | n + 1 => leBytes 4 (s.rd r) ++ State.rdBytes s ⟨r.addr + 4, 0⟩ n

/-- Writes bytes into consecutive words in the word layout of R403. -/
def State.wrBytes (s : State) (r : Reg) (b : Bytes) : State :=
  match b with
  | [] => s
  | [x] => s.wr r (ofLe [x])
  | [x, y] => s.wr r (ofLe [x, y])
  | [x, y, z] => s.wr r (ofLe [x, y, z])
  | x :: y :: z :: w :: t => State.wrBytes (s.wr r (ofLe [x, y, z, w])) ⟨r.addr + 4, 0⟩ t

/-! ## Memories

On-die memories that the debug windows map are held at their window addresses (R375); the others at addresses the map
leaves free, which no access of the management cores reaches. -/

namespace Mm

def cells : Nat := 0x20000000
def flow : Nat := 0x20800000
def fdb : Nat := 0x21400000
def bmap : Nat := 0x21500000
def node : Nat := 0x21580000
def act : Nat := 0x21600000
def sig : Nat := 0x21800000
def pol : Nat := 0x21A00000
def mc : Nat := 0x21A80000
def parse : Nat := 0x21B00000
def reg8 : Nat := 0x21C00000
/-- Bobbin program memory, region 6: bobbin b at 0x1_0000 × b. -/
def prog : Nat := 0x30000000
/-- Bobbin private memory, region 7. -/
def priv : Nat := 0x30100000
/-- Gate lists, region 9: port p at 0x800 × p. -/
def gate : Nat := 0x30200000
/-- Signal initial values, region 10. -/
def sigInit : Nat := 0x30300000
/-- Evidence templates, region 11. -/
def evt : Nat := 0x30400000
/-- Counters of the action records, 32 bytes each, network order. -/
def actCnt : Nat := 0x30500000
/-- Words of memory 0 of R347 that no window maps: entries of the intermediates' queues, cell links, and MAC receive FIFOs. -/
def entry : Nat := 0x30800000
def link : Nat := 0x30900000
def fifo : Nat := 0x30A00000

end Mm

/-- `n` bytes of on-die memory. -/
def State.ram (s : State) (a n : Nat) : Bytes := sgetN s.sram a 0 n

/-- Writes bytes of on-die memory. -/
def State.setRam (s : State) (a : Nat) (b : Bytes) : State := { s with sram := ssetN s.sram a 0 b }

/-- `n` bytes of on-die memory in network order. -/
def State.ramBe (s : State) (a n : Nat) : Nat := ofBe (s.ram a n)

/-- Whether the pricking gives the elastic region to the flow table (R27): FLOW is sized beyond its own 8 MiB. DEDUCED: no
register names the assignment. -/
def State.elasticFlow (s : State) : Bool :=
  s.fd (Rg.TBL_CFG 2) Fl.TBL_CFG_SIZE > if s.flag (Rg.TBL_CFG 2) Fl.TBL_CFG_SINGLE then 32768 else 16384

/-- Bytes of management memory: 12 MiB, or 8 MiB when the flow table has the elastic region (R27). -/
def State.mgmtSize (s : State) : Nat := if s.elasticFlow then 0x800000 else 0xC00000

/-- Whether a range lies in management memory. -/
def State.inMgmt (s : State) (a n : Nat) : Bool := a + n ≤ s.mgmtSize

/-- `n` bytes of management memory. -/
def State.mem (s : State) (a n : Nat) : Bytes := sgetN s.mgmt a 0 n

/-- The reservations that stand after a write of `n` bytes of management memory: those on none of them. -/
def State.unreserve (s : State) (a n : Nat) : List (Fin 4 × Nat × Nat) :=
  s.resv.filter (fun r => r.2.1 + r.2.2 ≤ a || a + n ≤ r.2.1)

/-- Writes bytes of management memory. -/
def State.setMem (s : State) (a : Nat) (b : Bytes) : State := { s with mgmt := ssetN s.mgmt a 0 b, resv := s.unreserve a b.length }

/-- A little-endian number of `n` bytes of management memory (R3). -/
def State.memLe (s : State) (a n : Nat) : Nat := ofLe (s.mem a n)

/-- Writes long strings into on-die memory, and into management memory. -/
def State.fillRam (s : State) (a : Nat) (b : Bytes) : State := { s with sram := sfill s.sram a 0 b }
def State.fillMem (s : State) (a : Nat) (b : Bytes) : State := { s with mgmt := sfill s.mgmt a 0 b, resv := s.unreserve a b.length }

/-- What an erased byte of flash reads as. -/
def erased : BitVec 8 := 0xFF

/-- `n` bytes of OSPI0, and a program or an image load into it. -/
def State.flash0 (s : State) (a n : Nat) : Bytes := sgetN s.ospi0 a erased n

def State.setFlash0 (s : State) (a : Nat) (b : Bytes) : State := { s with ospi0 := ssetN s.ospi0 a erased b }

def State.flash1 (s : State) (a n : Nat) : Bytes := sgetN s.ospi1 a erased n

def State.setFlash1 (s : State) (a : Nat) (b : Bytes) : State := { s with ospi1 := ssetN s.ospi1 a erased b }

/-- The memories stand in their canonical form: keys strictly rising, and no entry that an unlisted key reads as. -/
def Memory.wf (s : State) : Bool := swf s.sram 0 && swf s.mgmt 0 && swf s.ospi0 erased && swf s.ospi1 erased

/-! ## Free values -/

/-- A free natural number, and the state after its draw. -/
def State.freeNat (s : State) : Nat × State := (Config.freeNat s.freeCtr, { s with freeCtr := s.freeCtr + 1 })

/-- A free bit, and the state after its draw. -/
def State.freeBit (s : State) : Bool × State := (Config.freeBit s.freeCtr, { s with freeCtr := s.freeCtr + 1 })

/-- `n` free bytes, and the state after their draw. -/
def State.freeBytes (s : State) (n : Nat) : Bytes × State :=
  ((List.range n).map (fun i => Config.freeByte (s.freeCtr + i)), { s with freeCtr := s.freeCtr + n })

/-! ## Local time (R29 to R31) -/

/-- TIME_RAW. -/
def State.raw (s : State) : Nat := s.rd64 Rg.TIME_RAW

/-- TIME_RATE, signed, in units of 2^-40. -/
def State.rate (s : State) : Int := signed 32 (s.rd Rg.TIME_RATE)

/-- TIME_OFFSET with its fraction, in 2^-16 ns. -/
def State.offset (s : State) : Int :=
  signed 64 (s.rd64 Rg.TIME_OFFSET) * 65536 + (s.fd Rg.TIME_OFFSET_FRAC Fl.TIME_OFFSET_FRAC_FRAC : Nat)

/-- Writes TIME_OFFSET and TIME_OFFSET_FRAC. -/
def State.setOffset (s : State) (v : Int) : State :=
  (s.wr64 Rg.TIME_OFFSET (unsigned 64 (v / 65536))).wr Rg.TIME_OFFSET_FRAC (unsigned 16 v)

/-- TIME_RAW × (1 + TIME_RATE), formed at 2^-40 ns and truncated to 2^-16 ns (R30). -/
def scaledRaw (raw : Nat) (rate : Int) : Int := (raw : Int) * 65536 + (raw : Int) * rate / 16777216

/-- LT in 2^-16 ns (R30). -/
def State.lt (s : State) : Int := s.offset + scaledRaw s.raw s.rate

/-- LT in whole nanoseconds. -/
def State.ltNs (s : State) : Int := s.lt / 65536

/-- The low 48 bits of LT in whole nanoseconds (R177). -/
def State.lt48 (s : State) : Nat := unsigned 48 s.ltNs

/-- The hoop index. -/
def State.hoopIx (s : State) : Nat := s.rd Rg.HOOP_INDEX

/-- The full hoop count at the latest boundary. -/
def State.hoopCount (s : State) : Nat := s.rd64 Rg.HOOP_COUNT

/-- HOOP_PERIOD in ns. -/
def State.period (s : State) : Nat := 1000 * s.fd Rg.HOOP_PERIOD Fl.HOOP_PERIOD_PERIOD

/-- HOOP_PHASE in ns. -/
def State.phase (s : State) : Nat := s.fd Rg.HOOP_PHASE Fl.HOOP_PHASE_PHASE

/-- Hoops per repeat. -/
def State.repeatLen (s : State) : Nat := s.fd Rg.HOOP_REPEAT Fl.HOOP_REPEAT_REPEAT

/-- The full hoop count of an LT in whole ns: floor((LT − HOOP_PHASE) / HOOP_PERIOD) (R46). -/
def State.countAt (s : State) (ns : Int) : Int := (ns - s.phase) / ((s.period : Nat) : Int)

/-- LT of the latest boundary in whole ns, signed. -/
def State.lastB (s : State) : Int := signed 64 (s.rd64 Rg.HOOP_LAST_B)

/-- LT of the boundary that follows, in whole ns. -/
def State.nextB (s : State) : Int := s.lastB + s.period

/-- The hoop index in which an LT of whole ns falls. -/
def State.hoopOf (s : State) (ns : Int) : Nat := unsigned 32 (s.countAt ns)

/-! ## Ports -/

/-- Whether a port is of each kind (R11). -/
def isEth (p : Nat) : Bool := p < 24
def isT1s (p : Nat) : Bool := 24 ≤ p && p < 32
def isCan (p : Nat) : Bool := 32 ≤ p && p < 48

/-- The port group of a port (R15). -/
def groupOf (p : Nat) : Nat := if p < 24 then p / 4 else if p < 32 || p = 51 then 6 else 7

/-- The ingress group of a frame: on its second pass that of port 51. -/
def Frame.group (f : Frame) : Nat := if f.pass then groupOf 51 else groupOf f.src

/-- A frame joins those decided before it: among frames of one cycle that of the lower group goes first. -/
def joinDecided (f : Frame) : List Frame → List Frame
  | [] => [f]
  | g :: t => if g.decided = f.decided ∧ f.group < g.group then f :: g :: t else g :: joinDecided f t

/-- A frame with its decision waits for admission (R184). -/
def State.toAdmission (s : State) (f : Frame) : State := { s with admQ := joinDecided { f with decided := s.raw } s.admQ }

/-- The rate of a port in bit/s: by MODE on ports 0 to 23 (R81), 10 Mbit/s on T1S, and R13 for the internal ports. -/
def State.portRate (s : State) (p : Nat) : Nat :=
  if isEth p then
    match s.fd (Rg.ETH_CFG p) Fl.ETH_CFG_MODE with
    | 0 => 10000000000
    | 1 => 25000000000
    | 2 => 1000000000
    | _ => 2500000000
  else if isT1s p then 10000000
  else if p = 49 || p = 51 then 25000000000 else 10000000000

/-- Bit times of `n` bytes at the rate of a port, in TIME_RAW units, rounded up. -/
def State.wireTime (s : State) (p n : Nat) : Nat := cdiv (n * 8 * 1000000000) (s.portRate p)

/-- MAX_FRAME of a port, 9,216 where it has none (R401). -/
def State.maxFrame (s : State) (p : Nat) : Nat :=
  if isEth p then s.fd (Rg.ETH_CFG p) Fl.ETH_CFG_MAX_FRAME
  else if isT1s p then s.fd (Rg.T1S_CFG p) Fl.T1S_CFG_MAX_FRAME
  else 9216

/-- The per-port structures. -/
def State.ethP (s : State) (p : Nat) : EthPort := sget s.eth p ethInit
def State.setEthP (s : State) (p : Nat) (v : EthPort) : State := { s with eth := sset s.eth p ethInit v }
def State.canP (s : State) (p : Nat) : CanPort := sget s.can p canInit
def State.setCanP (s : State) (p : Nat) (v : CanPort) : State := { s with can := sset s.can p canInit v }
def State.t1sP (s : State) (p : Nat) : T1sPort := sget s.t1s p t1sInit
def State.setT1sP (s : State) (p : Nat) (v : T1sPort) : State := { s with t1s := sset s.t1s p t1sInit v }
def State.egrP (s : State) (p : Nat) : EgrPort := sget s.egr p egrInit
def State.setEgrP (s : State) (p : Nat) (v : EgrPort) : State := { s with egr := sset s.egr p egrInit v }

/-- The hoop sequencer runs (R71, R79, R340, R349). -/
def State.hoopsRun (s : State) : Bool :=
  match s.pwr.phase with
  | .por | .held | .start | .sleep => false
  | _ => true

/-- The start in progress, or the one that led to this run, came from a warm reset (R330, R335). -/
def State.warmStart (s : State) : Bool := [2, 3, 4, 5, 9, 10].contains (s.fd Rg.SYS_RESET_CAUSE Fl.SYS_RESET_CAUSE_CAUSE)

/-- The last hoop index before the start (R280): after a warm reset that in which the flush began, else that at which the core domain
stopped. -/
def State.lastIndex (s : State) : Nat := if s.warmStart then s.chain.lastHoop else s.chain.stopHoop

/-- The coming boundary has fallen due: its boundary cycle has come, whether or not its command has (R46). -/
def State.boundDue (s : State) : Bool := s.hoopsRun && decide (s.ltNs ≥ s.nextB)

/-- TIME_RAW of the boundary cycle of the coming boundary, once that has fallen due (R46). -/
def State.dueRaw (s : State) : Nat := if s.sinceDue.raw = 0 then s.raw else s.sinceDue.raw

/-- Every admitted copy that still holds cells. -/
def State.copies (s : State) : List Frame :=
  s.gnd.flight.map (·.copy) ++ s.gnd.spread.flatMap (·.copies) ++ s.gnd.held.map (·.copy) ++ s.outQ
    ++ s.sending.map (·.copy) ++ s.can.flatMap (fun c => c.2.txb.map (fun b => b.2.copy))
    ++ s.t1s.flatMap (fun c => c.2.retry.toList.map (·.copy))

/-- The copies that held cells when the coming boundary fell due, or hold them now where it has not. -/
def State.dueCopies (s : State) : List Frame := if s.sinceDue.raw = 0 then s.copies else s.sinceDue.copies

/-! The kinds of request that take effect at a boundary (R51). -/
namespace Ask
def swap : Nat := 0
def table : Nat := 1
def key : Nat := 2
def gate : Nat := 3
end Ask

/-- Notes that a request was written in the boundary cycle or later (R51). -/
def State.noteAsk (s : State) (kind ix : Nat) : State :=
  if s.boundDue then { s with sinceDue := { s.sinceDue with asks := (kind, ix) :: s.sinceDue.asks } } else s

/-- Whether a request waits for the boundary after the coming one (R51). -/
def State.askedLate (s : State) (kind ix : Nat) : Bool := s.sinceDue.asks.contains (kind, ix)

/-- Whether the management cores run: after the lock, outside flush, DOZE, SLEEP and every hold (R71, R332, R339). -/
def State.coresRun (s : State) : Bool := s.pwr.phase = .run

/-- Whether the datapath takes frames: forwarding has begun (R49, R72). -/
def State.forwarding (s : State) : Bool := s.pwr.phase = .run && s.pwr.fwd

end Sys2Proof.Machine
end

