-- ==== Sys2Proof/Machine/Flags.lean ====
section
/-! DEFINITION. Events, counters and interrupt status bits: the flag computations every family shares (R8, R97, R353,
R362, R371 to R373). -/

namespace Sys2Proof.Machine

/-! ## Events -/

/-- The port byte of an event that names no port (R371). -/
def noPort : Nat := 0xFF

/-- Whether event `a` is written before event `b`: within one cycle, ascending code, then ascending port byte (R373). -/
def evBefore (a b : Ev) : Bool := a.raw = b.raw && (a.code < b.code || (a.code = b.code && a.port < b.port))

/-- The queue with an event put in its order. -/
def insertEv (q : List Ev) (e : Ev) : List Ev :=
  match q with
  | [] => [e]
  | h :: t => if evBefore e h then e :: h :: t else h :: insertEv t e

/-- Counts one lost event record (R372). -/
def State.loseEv (s : State) : State :=
  { (s.wr Rg.SYS_EVT_LOST (s.rd Rg.SYS_EVT_LOST + 1)) with ev := { s.ev with lost := s.ev.lost + 1 } }

/-- Puts an event into the queue of 64 in front of the ring; one that finds it full is lost (R372, R373). -/
def State.queueEv (s : State) (e : Ev) : State :=
  if s.ev.queue.length < 64 then { s with ev := { s.ev with queue := insertEv s.ev.queue e } } else s.loseEv

/-! ### Where counters lie (R97) -/

/-- Where a counter lies, with its HALF and OVER bits, its block's CNT_OVER interrupt bit, and its CNT_OVER event. -/
structure CntAt where
  cnt    : Reg
  half   : Reg
  ovf    : Reg
  bit    : Nat
  ist    : Reg
  istBit : Nat
  code   : Nat
  port   : Nat
  detail : Nat
  deriving DecidableEq, Repr

def eyeC (i : Nat) : CntAt := ⟨Rg.EYE_CNT i, Rg.EYE_CNT_HALF, Rg.EYE_CNT_OVER, i, Rg.EYE_INT_STATUS, 4, 0x0E04, noPort, i⟩

/-- Adds 1 to EVT_LOST of the eyelet unit, and to the losses of the hoop (R362, R378); as any counter of R97. The second component says that a
CNT_OVER event is due. -/
def State.eyeLoseOne (s : State) : State × Bool :=
  let c := eyeC 7
  let old := s.rd c.cnt
  let s1 := ({ (s.wr c.cnt (old + 1)) with ev := { s.ev with eyeLost := s.ev.eyeLost + 1 } } : State)
  if bitOf old 31 = bitOf (old + 1) 31 then (s1, false)
  else if s1.bit c.half c.bit then ((s1.setBit c.ovf c.bit).setBit c.ist c.istBit, true)
  else (s1.setBit c.half c.bit, false)

/-- An event beyond the first 64 is lost to the eyelet. Its CNT_OVER event is offered to the eyelet like every other and, where the mask
names its block, is lost there too: the places are taken. -/
def State.eyeLose (s : State) : State :=
  let c := eyeC 7
  let r := s.eyeLoseOne
  if ¬ r.2 then r.1
  else
    let s1 := r.1.queueEv ⟨c.code, c.port, s.rdw Rg.HOOP_INDEX, BitVec.ofNat 64 c.detail, s.raw⟩
    if s1.bit Rg.EYE_EVT_MASK (c.code / 256 - 1) then s1.eyeLoseOne.1 else s1

/-- The eyelet's copy of an event (R362): the first 64 of the hoop whose block the mask names. -/
def State.eyeCopy (s : State) (e : Ev) : State :=
  if e.code / 256 ≥ 1 && s.bit Rg.EYE_EVT_MASK (e.code / 256 - 1) then
    if s.ev.eye.length < 64 then { s with ev := { s.ev with eye := s.ev.eye ++ [e] } }
    else s.eyeLose
  else s

/-- Raises an event (R371): code, port byte, detail; the hoop index is that of the cycle. -/
def State.raise (s : State) (code port detail : Nat) : State :=
  let e : Ev := ⟨code, port, s.rdw Rg.HOOP_INDEX, BitVec.ofNat 64 detail, s.raw⟩
  (s.queueEv e).eyeCopy e

/-- How often a happening has come in this hoop, this one included, and the state that remembers it. -/
def State.mark (s : State) (key : Nat) : Nat × State :=
  let n := sget s.ev.marks key 0 + 1
  (n, { s with ev := { s.ev with marks := sset s.ev.marks key 0 n } })

/-- Raises an event at the first happening of a hoop; `sub` tells apart what each has a first of. -/
def State.raiseFirst (s : State) (code sub port detail : Nat) : State :=
  let m := s.mark (code * 65536 + sub)
  if m.1 = 1 then m.2.raise code port detail else m.2

/-! ## Counters (R97) -/

/-- An event of a counter that has a snapshot, in the boundary cycle or later, belongs to the new statistics bank (R52). -/
def State.noteCount (s : State) (a n : Nat) : State :=
  if 0x10100000 ≤ a ∧ a < 0x10130000 ∧ s.boundDue then
    { s with sinceDue := { s.sinceDue with counts := sset s.sinceDue.counts a 0 (sget s.sinceDue.counts a 0 + n) } }
  else s

/-- Adds `n` to a counter: it rolls over, and a crossing of a multiple of 2^31 sets HALF, or OVER with its event when
HALF is still set (R97). -/
def State.count (s : State) (c : CntAt) (n : Nat := 1) : State :=
  let old := s.rd c.cnt
  let s1 := (s.wr c.cnt (old + n)).noteCount c.cnt.addr n
  if bitOf old 31 = bitOf (old + n) 31 then s1
  else if s1.bit c.half c.bit then
    ((s1.setBit c.ovf c.bit).setBit c.ist c.istBit).raise c.code c.port c.detail
  else s1.setBit c.half c.bit

/-- Adds 1 to a rolling 32-bit counter without HALF and OVER bits. -/
def State.incr (s : State) (r : Reg) (n : Nat := 1) : State := s.wr r (s.rd r + n)

def ethC (p i : Nat) : CntAt := ⟨Rg.ETH_CNT p i, Rg.ETH_CNT_HALF p, Rg.ETH_CNT_OVER p, i, Rg.ETH_INT_STATUS p, 2, 0x0405, p, i⟩
def canC (p i : Nat) : CntAt := ⟨Rg.CAN_CNT p i, Rg.CAN_CNT_HALF p, Rg.CAN_CNT_OVER p, i, Rg.CAN_INT_STATUS p, 7, 0x050B, p, i⟩
def t1sC (p i : Nat) : CntAt := ⟨Rg.T1S_CNT p i, Rg.T1S_CNT_HALF p, Rg.T1S_CNT_OVER p, i, Rg.T1S_INT_STATUS p, 4, 0x050B, p, i + 128⟩
def parseC (p i : Nat) : CntAt := ⟨Rg.PARSE_CNT p i, Rg.PARSE_CNT_HALF p, Rg.PARSE_CNT_OVER p, i, Rg.PARSE_INT_STATUS, 3, 0x0605, p, i⟩
def tblC (i : Nat) : CntAt := ⟨Rg.TBL_CNT i, Rg.TBL_CNT_HALF, Rg.TBL_CNT_OVER, i, Rg.TBL_INT_STATUS, 5, 0x0707, noPort, i⟩
def gndC (i : Nat) : CntAt := ⟨Rg.GND_CNT i, Rg.GND_CNT_HALF, Rg.GND_CNT_OVER, i, Rg.BUF_INT_STATUS, 3, 0x0804, noPort, i⟩
def qC (p c i : Nat) : CntAt := ⟨Rg.BUF_QCNT p c i, Rg.BUF_QCNT_HALF p, Rg.BUF_QCNT_OVER p, 8 * c + i, Rg.BUF_INT_STATUS, 3, 0x0804, p, 256 + 8 * c + i⟩
def egrC (p i : Nat) : CntAt := ⟨Rg.EGR_CNT p i, Rg.EGR_CNT_HALF p, Rg.EGR_CNT_OVER p, i, Rg.EGR_INT_STATUS p, 4, 0x0907, p, i⟩
def bobC (i : Nat) : CntAt := ⟨Rg.BOB_CNT i, Rg.BOB_CNT_HALF, Rg.BOB_CNT_OVER, i, Rg.BOB_INT_STATUS, 5, 0x0A08, noPort, i⟩
def bcntC (b i : Nat) : CntAt := ⟨Rg.BOB_BCNT b i, Rg.BOB_BCNT_HALF b, Rg.BOB_BCNT_OVER b, i, Rg.BOB_INT_STATUS, 5, 0x0A08, noPort, i + 16 + 256 * b⟩
def brgC (i : Nat) : CntAt := ⟨Rg.BRG_CNT i, Rg.BRG_CNT_HALF, Rg.BRG_CNT_OVER, i, Rg.BRG_INT_STATUS, 4, 0x0B05, noPort, i⟩
def keyC (i : Nat) : CntAt := ⟨Rg.KEY_CNT i, Rg.KEY_CNT_HALF, Rg.KEY_CNT_OVER, i, Rg.KEY_INT_STATUS, 4, 0x0C08, noPort, i⟩
def spC (i : Nat) : CntAt := ⟨Rg.SYS_SP_CNT i, Rg.SYS_SP_CNT_HALF, Rg.SYS_SP_CNT_OVER, i, Rg.SYS_SP_INT_STATUS, 3, 0x0103, noPort, i⟩
def sbeC (m : Nat) : CntAt := ⟨Rg.FLT_SBE m, Rg.FLT_CNT_HALF, Rg.FLT_CNT_OVER, m, Rg.FLT_INT_STATUS, 4, 0x0F05, noPort, m⟩
def dbeC (m : Nat) : CntAt := ⟨Rg.FLT_DBE m, Rg.FLT_CNT_HALF, Rg.FLT_CNT_OVER, 16 + m, Rg.FLT_INT_STATUS, 4, 0x0F05, noPort, 16 + m⟩

/-! ## Ignored writes (R7) -/

/-- Raises SYS_WRITE_IGNORED for a write of `v` to address `a`. -/
def State.ignored (s : State) (a v : Nat) : State := s.raise 0x0110 noPort (a * 2 ^ 32 + v)

/-! ## Single-bit and double-bit errors (R347) -/

/-- Whether word `a` of memory `m` holds a double-bit error. -/
def State.isBad (s : State) (m a : Nat) : Bool := s.dbe.contains (m, a)

/-- An access to word `a` of memory `m`: a single-bit error there is corrected in the access and counted (R347). DESIGN CHOICE (log 128): the
word stays as it is until it is written. -/
def State.sbeAt (s : State) (m a : Nat) : State := if s.sbe.contains (m, a) then s.count (sbeC m) else s

/-- Whether the word of an error lies among the `n` bytes at `a` of memory `m`. -/
def errIn (m a n : Nat) (e : Nat × Nat) : Bool := e.1 = m && a / 8 ≤ e.2 / 8 && e.2 / 8 ≤ (a + n - 1) / 8

/-- An access to the `n` bytes at `a` of memory `m`, likewise. -/
def State.sbeIn (s : State) (m a n : Nat) : State :=
  let k := (s.sbe.filter (errIn m a n)).length
  if k = 0 then s else s.count (sbeC m) k

/-- Counts and reports a double-bit error in memory `m` at word `a`. -/
def State.dbeSeen (s : State) (m a : Nat) : State :=
  ((s.count (dbeC m)).setBit Rg.FLT_INT_STATUS 0).raise 0x0F01 noPort (m + a * 2 ^ 32)

/-- The first word of the `n` bytes at `a` of memory `m` that holds a double-bit error. -/
def State.badIn (s : State) (m a n : Nat) : Option Nat :=
  (s.dbe.find? (errIn m a n)).map (·.2)

/-- The words of the `n` bytes at `a` of memory `m` have been rewritten with valid check bits. -/
def State.mendedIn (s : State) (m a n : Nat) : State :=
  { s with dbe := s.dbe.filter (fun e => !errIn m a n e), sbe := s.sbe.filter (fun e => !errIn m a n e) }

/-- Changes the power state. -/
def State.setPwr (s : State) (f : Power → Power) : State := { s with pwr := f s.pwr }

/-- Writes FLT_LAST_FAULT and FLT_LAST_FAULT_HOOP (R336, R337, R349). -/
def State.lastFault (s : State) (code : Nat) : State :=
  ((s.wr Rg.FLT_LAST_FAULT code).wr Rg.FLT_LAST_FAULT_HOOP s.hoopIx).setPwr (fun p => { p with freshFault := true })

/-- FAULT_N goes low until the lock of the following start (R338). -/
def State.faultPin (s : State) : State :=
  { s with pwr := { s.pwr with faultLow := true }, pins := { s.pins with faultNLow := true } }

/-- A double-bit error in a memory that R347 marks fatal: 0x0F11 with the memory is written, and a warm reset will follow (R337). -/
def State.fatalDbe (s : State) (m a : Nat) : State :=
  (((s.dbeSeen m a).lastFault (0x0F11 + m * 2 ^ 16)).faultPin).setPwr (fun p => { p with fatal := true })

/-- Word `a` of memory `m` has been rewritten with valid check bits. -/
def State.mended (s : State) (m a : Nat) : State :=
  { s with dbe := s.dbe.filter (fun e => e != (m, a)), sbe := s.sbe.filter (fun e => e != (m, a)) }

end Sys2Proof.Machine
end

