-- ==== Sys2Proof/Machine/BrgSlots.lean ====
section
/-! DEFINITION. The transaction slots of the couching bridge (R262, R266), and their failure (R270 to R275). -/

namespace Sys2Proof.Machine

/-! ## Routes (R262): bytes 4 to 15 of a BMAP entry -/

def rtFmt (r : Bytes) : Nat := byteAt r 0 / 64
def rtPort (r : Bytes) : Nat := byteAt r 0 % 64
def rtSensitive (r : Bytes) : Bool := bitOf (byteAt r 1) 7
def rtWrite (r : Bytes) : Bool := bitOf (byteAt r 1) 6
def rtIde (r : Bytes) : Bool := bitOf (byteAt r 1) 5
/-- The far-side timeout in hoops. -/
def rtTimeout (r : Bytes) : Nat := (be r 2 2 / 1024 + 1) * 4
def rtMaxLen (r : Bytes) : Nat := be r 2 2 % 1024 + 1
/-- Data bytes of one far-side segment (R264). -/
def rtCap (r : Bytes) : Nat := if rtFmt r = 0 then 56 else if rtFmt r = 1 then 2040 else 1024

/-- Whether the fields of a route lie in the table of R262, and whether the port it names has its format. -/
def routeShape (r : Bytes) : Bool :=
  let f := rtFmt r
  let p := rtPort r
  let idOk (v : Nat) : Bool := v < (if rtIde r then 2 ^ 29 else 2 ^ 11)
  byteAt r 1 % 32 = 0 && (f = 0 || !rtIde r)
    && (match f with
      | 0 => isCan p && idOk (be r 4 4) && idOk (be r 8 4)
      | 1 => isCan p && be r 8 2 < 2048 && be r 10 2 < 2048
      | 2 => isT1s p && be r 10 2 = 0
      | _ => false)

def State.routePort (s : State) (r : Bytes) : Bool :=
  match rtFmt r with
  | 0 => s.flag (Rg.CAN_CFG (rtPort r)) Fl.CAN_CFG_FD_EN
  | 1 => s.flag (Rg.CAN_CFG (rtPort r)) Fl.CAN_CFG_XL_EN
  | _ => true

/-- Whether a route keeps both. -/
def State.routeOk (s : State) (r : Bytes) : Bool := routeShape r && s.routePort r

/-! ## Slots -/

/-- Slot `n`, and the generation of far-side tag `n`. -/
def State.brgSlot (s : State) (n : Nat) : BrgSlot := sget s.brg.slots n brgSlotInit
def State.brgGen (s : State) (n : Nat) : Nat := sget s.brg.gens n 0

def State.setBrg (s : State) (f : Brg → Brg) : State := { s with brg := f s.brg }
def State.setBrgSlot (s : State) (n : Nat) (v : BrgSlot) : State := s.setBrg (fun b => { b with slots := sset b.slots n brgSlotInit v })

/-- Slot `n` becomes FREE. -/
def State.brgFree (s : State) (n : Nat) : State := s.setBrgSlot n brgSlotInit

/-- The generation of tag `n` advances. -/
def State.nextGen (s : State) (n : Nat) : State := s.setBrg (fun b => { b with gens := sset b.gens n 0 ((sget b.gens n 0 + 1) % 16) })

/-- Puts an ERROR_REPORT on what is still to be sent. -/
def State.report (s : State) (x : BrgSlot) (status : Nat) (data : Bytes) : State :=
  s.setBrg (fun b => { b with out := b.out ++ [⟨false, x.init, x.addr, x.tag, status, data⟩] })

/-- The detail of BRG_SIDE_EFFECT_LOST and BRG_WRITE_FAIL. -/
def brgDetail (x : BrgSlot) (cause : Nat) : Nat := x.init % 64 + cause * 2 ^ 8 + x.tag * 2 ^ 16 + x.addr * 2 ^ 32

/-- A posted write fails (R275): the sticky status of its initiator, the counter, the event and the report. -/
def State.writeFailed (s : State) (x : BrgSlot) (status : Nat) (data : Bytes) : State :=
  let r := Rg.BRG_INIT_STATUS x.init
  let n := Nat.min 65535 (s.fd r Fl.BRG_INIT_STATUS_COUNT + 1)
  let s1 := ((s.setBit r Fl.BRG_INIT_STATUS_FAILED.lo).sf r Fl.BRG_INIT_STATUS_CAUSE status).sf r Fl.BRG_INIT_STATUS_COUNT n
  (((s1.count (brgC 9)).setBit Rg.BRG_INT_STATUS 0).raise 0x0B02 noPort (brgDetail x status)).report x status data

/-- Slot `n` fails with a status, and for NEGATIVE with the far cause (R270 to R275, R279): an orphan and a poll are freed, a READ
becomes READY, a WRITE becomes DONE. -/
def State.brgFail (s : State) (n status far : Nat) : State :=
  let x := s.brgSlot n
  let s1 := s.nextGen n
  let data := if status = 5 then beBytes 2 far else []
  if x.st = 6 then s1.brgFree n
  else if x.init = 64 then
    ((s1.brgFree n).count (brgC 13)).setBrg (fun b => { b with out := b.out ++ [⟨true, 64, x.addr, x.tag, status, []⟩] })
  else if x.write then
    (s1.setBrgSlot n { x with st := 5, status := status, far := far, since := s.hoopCount }).writeFailed x status data
  else s1.setBrgSlot n { x with st := 3, status := status, far := far, data := data, since := s.hoopCount }

/-- A read of slot `n`: one that holds a double-bit error fails with PROTOCOL (R347). -/
def State.slotCheck (s0 : State) (n : Nat) : State :=
  let s := s0.sbeAt 11 (0x800 + 8 * n)
  if ¬ s.isBad 11 (0x800 + 8 * n) then s
  else
    let s1 := (s.dbeSeen 11 (0x800 + 8 * n)).mended 11 (0x800 + 8 * n)
    if (s1.brgSlot n).st = 0 then s1 else s1.brgFail n 10 0

/-- The port or the admission stage drops a frame (R272): where it is one of an ACTIVE slot, the slot fails. `Frame.brg` holds
1 + slot + 256 × generation. -/
def State.brgDrop (s : State) (f : Frame) (cause : Nat) : State :=
  let n := (f.brg - 1) % 256
  if f.brg = 0 ∨ (s.brgSlot n).st ≠ 2 ∨ s.brgGen n ≠ (f.brg - 1) / 256 then s else s.brgFail n cause 0

end Sys2Proof.Machine
end

