-- ==== Sys2Proof/Machine/Clock.lean ====
section
/-! DEFINITION. The passing of time: TIME_RAW, the slew (R33, R34), and the instants commands are tied to. -/

namespace Sys2Proof.Machine

/-- Shows the slew in TIME_ADJ_REMAIN and TIME_STATUS.SLEWING (R34). DESIGN CHOICE (log 129): a remaining amount finer than 2^-4 ns is
rounded toward zero, so REMAIN can read 0 while SLEWING is 1. -/
def State.showSlew (s : State) : State :=
  let s1 := s.wr Rg.TIME_ADJ_REMAIN (unsigned 32 (s.clk.slewRemain.tdiv 4096))
  s1.sf Rg.TIME_STATUS Fl.TIME_STATUS_SLEWING (b2n (decide (s.clk.slewRemain ≠ 0)))

/-- What a slew of `ppm` moves LT by in `n` cycles beside the part carried over `acc`, in 10^-6 of 2^-16 ns. -/
def slewMicro (ppm n acc : Nat) : Nat := n * ppm * 65536 + acc

/-- Applies `n` cycles of slew to TIME_OFFSET: at most the remaining amount, with its sign; at its end TIME_ADJ_DONE is
raised with the adjustment completed (R33). -/
def State.slew (s : State) (n : Nat) : State :=
  if s.clk.slewRemain = 0 then s
  else
    let t := slewMicro (s.fd Rg.TIME_SLEW_MAX Fl.TIME_SLEW_MAX_PPM) n s.clk.slewAcc
    let whole := t / 1000000
    let left := s.clk.slewRemain.natAbs
    if left ≤ whole then
      let s1 := s.setOffset (s.offset + s.clk.slewRemain)
      let s2 := ({ s1 with clk := { s1.clk with slewRemain := 0, slewAcc := 0 } } : State).showSlew
      s2.raise 0x0205 noPort (unsigned 32 s.clk.slewAdj)
    else
      let d : Int := if s.clk.slewRemain > 0 then (whole : Nat) else -((whole : Nat) : Int)
      let s1 := s.setOffset (s.offset + d)
      ({ s1 with clk := { s1.clk with slewRemain := s.clk.slewRemain - d, slewAcc := t % 1000000 } } : State).showSlew

/-- What TIME_RAW moves by in `n` ns (R29): nothing under POR, where it is zero; whole REFCLK cycles of 10 where the core PLL does not
run, in SLEEP and before the loader of a start that relocks it. -/
def State.rawSteps (s : State) (n : Nat) : Nat :=
  match s.pwr.phase with
  | .por => 0
  | .sleep => 10 * cdiv n 10
  | .start => if s.pwr.relock then 10 * cdiv n 10 else n
  | _ => n

/-- A capture record that found the queue of its group full is lost (R44). -/
def State.tsLose (s : State) (p : Nat) : State :=
  let g := groupOf p
  let s1 := s.incr (Rg.TIME_TSQ_OVF p)
  ({ s1 with tsqLost := sset s1.tsqLost g 0 (sget s1.tsqLost g 0 + 1) } : State).raiseFirst 0x0203 g g 1

/-- A message that found the management FIFO full is dropped (R112). -/
def State.mfDrop (s : State) (p f : Nat) : State :=
  ((s.count (canC p 7)).setBit (Rg.CAN_INT_STATUS p) 4).raiseFirst 0x0504 p p f

/-- The cancellation of a PENDING message is counted (R117). -/
def State.mtxCancelled (s : State) (p : Nat) : State := (s.count (canC p 11)).setBit (Rg.CAN_INT_STATUS p) 5

/-- Counts an overrun of priority buffer `k` (R113). -/
def State.prioOverrun (s : State) (p k : Nat) : State :=
  let r := Rg.CAN_PRIO_CTRL p k
  ((s.count (canC p 8)).sf r Fl.CAN_PRIO_CTRL_OVR (s.fd r Fl.CAN_PRIO_CTRL_OVR + 1)).raiseFirst 0x0505 (4 * p + k) p k

/-- What an ageing visit of this cycle leaves of a slot (R166): it loses its entry or its ACTIVE bit, unless a hit of the cycle has set
that bit, in which case the hit wins (R167), or the slot holds another entry by now. -/
def State.ageSettle (s : State) (w : Nat × Nat × Bytes) : State :=
  if s.cyc.hits.contains w.1 ∨ s.ram w.1 w.2.2.length ≠ w.2.2 then s
  else if w.2.1 = 0 then s.setRam w.1 [BitVec.ofNat 8 (byteAt w.2.2 0 - 32)]
  else (s.setRam w.1 (zeros w.2.1)).count (tblC 5)

/-- The cycle ends: what it has held back is settled. -/
def State.cycleEnd (s : State) : State :=
  let s1 := s.cyc.tsWait.foldl (fun t w => t.tsLose w.1.val) s
  let s2 := s.cyc.mfWait.foldl (fun t w => t.mfDrop (32 + w.1.val) w.2.1) s1
  let s3 := s.cyc.cancels.foldl (fun t w => t.mtxCancelled (32 + w.1.val)) (s.cyc.ages.foldl State.ageSettle s2)
  { s.cyc.prioOver.foldl (fun t w => t.prioOverrun (32 + w.1.val) w.2.val) s3 with cyc := cycInit }

/-- LT after `n` further units of TIME_RAW, in 2^-16 ns. -/
def State.ltAfter (s : State) (n : Nat) : Int :=
  let ppm := s.fd Rg.TIME_SLEW_MAX Fl.TIME_SLEW_MAX_PPM
  let w := slewMicro ppm n s.clk.slewAcc / 1000000
  let d : Int := if s.clk.slewRemain ≥ 0 then ((Nat.min w s.clk.slewRemain.natAbs : Nat) : Int) else -((Nat.min w s.clk.slewRemain.natAbs : Nat) : Int)
  s.offset + d + scaledRaw (s.raw + n) s.rate

/-- The least `n` in `lo` to `lo + 2^fuel - 1` with `p n`, where `p` is monotone. -/
def bisect (p : Nat → Bool) : Nat → Nat → Nat
  | 0, lo => lo
  | fuel + 1, lo => if p (lo + 2 ^ fuel - 1) then bisect p fuel lo else bisect p fuel (lo + 2 ^ fuel)

/-- The cycles until LT first reaches `target` whole ns; 0 when it has. -/
def State.cyclesTo (s : State) (target : Int) : Nat :=
  if s.ltNs ≥ target then 0 else bisect (fun n => decide (s.ltAfter n ≥ target * 65536)) 64 0

/-- Notes the boundary cycle, and what the queues hold in it, when it lies in the time that has passed since `s` (R46, R214). -/
def State.noteDue (t s : State) : State :=
  if s.boundDue ∨ ¬ t.boundDue then t
  else { t with sinceDue := { t.sinceDue with raw := s.raw + s.cyclesTo s.nextB, copies := s.copies } }

/-- `n` ns pass (R29): the cycle ends, TIME_RAW advances and the slew acts. -/
def State.advance (s : State) (n : Nat) : State :=
  if s.rawSteps n = 0 then s
  else (((s.cycleEnd).wr64 Rg.TIME_RAW (s.raw + s.rawSteps n)).slew (s.rawSteps n)).noteDue s

/-- Time passes until LT has reached `target` whole ns: the first core cycle in which LT ≥ target (R46). -/
def State.advanceTo (s : State) (target : Int) : State := s.advance (s.cyclesTo target)

/-- Time passes until TIME_RAW has reached `r`. -/
def State.advanceRaw (s : State) (r : Nat) : State := s.advance (r - s.raw)

/-- A number of microseconds, and of milliseconds, in TIME_RAW units. -/
def us (n : Nat) : Nat := 1000 * n
def ms (n : Nat) : Nat := 1000000 * n

end Sys2Proof.Machine
end

