-- ==== Sys2Proof/Machine/Budget.lean ====
section
/-! DEFINITION. The per-hoop budgets of the maintenance activities (R54), and who may act when. -/

namespace Sys2Proof.Machine

/-- What the management cores do takes place only while they run (R71, R332, R339). -/
def State.fw (s : State) (f : State → State) : State := if s.coresRun then f s else s

/-- Cycles activity `a` has spent in this hoop. -/
def State.spent (s : State) (a : Nat) : Nat := sget s.tbl.spent a 0

/-- Whether activity `a` has stopped for this hoop. -/
def State.stopped (s : State) (a : Nat) : Bool := s.tbl.carried.contains a

/-- Whether activity `a` may take an item of `n` cycles. The activities 0 to 2 of the table maintenance engine do not begin an item that
would exceed their budget (R168); the others stop at the end of the item in which they reach theirs (R54). An item that was not begun
ends the activity's work for the hoop, and a budget of 0 allows no work (R45). -/
def State.mayWork (s : State) (a n : Nat) : Bool :=
  let b := s.fd (Rg.HOOP_BUDGET a) Fl.HOOP_BUDGET_CYCLES
  !s.stopped a && (if a < 3 then decide (s.spent a + n ≤ b) else decide (s.spent a < b))

/-- Activity `a` spends `n` cycles. -/
def State.spend (s : State) (a n : Nat) : State :=
  { s with tbl := { s.tbl with spent := sset s.tbl.spent a 0 (s.spent a + n) } }

/-- Activity `a` stops for this hoop with work left; its first stop in the hoop raises HOOP_BUDGET_CARRY (R54). -/
def State.carry (s : State) (a : Nat) : State :=
  if s.stopped a then s
  else ({ s with tbl := { s.tbl with carried := a :: s.tbl.carried } } : State).raise 0x0204 noPort a

/-- At the end of a hoop HOOP_CARRY[a] counts each activity that ends it with work carried (R54). -/
def State.countCarries (s : State) : State :=
  s.tbl.carried.foldl (fun t a => t.incr (Rg.HOOP_CARRY a)) s

/-- Runs one item of activity `a` that costs `n` cycles, or carries it. -/
def State.item (s : State) (a n : Nat) (f : State → State) : State :=
  if s.mayWork a n then f (s.spend a n) else s.carry a

end Sys2Proof.Machine
end

