-- ==== Sys2Proof/Machine/RegGen.lean ====
section
/-! DEFINITION. The register map as management cores meet it (R4 to R7, R374): which block and row an address belongs to, and
the field-by-field write. -/

namespace Sys2Proof.Machine

/-- The rows of the block that an address lies in, and the offset in the block; none outside every block of the map (R374). Per-port
blocks repeat every 0x1000; a block whose extent the map leaves open reaches to 64 KiB. -/
def blockAt (a : Nat) : Option (List RegD × Nat) :=
  let o := a % 0x10000
  match a / 0x10000 with
  | 0x1000 => some (RegTab.rowsSYS, o)
  | 0x1001 => some (RegTab.rowsTIME, o)
  | 0x1002 => some (RegTab.rowsIMAGE, o)
  | 0x1020 => some (RegTab.rowsPARSE, o)
  | 0x1030 => some (RegTab.rowsTABLE, o)
  | 0x1040 => some (RegTab.rowsGBUF, o)
  | 0x1060 => some (RegTab.rowsBOBBIN, o)
  | 0x1070 => some (RegTab.rowsBRIDGE, o)
  | 0x1080 => some (RegTab.rowsKEY, o)
  | 0x1090 => some (RegTab.rowsSEAL, o)
  | 0x10A0 => some (RegTab.rowsEYELET, o)
  | 0x10B0 => some (RegTab.rowsFAULT, o)
  | 0x10C0 => some (RegTab.rowsGPIO, o)
  | _ =>
    let p := (a - 0x10100000) / 0x1000
    let e := (a - 0x10500000) / 0x1000
    if 0x10100000 ≤ a ∧ p < 24 then some (RegTab.rowsETH, a % 0x1000)
    else if 0x10100000 ≤ a ∧ p < 32 then some (RegTab.rowsT1S, a % 0x1000)
    else if 0x10100000 ≤ a ∧ p < 48 then some (RegTab.rowsCAN, a % 0x1000)
    else if 0x10500000 ≤ a ∧ e < 52 then some (RegTab.rowsEGR, a % 0x1000)
    else if 0x10500000 ≤ a ∧ e = 63 then some (RegTab.rowsEGRG, a % 0x1000)
    else none

/-- What is left of an offset below the row's own words, after each index has taken its share; none where no index fits. -/
def stripDims : List DimD → Nat → Option Nat
  | [], o => some o
  | d :: t, o =>
    let i := Nat.min (o / d.stride) (d.first + d.count - 1)
    if i < d.first then none else stripDims t (o - d.stride * i)

/-- The word of a row that lies at an offset of its block. -/
def RegD.wordAt (r : RegD) (o : Nat) : Option Nat :=
  if o < r.off then none
  else
    match stripDims r.dims (o - r.off) with
    | none => none
    | some x => if x % 4 = 0 ∧ x < 4 * r.words then some (x / 4) else none

/-- The row and word of an offset. -/
def rowOf (rows : List RegD) (o : Nat) : Option (RegD × Nat) :=
  rows.findSome? (fun r => (r.wordAt o).map (fun w => (r, w)))

/-- The bits of word `w` that fields satisfying `p` cover. -/
def RegD.mask (r : RegD) (w : Nat) (p : FieldD → Bool) : Nat :=
  r.fields.foldl (fun m f =>
    let lo := Nat.max f.lo (32 * w)
    let hi := Nat.min f.hi (32 * w + 31)
    if p f ∧ lo ≤ hi then m ||| ((2 ^ (hi - lo + 1) - 1) <<< (lo - 32 * w)) else m) 0

/-- The Reset value of word `w` of a row. -/
def RegD.reset (r : RegD) (w : Nat) : Nat :=
  r.fields.foldl (fun m f => m ||| ((f.rst <<< f.lo) >>> (32 * w) % 2 ^ 32)) 0

/-- Whether a write through a field of this type can act: SRW fields act only for the loader, before the lock (R6). -/
def Acc.acts (a : Acc) (loader : Bool) : Bool :=
  match a with
  | .ro => false
  | .srw => loader
  | _ => true

/-- Whether a register holds a field through which a write can act (R7). -/
def RegD.writable (r : RegD) (loader : Bool) : Bool := r.fields.any (fun f => f.acc.acts loader)

/-- The word after a write of `v` over `old`, field by field (R6); a bit that hardware has set in the same cycle, one of `held`, is not
cleared (R8). -/
def RegD.written (r : RegD) (w old v : Nat) (loader : Bool) (held : Nat := 0) : Nat :=
  let rw := r.mask w (fun f => f.acc = .rw || (f.acc = .srw && loader))
  let w1c := r.mask w (fun f => f.acc = .w1c) &&& (v ^^^ (v &&& held))
  ((old ^^^ (old &&& rw)) ^^^ (old &&& w1c)) ||| (v &&& rw)

/-- The Reset value a row's word takes at an address: ETH_SERDES_RX differs between trunk and edge ports (R84). -/
def resetAt (r : RegD) (w a : Nat) : Nat :=
  if a % 0x1000 = 0xC ∧ 0x10100000 ≤ a ∧ a < 0x10118000 then (Rg.ETH_SERDES_RX ((a - 0x10100000) / 0x1000)).rst else r.reset w

/-- The stored word at an address of a row. -/
def State.wordAt (s : State) (r : RegD) (w a : Nat) : Nat := (sget s.regs a (BitVec.ofNat 32 (resetAt r w a))).toNat

/-- A write of a register that has no meaning of its own: field by field, or ignored with its event (R7). -/
def State.plainWrite (s : State) (a v : Nat) : State :=
  match blockAt a with
  | none => s
  | some b =>
    match rowOf b.1 b.2 with
    | none => s.ignored a v
    | some h =>
      if h.1.writable false then
        { s with regs := sset s.regs a (BitVec.ofNat 32 (resetAt h.1 h.2 a)) (BitVec.ofNat 32 (h.1.written h.2 (s.wordAt h.1 h.2 a) v false (sget s.cyc.sets a 0))) }
      else s.ignored a v

end Sys2Proof.Machine
end

