-- ==== Sys2Proof/Machine/Time.lean ====
section
/-! DEFINITION. The time base (R29 to R38, R55, R56): rate, slew, servo, trust, steps, and the PPS pins. -/

namespace Sys2Proof.Machine

/-! ## Rate and slew (R31 to R34) -/

/-- The limit of TIME_RATE, 100 ppm in 2^-40. -/
def rateMax : Int := 109951163

/-- TIME_RATE_WRITE (R31, R32): the rate takes effect in the next cycle, with TIME_OFFSET adjusted so that LT is continuous; a value out
of range is clamped. -/
def State.timeRateWrite (s : State) (v : Nat) : State :=
  let x := signed 32 v
  let c := if x > rateMax then rateMax else if x < -rateMax then -rateMax else x
  let s1 := if c = x then s else s.raise 0x0201 noPort v
  let s2 := s1.advance 1
  let s3 := s2.setOffset (s2.offset + scaledRaw s2.raw s2.rate - scaledRaw s2.raw c)
  (s3.wr Rg.TIME_RATE (unsigned 32 c)).sf Rg.TIME_STATUS Fl.TIME_STATUS_RATE_CLAMPED (b2n (decide (c ≠ x)))

def execTimeRateWrite (lapse : Nat) (value : Word) (s : State) : Host.Outcome State Fault Refusal :=
  .next ((s.advance lapse).fw (·.timeRateWrite value.toNat))

/-- TIME_ADJ_WRITE (R34): replaces the remaining amount, given in 2^-4 ns; zero ends the slew. -/
def State.timeAdjWrite (s : State) (v : Nat) : State :=
  ({ s with clk := { s.clk with slewRemain := signed 32 v * 4096, slewAdj := signed 32 v, slewAcc := 0 } } : State).showSlew

def execTimeAdjWrite (lapse : Nat) (value : Word) (s : State) : Host.Outcome State Fault Refusal :=
  .next ((s.advance lapse).fw (·.timeAdjWrite value.toNat))

/-- Cycles until the slew in progress is complete (R33). -/
def State.slewCycles (s : State) : Nat :=
  cdiv (s.clk.slewRemain.natAbs * 1000000 - s.clk.slewAcc) (s.fd Rg.TIME_SLEW_MAX Fl.TIME_SLEW_MAX_PPM * 65536)

/-- TIME_ADJ_DONE (R33): time passes until the slew is complete. -/
def execTimeAdjDone (s : State) : Host.Outcome State Fault Refusal := .next (s.advance s.slewCycles)

/-! ## Time trust (R36 to R38) -/

def Trust.free : Nat := 0
def Trust.synced : Nat := 1
def Trust.holdover : Nat := 2
def Trust.degraded : Nat := 3

def State.trust (s : State) : Nat := s.fd Rg.TIME_STATUS Fl.TIME_STATUS_TRUST

/-- The trust that the coming boundary brings. -/
def State.dueTrust (s : State) : Nat := s.clk.pendTrust.getD s.trust

/-- The trust that the conditions met so far lead to. -/
def State.wantTrust (s : State) : Nat :=
  match s.clk.lateTrust with
  | none => s.dueTrust
  | some l => l.getD s.dueTrust

/-- Asks, by a condition met at TIME_RAW `at_`, for a trust from the next boundary on; by one met in the boundary cycle or after it, from
the boundary after that (R37). -/
def State.askTrustAt (s : State) (t at_ : Nat) : State :=
  if s.boundDue ∧ s.dueRaw ≤ at_ then { s with clk := { s.clk with lateTrust := some (if t = s.dueTrust then none else some t) } }
  else { s with clk := { s.clk with pendTrust := if t = s.trust then none else some t, lateTrust := none } }

/-- Asks for a trust by a condition met now. -/
def State.askTrust (s : State) (t : Nat) : State := s.askTrustAt t s.raw

/-- The instant of the loss of sync that a start counts as is fixed already (R38): the start in progress, or the flush, the power-fail
hold or the SLEEP that leads to it, has noted it. -/
def State.lossNoted (s : State) : Bool :=
  match s.pwr.phase with
  | .held | .start | .sleep | .pfailHold => true
  | .flush => s.pwr.flush = .warm || s.pwr.flush = .sleep || s.pwr.flush = .pfail
  | _ => false

/-- Sync is lost at TIME_RAW `at_` (R36): GOOD_RUN returns to 0, and SYNCED falls to HOLDOVER; a change to SYNCED not yet in force is
withdrawn. An instant that a start counts as is not moved (R38). -/
def State.loseSync (s : State) (at_ : Nat) : State :=
  let s1 := s.sf Rg.TIME_STATUS Fl.TIME_STATUS_GOOD_RUN 0
  if s.wantTrust ≠ Trust.synced then s1
  else if s.trust = Trust.synced then
    ({ s1 with clk := { s1.clk with lostAt := if s.lossNoted then s.clk.lostAt else at_ } } : State).askTrustAt Trust.holdover at_
  else s1.askTrustAt s.trust at_

/-- The sync interval in ns (R36). -/
def State.syncNs (s : State) : Nat :=
  let l := signed 4 (s.fd Rg.TIME_SYNC_CFG Fl.TIME_SYNC_CFG_LOG_INTERVAL)
  if l ≥ 0 then 1000000000 * 2 ^ l.toNat else 1000000000 / 2 ^ l.natAbs

/-- TIME_RAW at which 3 sync intervals without a report have passed (R36). -/
def State.reportDue (s : State) : Nat := s.clk.reportAt + 3 * s.syncNs

/-- A loss of sync that 3 sync intervals without a report, which ended before TIME_RAW `r`, have brought. -/
def State.unreported (s : State) (r : Nat) : State :=
  if s.wantTrust = Trust.synced ∧ s.trust = Trust.synced ∧ s.reportDue < r then s.loseSync s.reportDue else s

/-- SERVO_REPORT (R36): a report of the servo's offset, in ns. -/
def State.servo (s : State) (v : Nat) : State :=
  let x := (signed 32 v).natAbs
  let u := s.unreported s.raw
  let s0 : State := { u with clk := { u.clk with reportAt := s.raw } }
  if x ≤ 1000 then
    let n := Nat.min (s0.fd Rg.TIME_STATUS Fl.TIME_STATUS_GOOD_RUN + 1) 16
    let s1 := s0.sf Rg.TIME_STATUS Fl.TIME_STATUS_GOOD_RUN n
    if n = 16 then s1.askTrust Trust.synced else s1
  else
    let s1 := s0.sf Rg.TIME_STATUS Fl.TIME_STATUS_GOOD_RUN 0
    if x > 1000 * s.fd Rg.TIME_SYNC_CFG Fl.TIME_SYNC_CFG_LOSS_THRESH then s1.loseSync s1.raw else s1

def execServoReport (lapse : Nat) (value : Word) (s : State) : Host.Outcome State Fault Refusal :=
  .next ((s.advance lapse).fw (·.servo value.toNat))

/-- A write of TIME_CTRL: STEP_ARM is stored, and FORCE_LOSS declares sync lost (R36). -/
def State.timeCtrlWrite (s : State) (v : Nat) : State :=
  let s1 := s.plainWrite Rg.TIME_CTRL.addr v
  if bitOf v 1 then s1.loseSync s1.raw else s1

def execForceLoss (lapse : Nat) (value : Word) (s : State) : Host.Outcome State Fault Refusal :=
  .next ((s.advance lapse).fw (·.timeCtrlWrite value.toNat))

/-- SYNC_REPORT_TIMEOUT (R36): 3 sync intervals have passed since the latest report. DESIGN CHOICE (log 130): while trust is not SYNCED no
sync is lost, and GOOD_RUN stays as it is. -/
def State.syncTimeout (s : State) : State :=
  if s.wantTrust ≠ Trust.synced then s
  else (s.advanceRaw s.reportDue).loseSync s.reportDue

def execSyncReportTimeout (s : State) : Host.Outcome State Fault Refusal := .next s.syncTimeout

/-- 60 s of holdover (R36). -/
def holdoverMax : Nat := 60000000000

/-- HOLDOVER_EXPIRY (R36). -/
def State.holdoverExpiry (s : State) : State :=
  if s.wantTrust ≠ Trust.holdover then s else (s.advanceRaw (s.clk.lostAt + holdoverMax)).askTrustAt Trust.degraded (s.clk.lostAt + holdoverMax)

def execHoldoverExpiry (s : State) : Host.Outcome State Fault Refusal := .next s.holdoverExpiry

/-- TIME_HOLDOVER_MS: milliseconds since sync was lost; 0 while SYNCED or FREE. DESIGN CHOICE (log 131): where a stall of TIME_RAW has set
DEGRADED from FREE, sync was never lost, and the time counts from TIME_RAW 0. -/
def State.holdoverMs (s : State) : Nat :=
  if s.trust = Trust.holdover ∨ s.trust = Trust.degraded then Nat.min ((s.raw - s.clk.lostAt) / 1000000) (2 ^ 32 - 1) else 0

/-- Sets the trust in force and raises TIME_TRUST_CHANGE when it differs (R37). -/
def State.setTrust (s : State) (t : Nat) : State :=
  let old := s.trust
  let s1 := s.sf Rg.TIME_STATUS Fl.TIME_STATUS_TRUST t
  if old = t then s1
  else
    let s2 : State := { s1 with clk := { s1.clk with trustWas := ((s1.lastB, old) :: s1.clk.trustWas).take 8 } }
    s2.raise 0x0202 noPort (old + 4 * t)

/-- The trust of the hoop in which an LT of whole ns falls (R37): of a hoop before the present one as the changes since tell, of a later
one as the conditions met so far say (DESIGN CHOICE, log 132). TIME_CAL_RX moves a timestamp by less than 33 microseconds, so the latest
8 changes are enough. -/
def State.trustAt (s : State) (ns : Int) : Nat :=
  if ns ≥ s.nextB then s.dueTrust
  else s.clk.trustWas.foldl (fun t e => if ns < e.1 then e.2 else t) s.trust

/-- The trust change of a boundary (R37). The conditions that time alone has met before the boundary cycle act at it too: 3
intervals without a report, 60 s of holdover. -/
def State.trustBoundary (s : State) : State :=
  let s1 := s.unreported s.dueRaw
  let s2 := if s1.wantTrust = Trust.holdover ∧ s1.clk.lostAt + holdoverMax < s1.dueRaw then s1.askTrustAt Trust.degraded (s1.clk.lostAt + holdoverMax) else s1
  let t := s2.dueTrust
  let s3 := ({ s2 with clk := { s2.clk with pendTrust := none, lateTrust := none } } : State).setTrust t
  match s2.clk.lateTrust with
  | some (some l) => s3.askTrust l
  | _ => s3

/-- The trust at a start other than after POR (R38); `lost` is TIME_RAW of the loss when trust was SYNCED. The change is raised once
events can be held. -/
def State.startTrust (s : State) (lost : Nat) : State :=
  let old := s.trust
  let t := s.wantTrust
  let at_ := if old = Trust.synced ∧ t = Trust.synced then lost else s.clk.lostAt
  let new := if old = Trust.synced then Trust.holdover
    else if old = Trust.holdover ∧ s.raw - s.clk.lostAt ≥ holdoverMax then Trust.degraded else old
  ({ s with clk := { s.clk with pendTrust := none, lateTrust := none, lostAt := at_ } } : State).setTrust new

/-! ## Steps (R35) -/

/-- An armed step is added to TIME_OFFSET; TIME_STEP and STEP_ARM clear. -/
def State.applyStep (s : State) : State :=
  let s1 := if s.flag Rg.TIME_CTRL Fl.TIME_CTRL_STEP_ARM then s.setOffset (s.offset + signed 64 (s.rd64 Rg.TIME_STEP) * 65536) else s
  (s1.wr64 Rg.TIME_STEP 0).sf Rg.TIME_CTRL Fl.TIME_CTRL_STEP_ARM 0

/-! ## PPS (R55, R56) -/

def State.ppsOn (s : State) (i : Nat) : Bool := bitOf (s.fd Rg.TIME_CTRL Fl.TIME_CTRL_PPS_IN_EN) i

/-- PPS_IN_EDGE. -/
def State.ppsEdge (s : State) (i : Nat) : State :=
  if ¬ s.ppsOn i then s
  else
    let s1 := ((s.wr64 (Rg.TIME_PPS_IN_TS i) (unsigned 64 s.ltNs)).wr (Rg.TIME_PPS_IN_FRAC i) (unsigned 16 s.lt)).incr (Rg.TIME_PPS_IN_CNT i)
    { s1 with clk := { s1.clk with ppsAt := sset s1.clk.ppsAt i 0 s1.raw } }

def execPpsInEdge (lapse : Nat) (i : Fin 2) (s : State) : Host.Outcome State Fault Refusal := .next ((s.advance lapse).ppsEdge i.val)

/-- PPS_IN_MISSING: 2 s have passed since the latest edge, since the latest report of this, or since the lock, with which an input is
enabled. -/
def State.ppsMissing (s : State) (i : Nat) : State :=
  if ¬ s.ppsOn i then s
  else
    let t := sget s.clk.ppsAt i 0 + 2000000000
    let s1 := s.advanceRaw t
    ({ s1 with clk := { s1.clk with ppsAt := sset s1.clk.ppsAt i 0 t } } : State).raise 0x0207 noPort i

def execPpsInMissing (i : Fin 2) (s : State) : Host.Outcome State Fault Refusal := .next (s.ppsMissing i.val)

/-- TIME_RAW at which PPS_OUT[j] falls when it has risen at TIME_RAW `r`. -/
def State.ppsTill (s : State) (j r : Nat) : Nat := r + 100 * s.fd (Rg.TIME_PPS_OUT_CFG j) Fl.TIME_PPS_OUT_CFG_WIDTH

/-- Drives a pulse of PPS_OUT[j] whose rising edge falls at TIME_RAW `r`; one that has been driven is not driven again. -/
def State.ppsPulse (s : State) (j r : Nat) : State :=
  let till := s.ppsTill j r
  if sget s.pins.ppsOutTill j 0 ≥ till then s
  else { s with pins := { s.pins with ppsOutTill := sset s.pins.ppsOutTill j 0 till, ppsOutCnt := sset s.pins.ppsOutCnt j 0 (sget s.pins.ppsOutCnt j 0 + 1) } }

/-- The second of LT at which PPS_OUT[j] is to rise: the present one, when another output has risen at it and this one has not; else time
passes to the next. -/
def State.ppsSecond (s : State) (j : Nat) : State :=
  let n := s.ltNs / 1000000000
  let next := s.advanceTo ((n + 1) * 1000000000)
  let go : State := { next with clk := { next.clk with second := some (n + 1, next.raw) } }
  match s.clk.second with
  | some x => if x.1 = n ∧ sget s.pins.ppsOutTill j 0 < s.ppsTill j x.2 then s else go
  | none => go

/-- PPS_OUT_PULSE (R56): each second of LT, the latest boundary since the lock, or that boundary when it was a repeat boundary. -/
def State.ppsOut (s : State) (j : Nat) : State :=
  match s.fd (Rg.TIME_PPS_OUT_CFG j) Fl.TIME_PPS_OUT_CFG_SRC with
  | 0 => s
  | 1 =>
    let s1 := s.ppsSecond j
    s1.ppsPulse j (s1.clk.second.elim s1.raw (·.2))
  | src =>
    if s.clk.boundRaw ≤ s.clk.lockRaw ∨ (src = 3 ∧ s.fd Rg.HOOP_POS Fl.HOOP_POS_POS ≠ 0) then s else s.ppsPulse j s.clk.boundRaw

def execPpsOutPulse (j : Fin 4) (s : State) : Host.Outcome State Fault Refusal := .next (if s.hoopsRun then s.ppsOut j.val else s)

end Sys2Proof.Machine
end

