-- ==== Sys2Proof/Machine/Wake.lean ====
section
/-! DEFINITION. What wakes the part from DOZE (R341, R342). -/

namespace Sys2Proof.Machine

/-- Wake sources `src`, bits as SYS_WAKE_EN, of which only the enabled ones act: in DOZE they are latched and the exit
begins; during the entry flush they are held until entry has ended (R342, R352). -/
def State.wake (s : State) (src : Nat) : State :=
  let on := src &&& s.rd Rg.SYS_WAKE_EN &&& (2 ^ 19 - 1)
  if on = 0 then s
  else
    match s.pwr.phase with
    | .doze =>
      ({ s.wr Rg.SYS_WAKE_SRC on with pwr := { s.pwr with phase := .dozeExit } } : State).sf Rg.SYS_PWR_STATUS
        Fl.SYS_PWR_STATUS_STATE 3
    | .flush =>
      if s.pwr.flush = .doze ∨ s.pwr.flush = .sleep then { s.wr Rg.SYS_WAKE_SRC on with pwr := { s.pwr with wakeHeld := true } } else s
    | _ => s

/-- Whether a frame matches a wake filter (R341): every masked byte of 16 equals the pattern at OFFSET. -/
def wakeMatch (cfg : Nat) (pat data : Bytes) : Bool :=
  fieldOf cfg Fl.ETH_WAKE_CFG_VALID = 1 &&
    (List.range 16).all (fun i => !bitOf cfg (16 + i)
      || (fieldOf cfg Fl.ETH_WAKE_CFG_OFFSET + i < data.length
          && byteAt pat i = byteAt data (fieldOf cfg Fl.ETH_WAKE_CFG_OFFSET + i)))

/-- A frame with a good FCS received on port `p` in DOZE, whatever else is wrong with it: discarded; a match wakes. `data` ends with the FCS. -/
def State.dozeFrame (s : State) (p : Nat) (data : Bytes) : State :=
  let hit (k : Nat) : Bool :=
    if isEth p then wakeMatch (s.rd (Rg.ETH_WAKE_CFG p k)) (s.rdBytes (Rg.ETH_WAKE_PAT p k) 4) data
    else wakeMatch (s.rd (Rg.T1S_WAKE_CFG p k)) (s.rdBytes (Rg.T1S_WAKE_PAT p k) 4) data
  if (List.range 4).any hit then s.wake (2 ^ 17) else s

/-- A good frame or message was received: the repeat in progress is not quiet (R339). -/
def State.notQuiet (s : State) : State := { s with pwr := { s.pwr with busyRep := true } }

end Sys2Proof.Machine
end

