-- ==== Sys2Proof/Machine/Can.lean ====
section
/-! DEFINITION. CAN controllers, ports 32 to 47 (R104 to R121, R402): reception, management buffers, errors. Sending the
frames of the datapath is in CanTx. -/

namespace Sys2Proof.Machine

/-! ## Modes and states -/

def State.canMode (s : State) (p : Nat) : Nat := s.fd (Rg.CAN_CFG p) Fl.CAN_CFG_MODE
def State.canState (s : State) (p : Nat) : Nat := s.fd (Rg.CAN_STATUS p) Fl.CAN_STATUS_STATE
def State.canIdle (s : State) (p v : Nat) : State := s.sf (Rg.CAN_STATUS p) Fl.CAN_STATUS_IDLE v

/-- Whether the controller is bus-off or recovering. -/
def State.busOff (s : State) (p : Nat) : Bool := s.canState p ≥ 2

/-- Whether the datapath is held, and the controllers only listen (R109, R340). -/
def State.dozing (s : State) : Bool := s.pwr.phase = .doze || s.pwr.phase = .dozeExit

/-- Whether the controllers have power and the settings of the pricking. -/
def State.canPowered (s : State) : Bool := s.pwr.phase = .run || s.pwr.phase = .flush || s.dozing

def fmtCode : CanFmt → Nat
  | .classical => 0
  | .fd => 1
  | .xl => 2

/-- Whether a format is enabled on a controller. -/
def State.fmtOn (s : State) (p : Nat) (f : CanFmt) : Bool :=
  match f with
  | .classical => true
  | .fd => s.flag (Rg.CAN_CFG p) Fl.CAN_CFG_FD_EN
  | .xl => s.flag (Rg.CAN_CFG p) Fl.CAN_CFG_XL_EN

/-! ## The CAN header (R105) -/

/-- The data a message carries: a remote frame none. -/
def canData (m : CanMsg) : Bytes := if m.fmt = .classical ∧ m.rtr then [] else m.data

/-- The 16-byte CAN header of a received message, with the filter that matched. -/
def canHeader (m : CanMsg) (filter : Nat) : Bytes :=
  let xl := m.fmt = .xl
  let b4 := if m.fmt = .fd then false else m.rtr
  let b0 := fmtCode m.fmt * 64 + b2n m.ide * 32 + b2n b4 * 16 + b2n m.brs * 8 + b2n m.esi * 4 + b2n (m.sec && xl) * 2
  beBytes 1 b0 ++ beBytes 1 (if xl then 0 else m.dlc.toNat) ++ beBytes 4 m.id.toNat
    ++ beBytes 1 (if xl then m.sdt.toNat else 0) ++ beBytes 1 (if xl then m.vcid.toNat else 0)
    ++ beBytes 4 (if xl then m.af.toNat else 0) ++ beBytes 2 (canData m).length ++ beBytes 1 filter ++ [0]

/-- The 80-byte image of a message (R111). -/
def canImage (m : CanMsg) (filter : Nat) : Bytes := slice (canHeader m filter ++ canData m) 0 80

/-! ## Acceptance filters (R110) -/

/-- Whether filter `f` of port `p` matches a message. -/
def State.canHit (s : State) (p : Nat) (m : CanMsg) (f : Nat) : Bool :=
  let a := s.rd (Rg.CAN_FILT_ACT p f)
  let id := s.rd (Rg.CAN_FILT_ID p f)
  let x := s.rd (Rg.CAN_FILT_XL p f)
  let sel := fieldOf a Fl.CAN_FILT_ACT_AF_SEL
  fieldOf a Fl.CAN_FILT_ACT_VALID = 1 && bitOf a (1 + fmtCode m.fmt)
    && ((m.id.toNat ^^^ (id % 2 ^ 29)) &&& s.rd (Rg.CAN_FILT_MASK p f)) % 2 ^ 29 = 0
    && (if m.fmt = .xl then
          ((m.sdt.toNat ^^^ fieldOf x Fl.CAN_FILT_XL_SDT) &&& fieldOf x Fl.CAN_FILT_XL_SDT_MASK) = 0
            && ((m.vcid.toNat ^^^ fieldOf x Fl.CAN_FILT_XL_VCID) &&& fieldOf x Fl.CAN_FILT_XL_VCID_MASK) = 0
            && (sel = 0 || ((m.af.toNat ^^^ s.rd (Rg.CAN_AF_MATCH p (sel - 1))) &&& s.rd (Rg.CAN_AF_MASK p (sel - 1))) = 0)
        else m.ide == bitOf id 29)

/-! ## Management FIFO and priority buffers (R111 to R113) -/

/-- A message for the management FIFO. One that finds it full is dropped with the end of the cycle, unless a pop in the same cycle makes
room (R112). -/
def State.toMfifo (s : State) (p f : Nat) (img : Bytes) : State :=
  let c := s.canP p
  if c.mfifo.length ≥ 64 then { s with cyc := { s.cyc with mfWait := s.cyc.mfWait ++ [(Fin.ofNat 16 (p - 32), f, img)] } }
  else s.setCanP p { c with mfifo := c.mfifo ++ [img] }

/-- A pop of the management FIFO: a message of the same cycle that waits then enters it (R112). -/
def State.mfifoPop (s : State) (p : Nat) : State :=
  let s1 := s.setCanP p { s.canP p with mfifo := (s.canP p).mfifo.tail }
  match s.cyc.mfWait.find? (fun w => 32 + w.1.val = p) with
  | none => s1
  | some w => ({ s1 with cyc := { s1.cyc with mfWait := s1.cyc.mfWait.erase w } } : State).toMfifo p w.2.1 w.2.2

/-- The key of a priority buffer in the records of the cycle. -/
def prioKey (p k : Nat) : Fin 16 × Fin 4 := (Fin.ofNat 16 (p - 32), Fin.ofNat 4 k)

/-- A message for priority buffer `k` (R113): into the main half, or into the shadow while READ_LOCK is set. A value that it overwrites in
the main half is counted with the end of the cycle, unless a RELEASE in the same cycle has acted first. -/
def State.toPrio (s : State) (p k : Nat) (img : Bytes) : State :=
  let r := Rg.CAN_PRIO_CTRL p k
  if s.flag r Fl.CAN_PRIO_CTRL_READ_LOCK then
    let s1 := if s.flag r Fl.CAN_PRIO_CTRL_SHADOW_FULL then s.prioOverrun p k else s
    let c := s1.canP p
    (s1.setCanP p { c with shadow := sset c.shadow k [] img }).sf r Fl.CAN_PRIO_CTRL_SHADOW_FULL 1
  else
    let o := s.flag r Fl.CAN_PRIO_CTRL_NEW
    let s1 : State := { s with cyc := { s.cyc with
      prioIn := prioKey p k :: s.cyc.prioIn
      prioOver := if o then s.cyc.prioOver ++ [prioKey p k] else s.cyc.prioOver } }
    (s1.wrBytes (Rg.CAN_PRIO_BUF p k) img).sf r Fl.CAN_PRIO_CTRL_NEW 1

/-- A read of word 0 of priority buffer `k` (R113) sets READ_LOCK, whatever NEW holds, and brings the word. -/
def State.prioRead (s : State) (p k : Nat) : State :=
  { s.sf (Rg.CAN_PRIO_CTRL p k) Fl.CAN_PRIO_CTRL_READ_LOCK 1 with readPort := ⟨s.rdw (Rg.CAN_PRIO_BUF p k), false⟩ }

/-- PRIO_BUF_READ (R113). -/
def execPrioBufRead (n : Fin 16) (k : Fin 4) (s : State) : Host.Outcome State Fault Refusal :=
  .next (s.fw (·.prioRead (32 + n.val) k.val))

/-- Writing RELEASE (R113): the lock clears; a full shadow moves to the main half, and NEW stays 1; otherwise NEW clears. It acts before a
message of the same cycle, whose value then stands, new and not overrun. -/
def State.prioRelease (s : State) (p k : Nat) : State :=
  let r := Rg.CAN_PRIO_CTRL p k
  let s1 := s.sf r Fl.CAN_PRIO_CTRL_READ_LOCK 0
  if s1.flag r Fl.CAN_PRIO_CTRL_SHADOW_FULL then
    let c := s1.canP p
    (((s1.wrBytes (Rg.CAN_PRIO_BUF p k) (sget c.shadow k [])).setCanP p { c with shadow := serase c.shadow k }).sf r
      Fl.CAN_PRIO_CTRL_SHADOW_FULL 0).sf r Fl.CAN_PRIO_CTRL_NEW 1
  else if s1.cyc.prioIn.contains (prioKey p k) then { s1 with cyc := { s1.cyc with prioOver := s1.cyc.prioOver.erase (prioKey p k) } }
  else s1.sf r Fl.CAN_PRIO_CTRL_NEW 0

/-- PRIO_RELEASE (R113). -/
def execPrioRelease (n : Fin 16) (k : Fin 4) (value : Word) (s : State) : Host.Outcome State Fault Refusal :=
  .next (s.fw (fun t => if bitOf value.toNat 3 then t.prioRelease (32 + n.val) k.val else t))

/-- CAN_MFIFO_POP (R112): writing 1 removes the oldest message; ignored when the FIFO is empty. -/
def execCanMfifoPop (n : Fin 16) (value : Word) (s : State) : Host.Outcome State Fault Refusal :=
  .next (s.fw (fun t => if bitOf value.toNat 0 then t.mfifoPop (32 + n.val) else t))

/-! ## Error counters -/

def State.tecCnt (s : State) (p : Nat) : Nat := s.fd (Rg.CAN_STATUS p) Fl.CAN_STATUS_TEC
def State.recCnt (s : State) (p : Nat) : Nat := s.fd (Rg.CAN_STATUS p) Fl.CAN_STATUS_REC
def State.setTec (s : State) (p v : Nat) : State := s.sf (Rg.CAN_STATUS p) Fl.CAN_STATUS_TEC v
def State.setRec (s : State) (p v : Nat) : State := s.sf (Rg.CAN_STATUS p) Fl.CAN_STATUS_REC (Nat.min v 255)

/-- The receive error counter after a message received without error: one less, or, above 127, a value of 119 to 127 that
ISO 11898-1 leaves to the implementation. -/
def State.recGood (s : State) (p : Nat) : State :=
  if s.recCnt p > 127 then
    let f := s.freeNat
    (f.2.setRec p (119 + f.1 % 9))
  else s.setRec p (s.recCnt p - 1)

/-- Error-active or error-passive, by the counters. -/
def State.canPassive (s : State) (p : Nat) : State :=
  if s.busOff p then s
  else if s.tecCnt p > 127 ∨ s.recCnt p > 127 then
    if s.canState p = 1 then s
    else ((s.sf (Rg.CAN_STATUS p) Fl.CAN_STATUS_STATE 1).setBit (Rg.CAN_INT_STATUS p) 1).raise 0x0502 p (s.tecCnt p + 256 * s.recCnt p)
  else s.sf (Rg.CAN_STATUS p) Fl.CAN_STATUS_STATE 0

/-! ## Management transmit buffers (R116, R117) -/

def State.mtxState (s : State) (p b : Nat) : Nat := s.fd (Rg.CAN_MTX_STATUS p b) Fl.CAN_MTX_STATUS_STATE

/-- Puts a management buffer into a state; leaving PENDING or ACTIVE sets MTX_DONE and clears CANCEL_HELD. -/
def State.setMtx (s : State) (p b st : Nat) : State :=
  let was := s.mtxState p b
  let s1 := s.wr (Rg.CAN_MTX_STATUS p b) (st + (if st = 2 ∨ st = 1 then s.rd (Rg.CAN_MTX_STATUS p b) / 8 % 2 * 8 else 0))
  if (was = 1 ∨ was = 2) ∧ st ≠ 1 ∧ st ≠ 2 then s1.setBit (Rg.CAN_INT_STATUS p) 5 else s1

/-! ## Bus-off (R120) -/

/-- The controller enters bus-off: loaded datapath buffers are emptied, management buffers abort, and recovery starts at
once with AUTO_RECOVER. -/
def State.enterBusOff (s : State) (p : Nat) : State :=
  let c := s.canP p
  let s1 := s.count (canC p 14) c.txb.length
  let s2 := c.txb.foldl (fun t b => t.brgDrop b.2.copy 7) (s1.setCanP p { c with txb := [], active := none, recov := 0 })
  let s3 := (List.range 16).foldl (fun t b => if t.mtxState p b = 1 ∨ t.mtxState p b = 2 then t.setMtx p b 6 else t) s2
  let s4 := ((s3.sf (Rg.CAN_STATUS p) Fl.CAN_STATUS_STATE (if s3.flag (Rg.CAN_CFG p) Fl.CAN_CFG_AUTO_RECOVER then 3 else 2)).setTec p 255).setRec p 0
  ((s4.count (canC p 25)).setBit (Rg.CAN_INT_STATUS p) 0).raise 0x0501 p 255

/-- CAN_RECOVER (R120): starts recovery from bus-off; outside bus-off the write is ignored and flagged. -/
def State.canRecover (s : State) (p v : Nat) : State :=
  if ¬ bitOf v 0 then s
  else if s.canState p = 2 then (s.setCanP p { s.canP p with recov := 0 }).sf (Rg.CAN_STATUS p) Fl.CAN_STATUS_STATE 3
  else if s.canState p = 3 then s
  else s.ignored (Rg.CAN_RECOVER p).addr v

def execCanRecover (lapse : Nat) (n : Fin 16) (value : Word) (s : State) : Host.Outcome State Fault Refusal :=
  .next ((s.advance lapse).fw (·.canRecover (32 + n.val) value.toNat))

/-- CAN_BUS_RECOVERED (R120): recovery completes after 128 occurrences since it began; both counters read 0. -/
def State.canRecovered (s : State) (p : Nat) : State :=
  if s.canState p ≠ 3 ∨ (s.canP p).recov < 128 then s
  else
    let s1 := ((s.sf (Rg.CAN_STATUS p) Fl.CAN_STATUS_STATE 0).setTec p 0).setRec p 0
    (s1.setBit (Rg.CAN_INT_STATUS p) 2).raise 0x0503 p 0

def execCanBusRecovered (lapse : Nat) (n : Fin 16) (s : State) : Host.Outcome State Fault Refusal :=
  .next ((s.advance lapse).canRecovered (32 + n.val))

/-! ## Protocol exception (R402) -/

/-- A message of a format that is not enabled: counted, and the controller waits for bus idle. -/
def State.canException (s : State) (p : Nat) (f : CanFmt) : State :=
  if ¬ s.canPowered ∨ s.canMode p = 0 ∨ s.busOff p ∨ s.fmtOn p f ∨ (s.canP p).excState then s
  else ((s.setCanP p { s.canP p with excState := true }).count (canC p 27)).canIdle p 0

def execCanProtocolException (lapse : Nat) (n : Fin 16) (fmt : CanFmt) (s : State) : Host.Outcome State Fault Refusal :=
  .next ((s.advance lapse).canException (32 + n.val) fmt)

/-- CAN_BUS_IDLE (R402, R120): 11 consecutive recessive bits; the controller takes part in the bus again. REC counts the occurrence from
bus-off on, up to 128. DEDUCED (log 64): the 128 of a recovery are those since it began, with AUTO_RECOVER 0 since CAN_RECOVER. -/
def State.canBusIdle (s : State) (p : Nat) : State :=
  if ¬ s.canPowered ∨ s.canMode p = 0 then s
  else
    let s1 := (s.setCanP p { s.canP p with excState := false }).canIdle p 1
    if ¬ s1.busOff p then s1
    else
      let s2 := s1.setRec p (Nat.min 128 (s1.recCnt p + 1))
      if s2.canState p = 3 then s2.setCanP p { s2.canP p with recov := Nat.min 128 ((s2.canP p).recov + 1) } else s2

def execCanBusIdle (lapse : Nat) (n : Fin 16) (s : State) : Host.Outcome State Fault Refusal :=
  .next ((s.advance lapse).canBusIdle (32 + n.val))

/-! ## Reception -/

/-- Delivers a message by its filter (R110). -/
def State.canDeliver (s : State) (p : Nat) (m : CanMsg) : State :=
  match (List.range 128).find? (s.canHit p m) with
  | none => s.count (canC p 5)
  | some f =>
    let a := s.rd (Rg.CAN_FILT_ACT p f)
    let target := fieldOf a Fl.CAN_FILT_ACT_TARGET
    if target = 0 then
      if s.pwr.fwd then
        let fr : Frame := {
          data := canHeader m f ++ canData m, isCan := true, src := p, cls := fieldOf a Fl.CAN_FILT_ACT_CLASS, filter := f,
          ts := s.lt, tsHoop := s.hoopOf s.ltNs, tsTrust := s.trustAt s.ltNs }
        { s with rxQ := s.rxQ ++ [fr] }
      else s
    else if (canData m).length > 64 then s.count (canC p 6)
    else if target = 1 then s.toMfifo p f (canImage m f)
    else if target ≤ 5 then s.toPrio p (target - 2) (canImage m f)
    else s.count (canC p 5)

/-- A message received without error: counted, the error counters follow, and it is delivered. DESIGN CHOICE (log 136): TEC and REC move in
NORMAL only, and stand still in LISTEN, RESTRICTED and DOZE. -/
def State.canTake (s : State) (p : Nat) (m : CanMsg) : State :=
  let n := (canData m).length
  let s1 := (((s.count (canC p 0)).count (canC p 1) n).count (canC p (2 + fmtCode m.fmt))).notQuiet
  let s2 := if s1.canMode p = 1 then (s1.recGood p).canPassive p else s1
  s2.canDeliver p m

/-- A message in DOZE (R121): only a wake filter acts. -/
def State.canDoze (s : State) (p : Nat) (m : CanMsg) : State :=
  match (List.range 128).find? (fun f => s.flag (Rg.CAN_FILT_ACT p f) Fl.CAN_FILT_ACT_WAKE && s.canHit p m f) with
  | none => s
  | some f => ((s.count (canC p 26)).raise 0x050A p f).wake (2 ^ 16)

/-- CAN_MESSAGE_RECEIVE (R110). -/
def State.canReceive (s : State) (p : Nat) (m : CanMsg) : State :=
  if ¬ s.canPowered ∨ s.canMode p = 0 ∨ s.busOff p ∨ (s.canP p).excState then s
  else if ¬ s.fmtOn p m.fmt then s.canException p m.fmt
  else if s.pwr.phase = .run then (s.canIdle p 0).canTake p m
  else if s.pwr.phase = .doze then s.canDoze p m
  else s

def execCanMessageReceive (lapse : Nat) (n : Fin 16) (msg : CanMsg) (s : State) : Host.Outcome State Fault Refusal :=
  .next ((s.advance lapse).canReceive (32 + n.val) msg)

end Sys2Proof.Machine
end

