-- ==== Sys2Proof/Machine/Crc.lean ====
section
/-! DEFINITION. The two cyclic redundancy checks of R153: CRC-32 as the FCS of IEEE 802.3, and CRC-32C of RFC 3720. -/

namespace Sys2Proof.Machine

/-- One bit of a reflected CRC with polynomial `poly`. -/
def crcBit (poly c : BitVec 32) : BitVec 32 := if c.getLsbD 0 then (c >>> 1) ^^^ poly else c >>> 1

/-- One byte of a reflected CRC. -/
def crcByte (poly c : BitVec 32) (x : Byte) : BitVec 32 :=
  (List.range 8).foldl (fun a _ => crcBit poly a) (c ^^^ x.setWidth 32)

/-- A reflected CRC over a string, begun at all ones and complemented at its end. -/
def crcOf (poly : BitVec 32) (b : Bytes) : Nat := (b.foldl (crcByte poly) 0xFFFFFFFF ^^^ 0xFFFFFFFF).toNat

/-- CRC-32 (IEEE 802.3). -/
def crc32 (b : Bytes) : Nat := crcOf 0xEDB88320 b

/-- The FCS that ends a frame on the wire: its CRC-32, or the complement of it where the frame ends stomped (R92). -/
def fcsOf (b : Bytes) (stomp : Bool) : Bytes := leBytes 4 (if stomp then crcOf 0xEDB88320 b ^^^ 0xFFFFFFFF else crc32 b)

/-- CRC-32C (RFC 3720). -/
def crc32c (b : Bytes) : Nat := crcOf 0x82F63B78 b

end Sys2Proof.Machine
end

