-- ==== Sys2Proof/Machine/Aes.lean ====
section
/-! DEFINITION. AES-256 (FIPS 197) in the forward direction and GCM (NIST SP 800-38D) with 12-byte nonces (R297). -/

namespace Sys2Proof.Machine

/-- The S-box, entry 0 in the most significant byte. -/
def aesSboxWord : Nat :=
  0x637c777bf26b6fc53001672bfed7ab76ca82c97dfa5947f0add4a2af9ca472c0b7fd9326363ff7cc34a5e5f171d8311504c723c31896059a071280e2eb27b27509832c1a1b6e5aa0523bd6b329e32f8453d100ed20fcb15b6acbbe394a4c58cfd0efaafb434d338545f9027f503c9fa851a3408f929d38f5bcb6da2110fff3d2 * 2 ^ 1024 +
  0xcd0c13ec5f974417c4a77e3d645d197360814fdc222a908846eeb814de5e0bdbe0323a0a4906245cc2d3ac629195e479e7c8376d8dd54ea96c56f4ea657aae08ba78252e1ca6b4c6e8dd741f4bbd8b8a703eb5664803f60e613557b986c11d9ee1f8981169d98e949b1e87e9ce5528df8ca1890dbfe6426841992d0fb054bb16

/-- S-box entry `i`. -/
def aesSbox (i : Nat) : Nat := aesSboxWord / 2 ^ (8 * (255 - i)) % 256

/-- Multiplication by x in the AES field. -/
def xtime (a : Nat) : Nat := if a < 128 then 2 * a else (2 * a) % 256 ^^^ 0x1B

/-- The key schedule: `n` further words appended to the words made so far (index `i` next). -/
def aesExpand (ws : List (List Nat)) (i rcon : Nat) : Nat → List (List Nat)
  | 0 => ws
  | n + 1 =>
    let prev := ws.getD (i - 1) []
    let old := ws.getD (i - 8) []
    let t := if i % 8 = 0 then
        match prev.map aesSbox with
        | [a, b, c, d] => [b ^^^ rcon, c, d, a]
        | x => x
      else if i % 8 = 4 then prev.map aesSbox else prev
    aesExpand (ws ++ [old.zipWith (· ^^^ ·) t]) (i + 1) (if i % 8 = 0 then xtime rcon else rcon) n

/-- The 60 words of the expanded 256-bit key. -/
def aesKey (k : Bytes) : List (List Nat) :=
  aesExpand ((List.range 8).map (fun i => (slice k (4 * i) 4).map BitVec.toNat)) 8 1 52

/-- Adds round key `r` to a state of 16 bytes in column order. -/
def aesAdd (s : List Nat) (key : List (List Nat)) (r : Nat) : List Nat :=
  s.zipWith (· ^^^ ·) ((key.drop (4 * r)).take 4).flatten

/-- SubBytes and ShiftRows. -/
def aesSubShift (s : List Nat) : List Nat :=
  (List.range 16).map (fun i => aesSbox (s.getD ((i + 4 * (i % 4)) % 16) 0))

/-- MixColumns. -/
def aesMix (s : List Nat) : List Nat :=
  (List.range 16).map (fun i =>
    let c := 4 * (i / 4)
    let at_ (j : Nat) := s.getD (c + (i + j) % 4) 0
    xtime (at_ 0) ^^^ xtime (at_ 1) ^^^ at_ 1 ^^^ at_ 2 ^^^ at_ 3)

/-- Rounds 1 to 13, from round `r` on. -/
def aesRounds (s : List Nat) (key : List (List Nat)) (r : Nat) : Nat → List Nat
  | 0 => s
  | n + 1 => aesRounds (aesAdd (aesMix (aesSubShift s)) key r) key (r + 1) n

/-- AES-256 of a block under an expanded key. -/
def aesBlock (key : List (List Nat)) (b : Bytes) : Bytes :=
  let s := aesRounds (aesAdd ((slice b 0 16).map BitVec.toNat) key 0) key 1 13
  (aesAdd (aesSubShift s) key 14).map (BitVec.ofNat 8)

/-- The product of two 128-bit numbers in the GCM field, bit 0 of the standard being the most significant bit. -/
def ghashMul (x : Nat) (v : Nat) (z : Nat) : Nat → Nat
  | 0 => z
  | n + 1 => ghashMul x (if v % 2 = 1 then v / 2 ^^^ (0xE1 * 2 ^ 120) else v / 2) (if bitOf x n then z ^^^ v else z) n

/-- GHASH of `n` blocks. -/
def ghash (h y : Nat) (d : Bytes) : Nat → Nat
  | 0 => y
  | n + 1 => ghash h (ghashMul (y ^^^ be d 0 16) h 0 128) (d.drop 16) n

/-- A string padded with zeros to a whole number of 16-byte blocks (R297). -/
def padBlocks (d : Bytes) : Bytes := d ++ zeros (cdiv d.length 16 * 16 - d.length)

/-- The keystream of `n` blocks from counter block `iv ‖ c`. -/
def gcmStream (key : List (List Nat)) (iv : Bytes) (c : Nat) : Nat → Bytes
  | 0 => []
  | n + 1 => aesBlock key (iv ++ beBytes 4 c) ++ gcmStream key iv (c + 1) n

/-- XORs a string with a keystream of at least its length. -/
def xorBytes (a b : Bytes) : Bytes := a.zipWith (· ^^^ ·) b

/-- The text under the counter mode of GCM: encryption and decryption alike. -/
def gcmCrypt (k iv text : Bytes) : Bytes := xorBytes text (gcmStream (aesKey k) iv 2 (cdiv text.length 16))

/-- The 16-byte GCM tag over additional data and ciphertext. -/
def gcmTag (k iv aad ct : Bytes) : Bytes :=
  let key := aesKey k
  let d := padBlocks aad ++ padBlocks ct ++ beBytes 8 (8 * aad.length) ++ beBytes 8 (8 * ct.length)
  xorBytes (beBytes 16 (ghash (ofBe (aesBlock key (zeros 16))) 0 d (d.length / 16))) (aesBlock key (iv ++ beBytes 4 1))

end Sys2Proof.Machine
end

