-- ==== Sys2Proof/Machine/Keccak.lean ====
section
/-! DEFINITION. SHAKE256 (FIPS 202), cSHAKE256 and KMAC256 (NIST SP 800-185), over strings of bytes. -/

namespace Sys2Proof.Machine

/-- Rotation of a 64-bit lane to the left. -/
def rotl64 (v r : Nat) : Nat := (v * 2 ^ r + v / 2 ^ (64 - r)) % 2 ^ 64

/-- Offsets of the step rho, lane x + 5y. -/
def keccakRho : List Nat :=
  [0, 1, 62, 28, 27, 36, 44, 6, 55, 20, 3, 10, 43, 25, 39, 41, 45, 15, 21, 8, 18, 2, 61, 56, 14]

/-- Round constants of the step iota. -/
def keccakRc : List Nat :=
  [0x0000000000000001, 0x0000000000008082, 0x800000000000808A, 0x8000000080008000, 0x000000000000808B, 0x0000000080000001,
   0x8000000080008081, 0x8000000000008009, 0x000000000000008A, 0x0000000000000088, 0x0000000080008009, 0x000000008000000A] ++
  [0x000000008000808B, 0x800000000000008B, 0x8000000000008089, 0x8000000000008003, 0x8000000000008002, 0x8000000000000080,
   0x000000000000800A, 0x800000008000000A, 0x8000000080008081, 0x8000000000008080, 0x0000000080000001, 0x8000000080008008]

/-- Lane x + 5y of a state. -/
def lane (a : List Nat) (i : Nat) : Nat := a.getD i 0

/-- The step theta. -/
def keccakTheta (a : List Nat) : List Nat :=
  let c := (List.range 5).map (fun x => lane a x ^^^ lane a (x + 5) ^^^ lane a (x + 10) ^^^ lane a (x + 15) ^^^ lane a (x + 20))
  let d := (List.range 5).map (fun x => lane c ((x + 4) % 5) ^^^ rotl64 (lane c ((x + 1) % 5)) 1)
  (List.range 25).map (fun i => lane a i ^^^ lane d (i % 5))

/-- The steps rho and pi: lane (x, y) of the result comes from lane ((x + 3y) mod 5, x). -/
def keccakRhoPi (a : List Nat) : List Nat :=
  (List.range 25).map (fun i => let j := (i % 5 + 3 * (i / 5)) % 5 + 5 * (i % 5); rotl64 (lane a j) (lane keccakRho j))

/-- The step chi. -/
def keccakChi (b : List Nat) : List Nat :=
  (List.range 25).map (fun i =>
    let y := 5 * (i / 5)
    lane b i ^^^ ((2 ^ 64 - 1 - lane b (y + (i + 1) % 5 % 5)) &&& lane b (y + (i + 2) % 5)))

/-- One round. -/
def keccakRound (a : List Nat) (rc : Nat) : List Nat :=
  match keccakChi (keccakRhoPi (keccakTheta a)) with
  | [] => []
  | h :: t => (h ^^^ rc) :: t

/-- Keccak-f[1600]. -/
def keccakF (a : List Nat) : List Nat := keccakRc.foldl keccakRound a

/-- XORs a block of `n` lanes into the state. -/
def keccakXor (a : List Nat) (block : Bytes) (n : Nat) : List Nat :=
  (List.range 25).map (fun i => if i < n then lane a i ^^^ ofLe (slice block (8 * i) 8) else lane a i)

/-- Absorbs `k` blocks of the rate 136. -/
def keccakAbsorb (a : List Nat) (m : Bytes) : Nat → List Nat
  | 0 => a
  | k + 1 => keccakAbsorb (keccakF (keccakXor a (m.take 136) 17)) (m.drop 136) k

/-- Squeezes `k` blocks of the rate 136. -/
def keccakSqueeze (a : List Nat) : Nat → Bytes
  | 0 => []
  | k + 1 => (a.take 17).flatMap (leBytes 8) ++ keccakSqueeze (keccakF a) k

/-- The sponge of rate 136 with a domain suffix byte. -/
def sponge (suffix : Nat) (m : Bytes) (n : Nat) : Bytes :=
  let gap := 136 - (m.length + 1) % 136
  let padded := m ++ [BitVec.ofNat 8 suffix] ++ (if gap = 136 then [] else zeros gap)
  let last := padded.length - 1
  let p := patch padded last [BitVec.ofNat 8 (byteAt padded last ^^^ 0x80)]
  (keccakSqueeze (keccakAbsorb (List.replicate 25 0) p (p.length / 136)) (cdiv n 136)).take n

/-- SHAKE256 with `n` bytes of output. -/
def shake256 (m : Bytes) (n : Nat) : Bytes := sponge 0x1F m n

/-- The 64-byte SHAKE256 digest the manual calls SHAKE256-512. -/
def shake512 (m : Bytes) : Bytes := shake256 m 64

/-- The least number of bytes, at least 1, that holds `v`. -/
def byteLen (v : Nat) : Nat := Nat.max 1 (cdiv (if v = 0 then 0 else Nat.log2 v + 1) 8)

/-- left_encode and right_encode of SP 800-185. -/
def leftEncode (v : Nat) : Bytes := BitVec.ofNat 8 (byteLen v) :: beBytes (byteLen v) v
def rightEncode (v : Nat) : Bytes := beBytes (byteLen v) v ++ [BitVec.ofNat 8 (byteLen v)]

/-- encode_string and bytepad (to 136) of SP 800-185. -/
def encodeString (b : Bytes) : Bytes := leftEncode (8 * b.length) ++ b
def bytepad (b : Bytes) : Bytes :=
  let x := leftEncode 136 ++ b
  x ++ zeros (cdiv x.length 136 * 136 - x.length)

/-- cSHAKE256 with function name `f` and customisation `s`. -/
def cshake256 (m : Bytes) (n : Nat) (f s : Bytes) : Bytes := sponge 0x04 (bytepad (encodeString f ++ encodeString s) ++ m) n

/-- The bytes of an ASCII string. -/
def ascii (t : String) : Bytes := t.toList.map (fun c => BitVec.ofNat 8 c.toNat)

/-- KMAC256(K, X, L = 8n, S). -/
def kmac256 (k x : Bytes) (n : Nat) (s : Bytes) : Bytes :=
  cshake256 (bytepad (encodeString k) ++ x ++ rightEncode (8 * n)) n (ascii "KMAC") s

end Sys2Proof.Machine
end

