-- ==== Sys2Proof/Machine/Ed448.lean ====
section
/-! DEFINITION. Ed448 (RFC 8032, section 5.2): public keys, signatures and their verification. -/

namespace Sys2Proof.Machine

namespace Ed

/-- The field prime 2^448 − 2^224 − 1. -/
def p : Nat := 2 ^ 448 - 2 ^ 224 - 1

/-- The group order. -/
def order : Nat := 2 ^ 446 - 13818066809895115352007386748515426880336692474882178609894547503885

/-- The curve constant d = −39081. -/
def d : Nat := p - 39081

def add (a b : Nat) : Nat := (a + b) % p
def sub (a b : Nat) : Nat := (a + p - b % p) % p
def mul (a b : Nat) : Nat := a * b % p

/-- `b` to the power of the low `n` bits of `e`, in the field. -/
def pow (b e : Nat) : Nat → Nat
  | 0 => 1
  | n + 1 => let r := pow (mul b b) (e / 2) n; if e % 2 = 1 then mul r b else r

/-- A point in projective coordinates. -/
structure Pt where
  x : Nat
  y : Nat
  z : Nat
  deriving DecidableEq, Repr

/-- The neutral point. -/
def zero : Pt := ⟨0, 1, 1⟩

/-- The base point. -/
def base : Pt :=
  ⟨224580040295924300187604334099896036246789641632564134246125461686950415467406032909029192869357953282578032075146446173674602635247710,
   298819210078481492676017930443930673437544040154080242095928241372331506189835876003536878655418784733982303233503462500531545062832660, 1⟩

/-- The sum of two points (RFC 8032, 5.2.4). -/
def sum (s t : Pt) : Pt :=
  let a := mul s.z t.z
  let b := mul a a
  let c := mul s.x t.x
  let e0 := mul s.y t.y
  let e := mul d (mul c e0)
  let f := sub b e
  let g := add b e
  let h := mul (add s.x s.y) (add t.x t.y)
  ⟨mul a (mul f (sub h (add c e0))), mul a (mul g (sub e0 c)), mul f g⟩

/-- The low `n` bits of `k` times a point. -/
def smul (k : Nat) (q : Pt) : Nat → Pt
  | 0 => zero
  | n + 1 => let r := smul (k / 2) (sum q q) n; if k % 2 = 1 then sum r q else r

/-- The 57-byte encoding of a point. -/
def encode (q : Pt) : Bytes :=
  let zi := pow q.z (p - 2) 448
  leBytes 57 (mul q.y zi + 2 ^ 455 * (mul q.x zi % 2))

/-- The point an encoding stands for. -/
def decode (b : Bytes) : Option Pt :=
  let v := ofLe (b.take 57)
  let y := v % 2 ^ 455
  let sign := v / 2 ^ 455
  if b.length ≠ 57 ∨ y ≥ p then none
  else
    let u := sub (mul y y) 1
    let w := sub (mul d (mul y y)) 1
    let u3w := mul (mul u (mul u u)) w
    let u5w3 := mul (mul u3w (mul u u)) (mul w w)
    let x := mul u3w (pow u5w3 ((p - 3) / 4) 448)
    if mul w (mul x x) ≠ u then none
    else if x = 0 ∧ sign = 1 then none
    else some ⟨if x % 2 = sign then x else p - x, y, 1⟩

/-- Equality of points. -/
def same (s t : Pt) : Bool := mul s.x t.z == mul t.x s.z && mul s.y t.z == mul t.y s.z

/-- dom4(0, context). -/
def dom (ctx : Bytes) : Bytes := ascii "SigEd448" ++ [0, BitVec.ofNat 8 ctx.length] ++ ctx

/-- The secret scalar of a seed (5.2.5). -/
def scalar (seed : Bytes) : Nat := ofLe ((shake256 seed 114).take 57) % 2 ^ 447 / 4 * 4 % 2 ^ 447 ||| 2 ^ 447

/-- The public key of a seed. -/
def pub (seed : Bytes) : Bytes := encode (smul (scalar seed) base 448)

/-- The 114-byte signature of a message under a context (5.2.6). -/
def sign (seed msg ctx : Bytes) : Bytes :=
  let a := pub seed
  let r := ofLe (shake256 (dom ctx ++ (shake256 seed 114).drop 57 ++ msg) 114) % order
  let rb := encode (smul r base 448)
  let k := ofLe (shake256 (dom ctx ++ rb ++ a ++ msg) 114) % order
  rb ++ leBytes 57 ((r + k * scalar seed) % order)

/-- Whether a signature verifies (5.2.7, the cofactored equation). -/
def verify (pk msg ctx sig : Bytes) : Bool :=
  let s := ofLe ((sig.drop 57).take 57)
  match decode (sig.take 57), decode pk with
  | some r, some a =>
    if sig.length ≠ 114 ∨ s ≥ order then false
    else
      let k := ofLe (shake256 (dom ctx ++ sig.take 57 ++ pk ++ msg) 114) % order
      same (smul 4 (smul s base 448) 3) (smul 4 (sum r (smul k a 448)) 3)
  | _, _ => false

end Ed

end Sys2Proof.Machine
end

