-- ==== Sys2Proof/Machine/Keys.lean ====
section
/-! DEFINITION. The key store (R282 to R296) and the firmware service (R299). -/

namespace Sys2Proof.Machine

/-! ## Slots and derivation -/

/-! Masters, by their bit in MASTERS (R285). -/
namespace Master
def mgmt : Nat := 0
def macsec : Nat := 1
def sealUnit : Nat := 2
def eyelet : Nat := 3
def bridge : Nat := 4
def image : Nat := 5
def attest : Nat := 6
end Master

/-! Operations, by their bit in USAGE (R285). -/
namespace KeyOp
def derive : Nat := 0
def encrypt : Nat := 1
def decrypt : Nat := 2
def mac : Nat := 3
def sign : Nat := 4
def verify : Nat := 5
end KeyOp

/-- Slot `k`; one whose key-store word holds a double-bit error reads EMPTY (R347, memory 9). -/
def State.keySlot (s : State) (k : Nat) : KeySlot := if s.isBad 9 k then slotInit else sget s.keys.slots k slotInit

/-- Puts slot `k`. -/
def State.setSlot (s : State) (k : Nat) (v : KeySlot) : State :=
  { s with keys := { s.keys with slots := sset s.keys.slots k slotInit v } }

/-- TYPE, SRC and WORLD of a KEYSLOT payload or an attribute string (R285). -/
def ksType (a : Bytes) : Nat := bits (byteAt a 1) 0 3
def ksSrc (a : Bytes) : Nat := bits (byteAt a 1) 4 2
def ksWorld (a : Bytes) : Nat := bits (byteAt a 1) 6 2
def ksParent (a : Bytes) : Nat := be a 2 2

/-- Material length of a TYPE (R285). -/
def matLen (t : Nat) : Nat := if t ≤ 2 then 32 else 57

/-- The derivation of `n` bytes from `p` under a context label (R288). -/
def kdf (p label : Bytes) (n : Nat) : Bytes := kmac256 p label n (ascii "KD48-KDF")

/-- The transport key (R286). -/
def State.transportKey (s : State) : Bytes := kdf s.otp.huk (ascii "KD48-TRANSPORT") 32

/-- The check value of symmetric material, and of an Ed448 public key (R287). -/
def kcvSym (m : Bytes) : Bytes := kmac256 m [] 8 (ascii "KD48-KCV")
def kcvPub (pk : Bytes) : Bytes := (shake512 pk).take 8

/-- Life-cycle state in force (R68): what the start read from OTP. -/
def State.lifecycle (s : State) : Nat := s.fd Rg.IMG_LIFECYCLE Fl.IMG_LIFECYCLE_STATE

/-- Node number. -/
def State.node (s : State) : Nat := s.fd Rg.IMG_NODE Fl.IMG_NODE_NODE

/-- KEY_STATUS.METRO_BLOCKED (R290): debug unlocked since the last POR, or state RETURNED. -/
def State.metroBlocked (s : State) : Bool := s.pwr.dbgMark || s.lifecycle = 3

/-! ## The use check (R290) -/

/-- The cause for which a use is refused, 0 when it is allowed: `types` are the TYPEs that fit the operation. -/
def State.useCause (s : State) (slot master op : Nat) (types : List Nat) : Nat :=
  let k := s.keySlot slot
  if k.st = 0 ∨ k.st = 2 ∨ k.st = 3 then 1
  else if ksWorld k.attr = 2 ∧ s.metroBlocked then 2
  else if ¬ bitOf (byteAt k.attr 4) master then 3
  else if ¬ bitOf (byteAt k.attr 6) s.lifecycle then 4
  else if ¬ bitOf (byteAt k.attr 5) op then 5
  else if ¬ types.contains (ksType k.attr) then 6
  else 0

/-- Counts and reports a refused use: the first refusal of a hoop for each slot raises KEY_DENIED. -/
def State.denied (s : State) (slot master cause : Nat) : State :=
  (s.count (keyC 0)).raiseFirst 0x0C01 slot noPort (slot + 256 * master + 4096 * cause)

/-- A read of a slot: one that holds a double-bit error reads EMPTY until the next start (R347). -/
def State.slotRead (s : State) (slot : Nat) : State :=
  if s.isBad 9 slot then ((s.dbeSeen 9 slot).mended 9 slot).setSlot slot slotInit else s.sbeAt 9 slot

/-- A use of a slot: the slot where the check allows it, and the state after the check. -/
def State.useSlot (s0 : State) (slot master op : Nat) (types : List Nat) : Option KeySlot × State :=
  let s := s0.slotRead slot
  let c := s.useCause slot master op types
  if c = 0 then (some (s.keySlot slot), s) else (none, s.denied slot master c)

/-- The working key of `n` bytes under a label, derived at first use and kept (R289). -/
def State.workKey (s : State) (slot master : Nat) (label : Bytes) : Option Bytes × State :=
  match s.useSlot slot master KeyOp.derive [2] with
  | (none, s1) => (none, s1)
  | (some k, s1) =>
    match s1.keys.work.find? (fun w => w.slot = slot && w.label = label) with
    | some w => (some w.key, s1)
    | none =>
      let key := kdf k.act.mat label 32
      (some key, { s1 with keys := { s1.keys with work := ⟨slot, label, key⟩ :: s1.keys.work } })

/-! ## KEYSLOT records (R285, R287) -/

/-- Whether every byte of a range is zero. -/
def zeroBytes (b : Bytes) (o n : Nat) : Bool := be b o n = 0

/-- Whether the fields of a payload, its KCV apart, lie inside the tables of R285. -/
def ksBodyOk (p : Bytes) : Bool :=
  let t := ksType p
  let src := ksSrc p
  let w := ksWorld p
  let usage := byteAt p 5
  let ll := byteAt p 8
  let used := if src = 0 then 12 + matLen t + 16 else if src = 1 then ll else 57
  p.length = 128 && 4 ≤ byteAt p 0 && 1 ≤ t && t ≤ 4 && !bitOf (byteAt p 1) 3
    && (if t ≤ 2 then src ≤ 1 else if t = 3 then src = 1 else src = 2)
    && (w = 1 || w = 2) && byteAt p 4 < 128
    && (if t = 1 then usage &&& 0x06 = usage else if t = 2 then usage &&& 0x09 = usage
        else if t = 3 then usage &&& 0x10 = usage else usage &&& 0x20 = usage)
    && byteAt p 6 < 16 && byteAt p 7 < 4 && (if src = 1 then ll ≤ 64 else ll = 0)
    && zeroBytes p 9 3 && zeroBytes p (20 + used) (108 - used)

/-- The same of a KEYSLOT record, whose KCV is zero for DERIVED. -/
def ksFieldsOk (p : Bytes) : Bool := ksBodyOk p && (ksSrc p != 1 || zeroBytes p 12 8)

/-- Whether a payload's parent may be used: defined, with the derive usage, of the same world; PUBLIC names no parent. -/
def State.ksParentOk (s : State) (p : Bytes) : Bool :=
  let par := ksParent p
  if ksSrc p = 2 then par = 0xFFFF
  else if par = 0xFFFF ∨ par = 0xFFFE then true
  else
    let k := s.keySlot par
    par < 256 && k.st != 0 && bitOf (byteAt k.attr 5) KeyOp.derive && ksWorld k.attr = ksWorld p

/-- Whether the world allows the masters and flags. -/
def ksWorldOk (p : Bytes) : Bool :=
  if ksWorld p = 2 then byteAt p 4 &&& 0x7B = 0 && byteAt p 7 = 0 else byteAt p 4 &&& 0x24 = 0

/-- The material of a parent: the hardware unique key, the transport key, or the ACTIVE half of a slot. -/
def State.parentMat (s : State) (par : Nat) : Bytes :=
  if par = 0xFFFF then s.otp.huk else if par = 0xFFFE then s.transportKey else (s.keySlot par).act.mat

/-- A half made of material of a TYPE. -/
def halfOf (t : Nat) (m : Bytes) : KeyHalf :=
  if t ≤ 2 then ⟨m, kcvSym m, []⟩
  else
    let pk := if t = 3 then Ed.pub m else m
    ⟨m, kcvPub pk, pk⟩

/-- Builds the material of a payload (R287): the half, or the failure (3 = tag, 4 = KCV). `node` is the node number of
the wrap label. -/
def State.ksBuild (s : State) (p : Bytes) (node : Nat) : Except Nat KeyHalf :=
  let t := ksType p
  let n := matLen t
  let data := p.drop 20
  if ksSrc p = 0 then
    let wk := kdf (s.parentMat (ksParent p)) (ascii "KD48-WRAP" ++ beBytes 2 node ++ p.take 1) 32
    let iv := data.take 12
    let ct := slice data 12 n
    if gcmTag wk iv (p.take 20) ct != slice data (12 + n) 16 then .error 3
    else
      let h := halfOf t (gcmCrypt wk iv ct)
      if h.kcv = slice p 12 8 then .ok h else .error 4
  else if ksSrc p = 1 then .ok (halfOf t (kdf (s.parentMat (ksParent p)) (data.take (byteAt p 8)) n))
  else
    let h := halfOf t (data.take 57)
    if h.kcv = slice p 12 8 then .ok h else .error 4

/-- The slot a payload and its half make: attributes bytes 0 to 19, with the KCV of ACTIVE. -/
def slotOf (p : Bytes) (h : KeyHalf) : KeySlot := ⟨1, p.take 12 ++ h.kcv, h, none⟩

/-- Applies a KEYSLOT record of the loader: the slot is defined, or the section is rejected (cause 0x0A). -/
def State.defineSlot (s : State) (p : Bytes) (node : Nat) : Except Nat State :=
  if ¬ ksFieldsOk p ∨ ¬ ksWorldOk p ∨ (s.keySlot (byteAt p 0)).st ≠ 0 ∨ ¬ s.ksParentOk p then .error 0x0A
  else
    match s.ksBuild p node with
    | .error _ => .error 0x0A
    | .ok h => .ok (s.setSlot (byteAt p 0) (slotOf p h))

/-- The fixed slots (R284): the identity key unless the state is BLANK, and the accepted image keys. -/
def State.fixedSlots (s : State) (k1 k2 k3 : Option Bytes) : State :=
  let attrOf (slot t world masters usage : Nat) (h : KeyHalf) : KeySlot :=
    ⟨1, beBytes 2 (256 * slot + t + 64 * world) ++ [0xFF, 0xFF] ++ [BitVec.ofNat 8 masters, BitVec.ofNat 8 usage, 0x0F, 0, 0, 0, 0, 0] ++ h.kcv, h, none⟩
  let s0 := if s.lifecycle = 0 ∨ s.lifecycle = 4 then s
    else s.setSlot 0 (attrOf 0 (3 + 16) 1 0x40 0x10 (halfOf 3 (kdf s.otp.huk (ascii "KD48-IDENTITY") 57)))
  let put (t : State) (i : Nat) (masters : Nat) (k : Option Bytes) : State :=
    match k with
    | none => t
    | some pk => t.setSlot i (attrOf i (4 + 32) 0 masters 0x20 (halfOf 4 pk))
  put (put (put s0 1 0x20 k1) 2 0x24 k2) 3 0x24 k3

/-! ## The checked pairs (R297, R298) -/

/-- Whether a pair of checked pipelines faults on its next result (R297, R298). -/
def State.pairBad (s : State) (pair : Nat) : Bool := s.keys.bad.contains pair

/-- Counts and raises a cipher mismatch on a pair, and clears the upset. -/
def State.cipherFault (s : State) (pair port faults : Nat) : State :=
  let s1 : State := { s with keys := { s.keys with bad := s.keys.bad.erase pair } }
  ((s1.count (keyC 4)).setBit Rg.KEY_INT_STATUS 2).raise 0x0C05 port (pair + 4 * s1.fd Rg.CIPH_CFG Fl.CIPH_CFG_FAULT_MODE + 256 * faults)

/-! ## The Ed448 engine (R296) -/

/-- The seal unit waits for a signature. -/
def State.signing (s : State) : Bool := s.flag Rg.SEAL_STATUS Fl.SEAL_STATUS_SIGNING

/-- The requests that wait for the engine or that it serves, in the order of R296; the test signature of a replacement, which R296 does
not place, comes last (DESIGN CHOICE, log entry 147). An attestation with a signature waits while its request is the eyelet's oldest. -/
def State.edWants (s : State) : List EdUser :=
  (if s.signing then [.sealing] else []) ++ (if s.stg.any (fun j => j.op = 3) then [.verifier] else [])
    ++ (if s.forwarding && s.flag Rg.KEY_CFG Fl.KEY_CFG_ATTEST_SIGN && s.eye.queue.head?.any (fun r => r.kind = 5 && r.body.length = 32) then [.attest] else [])
    ++ (if s.keys.svc.any (·.signs) then [.service] else []) ++ (if s.keys.job.any (fun j => ksType j.payload = 3) then [.replacement] else [])

/-- The engine goes on with the request it has taken, or takes the first that waits. -/
def State.edPick (s : State) : State :=
  let w := s.edWants
  let now := if s.keys.ed.any w.contains then s.keys.ed else w.head?
  if now = s.keys.ed then s else { s with keys := { s.keys with ed := now } }

/-- Whether the engine serves `u`. -/
def State.edServes (s : State) (u : EdUser) : Bool := s.edPick.keys.ed = some u

/-! ## Commands of KEY_CMD (R291, R292) -/

/-- Shows the outcome of a KEY_CMD command. -/
def State.keyCmdDone (s : State) (cause : Nat) : State :=
  let s1 := (s.setBit Rg.KEY_CMD_STATUS Fl.KEY_CMD_STATUS_DONE.lo).sf Rg.KEY_CMD_STATUS Fl.KEY_CMD_STATUS_CAUSE cause
  if cause = 0 then s1 else s1.setBit Rg.KEY_CMD_STATUS Fl.KEY_CMD_STATUS_REFUSED.lo

/-- Why a replacement is refused before anything is built; 0 = not refused. The payload must be complete by R285: LABEL_LEN 0 to 64, the
reserved and unused bytes zero. Its KCV is judged when it has been built. -/
def State.replaceCause (s : State) (slot : Nat) (p : Bytes) : Nat :=
  let k := s.keySlot slot
  if s.keys.job.isSome ∨ k.st = 4 ∨ k.st = 5 then 6
  else if k.st ≠ 1 ∨ ¬ bitOf (byteAt k.attr 7) 0 then 1
  else if ksWorld k.attr ≠ 1 ∨ ksWorld p ≠ 1 then 2
  else if p.take 8 ≠ k.attr.take 8 ∨ ksSrc p ≠ (if ksType p = 3 then 1 else 0) ∨ ksType p = 4 ∨ ¬ ksBodyOk p ∨ ¬ s.ksParentOk p then 1
  else 0

/-- The payload in KEY_REPL_BUF. -/
def State.replBuf (s : State) : Bytes := s.rdBytes Rg.KEY_REPL_BUF 32

/-- KEY_REPLACE (R292): KEY_CMD with OP 1. Verification of the replacement begins, or the command is refused. -/
def State.keyReplace (s : State) (slot : Nat) : State :=
  let p := s.replBuf
  let c := s.replaceCause slot p
  if c ≠ 0 then s.keyCmdDone c
  else
    (({ s with keys := { s.keys with job := some ⟨slot, p, s.hoopIx⟩ } } : State).sf Rg.KEY_CMD_STATUS Fl.KEY_CMD_STATUS_BUSY 1).edPick

def execKeyReplace (slot : Fin 256) (s : State) : Host.Outcome State Fault Refusal := .next (s.fw (·.keyReplace slot.val))

/-- A failed replacement: PENDING discarded, counted and reported (R292). -/
def State.replaceFailed (s : State) (slot cause : Nat) : State :=
  ((s.count (keyC 2)).raise 0x0C03 noPort (slot + 256 * cause)).keyCmdDone cause

/-- Whether the test signature of an Ed448 replacement holds: over "KD48-TEST", slot and hoop index, under the new key. -/
def testSignatureOk (j : KeyJob) (h : KeyHalf) : Bool :=
  let m := ascii "KD48-TEST" ++ beBytes 1 j.slot ++ beBytes 4 j.hoop
  Ed.verify h.pub m [] (Ed.sign h.mat m [])

/-- The outcome of verifying a replacement: the new half, or the cause of its failure. The KCV of an Ed448 replacement must be that of the
new public key (R292), though a KEYSLOT record holds zero there for DERIVED (DEDUCED, log entry 145). -/
def State.replaceResult (s : State) (j : KeyJob) : Except Nat KeyHalf :=
  match s.ksBuild j.payload s.node with
  | .error c => .error c
  | .ok h =>
    if ksType j.payload ≠ 3 then .ok h
    else if ¬ testSignatureOk j h then .error 5
    else if slice j.payload 12 8 = h.kcv then .ok h
    else .error 4

/-- KEY_REPLACE_VERIFIED (R292): verification ends with REPLACE_PENDING or a failure. An unwrap runs on pair 3 (R297): when its checks
do not agree nothing is released (R298), and the replacement fails with cause 3 (DESIGN CHOICE, log entry 146). -/
def State.keyReplaceVerified (s : State) : State :=
  match s.keys.job with
  | none => s
  | some j =>
    if ksType j.payload = 3 ∧ ¬ s.edServes .replacement then s
    else
    let s1 := (({ s with keys := { s.keys with job := none } } : State).sf Rg.KEY_CMD_STATUS Fl.KEY_CMD_STATUS_BUSY 0).edPick
    if (s1.keySlot j.slot).st ≠ 1 then s1.replaceFailed j.slot 7
    else if ksSrc j.payload = 0 ∧ s1.pairBad 3 then (s1.cipherFault 3 noPort 0).replaceFailed j.slot 3
    else
      match s1.replaceResult j with
      | .error c => s1.replaceFailed j.slot c
      | .ok h => ((s1.setSlot j.slot { s1.keySlot j.slot with st := 5, pend := some h }).keyCmdDone 0).noteAsk Ask.key j.slot

def execKeyReplaceVerified (s : State) : Host.Outcome State Fault Refusal := .next s.keyReplaceVerified

/-- Why a destruction is refused (R291); 0 = accepted. -/
def State.destroyCause (s : State) (slot : Nat) : Nat :=
  let k := s.keySlot slot
  if k.st = 4 ∨ k.st = 5 ∨ (s.keys.job.any (fun j => j.slot = slot)) then 6
  else if k.st ≠ 1 ∨ ¬ bitOf (byteAt k.attr 7) 1 then 1
  else if ksWorld k.attr ≠ 1 then 2
  else 0

/-- KEY_DESTROY (R291): KEY_CMD with OP 2. The destruction waits for the next boundary. -/
def State.keyDestroy (s : State) (slot : Nat) : State :=
  let c := s.destroyCause slot
  if c ≠ 0 then s.keyCmdDone c else ((s.setSlot slot { s.keySlot slot with st := 4 }).keyCmdDone 0).noteAsk Ask.key slot

def execKeyDestroy (slot : Fin 256) (s : State) : Host.Outcome State Fault Refusal := .next (s.fw (·.keyDestroy slot.val))

/-! ## Commits at a boundary (R291 to R293) -/

/-- Whether the chain of parents of a slot reaches `root`; a chain is at most 256 long. -/
def State.descends (s : State) (root : Nat) : Nat → Nat → Bool
  | 0, _ => false
  | n + 1, k =>
    let sl := s.keySlot k
    k = root || (sl.st != 0 && ksSrc sl.attr != 2 && ksParent sl.attr < 256 && s.descends root n (ksParent sl.attr))

/-- The slots a destruction of `root` takes: the slot and every slot whose chain of parents reaches it. -/
def State.lineage (s : State) (root : Nat) : List Nat :=
  (s.keys.slots.map (·.1)).filter (fun k => s.descends root 256 k && (s.keySlot k).st != 2 && (s.keySlot k).st != 3)

/-- Discards the working keys of the given slots, MACsec keys among them (R289). -/
def State.dropWork (s : State) (ks : List Nat) : State :=
  let hit (p : Nat) : Bool := ks.contains (s.fd (Rg.KEY_MSEC_CFG p) Fl.KEY_MSEC_CFG_ROOT_SLOT)
  { s with keys := { s.keys with
      work := s.keys.work.filter (fun w => !ks.contains w.slot)
      msec := s.keys.msec.filter (fun e => !hit e.1) } }

/-- Makes one slot an orphan; a pending half is discarded as failed with cause 7 (R293). -/
def State.orphan (s : State) (k : Nat) : State :=
  let sl := s.keySlot k
  let s1 := s.setSlot k { sl with st := 2, pend := none }
  if sl.st = 5 then s1.replaceFailed k 7 else s1

/-- The MACsec ports whose root is among the given slots have no usable key (R290). -/
def State.noKeys (s : State) (ks : List Nat) : State :=
  (List.range 24).foldl (fun t p =>
    if t.flag (Rg.KEY_MSEC_CFG p) Fl.KEY_MSEC_CFG_ENABLE ∧ ks.contains (t.fd (Rg.KEY_MSEC_CFG p) Fl.KEY_MSEC_CFG_ROOT_SLOT) then
      t.sf (Rg.KEY_MSEC_STATUS p) Fl.KEY_MSEC_STATUS_NO_KEY 1 else t) s

/-- A destruction takes effect. -/
def State.destroyNow (s : State) (root : Nat) : State :=
  let ks := s.lineage root
  (((ks.foldl State.orphan s).dropWork ks).noKeys ks).raise 0x0C04 noPort (root + 256 * ks.length)

/-- A replacement takes effect: PENDING becomes ACTIVE. -/
def State.replaceNow (s : State) (k : Nat) : State :=
  let sl := s.keySlot k
  match sl.pend with
  | none => s
  | some h =>
    let s1 := s.setSlot k ⟨1, sl.attr.take 12 ++ h.kcv, h, none⟩
    ((s1.dropWork (s1.lineage k)).count (keyC 1)).raise 0x0C02 noPort (k + 2 ^ 32 * s1.hoopIx)

/-- The key commits of a boundary: destructions act before replacements (R293). One that became pending in the boundary cycle waits for the
boundary after (R51). -/
def State.keyCommits (s : State) : State :=
  let due (st : Nat) (t : State) : List Nat :=
    (t.keys.slots.filter (fun e => (t.keySlot e.1).st = st && !t.askedLate Ask.key e.1)).map (·.1)
  let s1 := (due 4 s).foldl (fun t k => if (t.keySlot k).st = 4 then t.destroyNow k else t) s
  (due 5 s1).foldl State.replaceNow s1

/-- KEY_ZEROISE (R294): an orphan is zeroised within HOOP_BUDGET[3] at 8 cycles, after the MACsec derivations that wait;
its state then reads EMPTY. -/
def State.keyZeroise (s : State) (slot : Nat) (derivesWait : Bool) : State :=
  if (s.keySlot slot).st ≠ 2 ∧ (s.keySlot slot).st ≠ 3 then s
  else if derivesWait then s
  else s.item 3 8 (fun t => ({ t with keys := { t.keys with slots := serase t.keys.slots slot } } : State).count (keyC 3))

/-! ## The firmware service (R299) -/

/-- The fields of a service descriptor. -/
structure SvcDesc where
  op     : Nat
  slot   : Nat
  label  : Bytes
  labOk  : Bool
  outLen : Nat
  src    : Nat
  srcLen : Nat
  aad    : Nat
  aadLen : Nat
  dst    : Nat
  nonce  : Bytes
  tag    : Bytes
  deriving DecidableEq, Repr

/-- Reads a service descriptor. -/
def State.svcDesc (s : State) (a : Nat) : SvcDesc :=
  ⟨s.memLe a 1, s.memLe (a + 1) 1, s.mem (a + 64) (Nat.min (s.memLe (a + 2) 1) 64), s.memLe (a + 2) 1 ≤ 64,
   s.memLe (a + 3) 1 % 64 + 1, s.memLe (a + 8) 4, s.memLe (a + 12) 4, s.memLe (a + 16) 4, s.memLe (a + 20) 4,
   s.memLe (a + 24) 4, s.mem (a + 32) 12, s.mem (a + 48) 16⟩

/-- Whether the lengths of a descriptor are within their ranges, and its addresses inside management memory. -/
def SvcDesc.lensOk (d : SvcDesc) : Bool := d.labOk && d.srcLen ≤ 65536 && d.aadLen ≤ 65536
def State.svcAddrOk (s : State) (d : SvcDesc) : Bool :=
  s.inMgmt d.src d.srcLen && (d.op = 3 || d.op = 4 || s.inMgmt d.aad d.aadLen)
    && s.inMgmt d.dst (if d.op = 3 then d.outLen else if d.op = 4 then 114 else d.srcLen)

/-- The GCM key of a descriptor: an AES-256 slot used directly, or the derivation from a KMAC root (R299). -/
def State.gcmKey (s : State) (d : SvcDesc) : Option Bytes × State :=
  if ksType (s.keySlot d.slot).attr = 2 then s.workKey d.slot Master.mgmt d.label
  else
    match s.useSlot d.slot Master.mgmt (if d.op = 1 then KeyOp.encrypt else KeyOp.decrypt) (if d.label = [] then [1] else []) with
    | (none, s1) => (none, s1)
    | (some k, s1) => (some k.act.mat, s1)

/-- What an operation reports and writes: status, output bytes, tag to write; and the state after its key use. -/
def State.svcRun (s : State) (d : SvcDesc) : (Nat × Bytes × Bytes) × State :=
  if ¬ d.lensOk then ((2, [], []), s)
  else if ¬ s.svcAddrOk d then ((4, [], []), s)
  else
    let src := s.mem d.src d.srcLen
    let aad := s.mem d.aad d.aadLen
    if d.op = 1 ∨ d.op = 2 then
      match s.gcmKey d with
      | (none, s1) => ((2, [], []), s1)
      | (some k, s1) =>
        if s1.pairBad 3 then ((5, [], []), s1.cipherFault 3 noPort 0)
        else if d.op = 1 then
          let ct := gcmCrypt k d.nonce src
          ((1, ct, gcmTag k d.nonce aad ct), s1)
        else if gcmTag k d.nonce aad src = d.tag then ((1, gcmCrypt k d.nonce src, []), s1)
        else ((3, [], []), s1)
    else if d.op = 3 then
      match s.useSlot d.slot Master.mgmt KeyOp.mac [2] with
      | (none, s1) => ((2, [], []), s1)
      | (some k, s1) => ((1, kmac256 k.act.mat src d.outLen d.label, []), s1)
    else if d.op = 4 then
      match s.useSlot d.slot Master.mgmt KeyOp.verify [4] with
      | (none, s1) => ((2, [], []), s1)
      | (some k, s1) => ((if Ed.verify k.act.pub src d.label (s1.mem d.dst 114) then 1 else 3, [], []), s1)
    else ((2, [], []), s)

/-- KEY_SVC_CMD.GO with the descriptor at KEY_SVC_ADDR: the operation starts, or the write is refused while one runs. -/
def State.svcGo (s : State) : State :=
  if s.keys.svc.isSome then s.ignored Rg.KEY_SVC_CMD.addr 1
  else
    let a := 128 * s.fd Rg.KEY_SVC_ADDR Fl.KEY_SVC_ADDR_ADDR
    let d := s.svcDesc a
    let r := s.svcRun d
    let s1 : State := { r.2 with keys := { r.2.keys with svc := some ⟨a, r.1.1, d.dst, r.1.2.1, r.1.2.2, d.op = 4⟩ } }
    (s1.sf Rg.KEY_SVC_STATUS Fl.KEY_SVC_STATUS_BUSY 1).edPick

/-- The same, for a descriptor whose OP is `op`. -/
def State.svcGoOp (s : State) (op : Nat) : State :=
  if s.memLe (128 * s.fd Rg.KEY_SVC_ADDR Fl.KEY_SVC_ADDR_ADDR) 1 = op then s.svcGo else s

/-- SVC_GCM_ENCRYPT, SVC_GCM_DECRYPT, SVC_KMAC and SVC_ED448_VERIFY (R299): GO is written with the row's OP. -/
def execSvcGcmEncrypt (s : State) : Host.Outcome State Fault Refusal := .next (s.fw (·.svcGoOp 1))
def execSvcGcmDecrypt (s : State) : Host.Outcome State Fault Refusal := .next (s.fw (·.svcGoOp 2))
def execSvcKmac (s : State) : Host.Outcome State Fault Refusal := .next (s.fw (·.svcGoOp 3))
def execSvcEd448Verify (s : State) : Host.Outcome State Fault Refusal := .next (s.fw (·.svcGoOp 4))

/-- SVC_DONE (R299): status and output are written, DONE sets, BUSY clears, SVC_OPS counts. A verification ends only once the Ed448 engine
has taken it (R296). -/
def State.svcDone (s : State) : State :=
  match s.keys.svc with
  | none => s
  | some j =>
    if j.signs ∧ ¬ s.edServes .service then s
    else
    let s1 := ({ s with keys := { s.keys with svc := none } } : State).edPick
    let s2 := if s1.inMgmt j.desc 128 then (s1.setMem (j.desc + 4) [BitVec.ofNat 8 j.status]).setMem (j.desc + 48) j.tag else s1
    let s3 := (s2.setMem j.dest j.out).count (keyC 7)
    (s3.setBit Rg.KEY_SVC_STATUS Fl.KEY_SVC_STATUS_DONE.lo).sf Rg.KEY_SVC_STATUS Fl.KEY_SVC_STATUS_BUSY 0

def execSvcDone (s : State) : Host.Outcome State Fault Refusal := .next s.svcDone

/-! ## Attestation (R295) -/

/-- The 232-byte attestation message. -/
def State.attestMsg (s : State) (nonce : Bytes) : Bytes :=
  slice nonce 0 32 ++ s.rdBytes (Rg.IMG_DIGEST 0) 16 ++ s.rdBytes (Rg.IMG_DIGEST 1) 16 ++ s.rdBytes (Rg.IMG_DIGEST 2) 16
    ++ beBytes 2 s.node ++ beBytes 4 s.hoopIx ++ beBytes 1 s.lifecycle ++ [0]

/-- The tag and, with ATTEST_SIGN, the signature of an attestation; `none` where a use is refused. -/
def State.attest (s : State) (nonce : Bytes) : Option (Bytes × Option Bytes) × State :=
  let m := s.attestMsg nonce
  match s.useSlot (s.fd Rg.KEY_CFG Fl.KEY_CFG_ATTEST_SLOT) Master.attest KeyOp.mac [2] with
  | (none, s1) => (none, s1)
  | (some k, s1) =>
    let tag := kmac256 k.act.mat m 32 (ascii "KD48-ATTEST")
    if ¬ s1.flag Rg.KEY_CFG Fl.KEY_CFG_ATTEST_SIGN then (some (tag, none), s1)
    else
      match s1.useSlot 0 Master.attest KeyOp.sign [3] with
      | (none, s2) => (none, s2)
      | (some i, s2) => (some (tag, some (Ed.sign i.act.mat m (ascii "KD48-ATTEST"))), s2)

end Sys2Proof.Machine
end

