-- ==== Sys2Proof/Machine/Macsec.lean ====
section
/-! DEFINITION. MACsec on ports 0 to 23 (R297, R298, R300 to R304): epochs and keys, protection and validation of frames. -/

namespace Sys2Proof.Machine

/-! ## Configuration of a port -/

def State.msecOn (s : State) (p : Nat) : Bool := isEth p && s.flag (Rg.KEY_MSEC_CFG p) Fl.KEY_MSEC_CFG_ENABLE
def State.msecXpn (s : State) (p : Nat) : Bool := s.flag (Rg.KEY_MSEC_CFG p) Fl.KEY_MSEC_CFG_SUITE
def State.msecConf (s : State) (p : Nat) : Bool := s.flag (Rg.KEY_MSEC_CFG p) Fl.KEY_MSEC_CFG_CONF
def State.msecCheckMode (s : State) (p : Nat) : Bool := s.flag (Rg.KEY_MSEC_CFG p) Fl.KEY_MSEC_CFG_VALIDATE
def State.msecOos (s : State) (p : Nat) : Bool := s.msecOn p && s.bit Rg.CIPH_STATUS p
def State.msecP (s : State) (p : Nat) : Msec := sget s.keys.msec p msecInit
def State.setMsecP (s : State) (p : Nat) (m : Msec) : State :=
  { s with keys := { s.keys with msec := sset s.keys.msec p msecInit m } }
def State.peerNode (s : State) (p : Nat) : Nat := s.fd (Rg.KEY_MSEC_PEER p) Fl.KEY_MSEC_PEER_NODE
def State.peerPort (s : State) (p : Nat) : Nat := s.fd (Rg.KEY_MSEC_PEER p) Fl.KEY_MSEC_PEER_PORT

/-- The checked pair that serves a port (R297). -/
def pairOf (p : Nat) : Nat := if p < 2 then 0 else if p < 4 then 1 else if p < 14 then 2 else 3

/-! ## Epochs and keys (R301, R302) -/

/-- N, the epoch length in repeats, and the hoops of an epoch. -/
def State.epochReps (s : State) (p : Nat) : Nat := s.fd (Rg.KEY_MSEC_CFG p) Fl.KEY_MSEC_CFG_ROT_M2 + 2
def State.epochHoops (s : State) (p : Nat) : Nat := s.repeatLen * s.epochReps p

/-- The epoch of a full hoop count on a port. -/
def State.epochAt (s : State) (p count : Nat) : Nat := count / s.repeatLen / s.epochReps p % 2 ^ 32

/-- The context label of a MACsec key (R301). -/
def msecLabel (txNode txPort rxNode rxPort epoch : Nat) : Bytes :=
  ascii "MACSEC" ++ beBytes 2 txNode ++ beBytes 1 txPort ++ beBytes 2 rxNode ++ beBytes 1 rxPort ++ beBytes 1 (epoch % 4)
    ++ beBytes 4 epoch

/-- SSCI of the transmitting end (R300): 1 for the end whose (node, port) is the lower, 2 for the other. -/
def ssci (txNode txPort rxNode rxPort : Nat) : Nat := if txNode * 256 + txPort < rxNode * 256 + rxPort then 1 else 2

/-- Derives the SA of an epoch on a port, for transmit or for receive; `none` where the root's use is refused. -/
def State.deriveSa (s : State) (p epoch : Nat) (tx : Bool) : Option Sa × State :=
  match s.useSlot (s.fd (Rg.KEY_MSEC_CFG p) Fl.KEY_MSEC_CFG_ROOT_SLOT) Master.macsec KeyOp.derive [2] with
  | (none, s1) => (none, s1.sf (Rg.KEY_MSEC_STATUS p) Fl.KEY_MSEC_STATUS_NO_KEY 1)
  | (some k, s1) =>
    let label := if tx then msecLabel s.node p (s.peerNode p) (s.peerPort p) epoch
      else msecLabel (s.peerNode p) (s.peerPort p) s.node p epoch
    let m := kdf k.act.mat label (if s.msecXpn p then 44 else 32)
    (some ⟨epoch, m.take 32, m.drop 32, 1, 1⟩, s1.sf (Rg.KEY_MSEC_STATUS p) Fl.KEY_MSEC_STATUS_NO_KEY 0)

/-- What a port still needs of the current epoch `e` and of the next: (transmit?, epoch), in the order of derivation. -/
def State.msecNeeds (s : State) (p e : Nat) : List (Bool × Nat) :=
  let m := s.msecP p
  let n := (e + 1) % 2 ^ 32
  let has (o : Option Sa) (x : Nat) : Bool := o.any (fun a => a.epoch = x)
  let hasRx (x : Nat) : Bool := m.rx.any (fun a => a.epoch = x)
  (if has m.tx e then [] else [(true, e)]) ++ (if hasRx e then [] else [(false, e)])
    ++ (if has m.txNext n then [] else [(true, n)]) ++ (if hasRx n then [] else [(false, n)])

/-- Derives one needed SA and installs it. -/
def State.msecInstall (s : State) (p e : Nat) (need : Bool × Nat) : State :=
  match s.deriveSa p need.2 need.1 with
  | (none, s1) => s1
  | (some a, s1) =>
    let m := s1.msecP p
    if need.1 then (if need.2 = e then s1.setMsecP p { m with tx := some a } else s1.setMsecP p { m with txNext := some a })
    else s1.setMsecP p { m with rx := m.rx ++ [a] }

/-- Shows the transmit AN and the epoch. -/
def State.msecShow (s : State) (p e : Nat) : State :=
  (s.sf (Rg.KEY_MSEC_STATUS p) Fl.KEY_MSEC_STATUS_TX_AN (e % 4)).sf (Rg.KEY_MSEC_STATUS p) Fl.KEY_MSEC_STATUS_EPOCH (e % 2 ^ 24)

/-- The ports with MACsec enabled. -/
def State.msecPorts (s : State) : List Nat := (List.range 24).filter s.msecOn

/-- The keys a port needs before the first boundary of forwarding (R302): those of e and e + 1, and the receive key of
e − 1 when that boundary, of full hoop count `count`, falls within the first hoop of epoch e. -/
def State.msecStartPort (count : Nat) (s : State) (p : Nat) : State :=
  let e := s.epochAt p count
  let s1 := (s.msecNeeds p e).foldl (fun t n => t.msecInstall p e n) s
  let s2 := if count % s.epochHoops p = 0 then s1.msecInstall p e (false, (e + 2 ^ 32 - 1) % 2 ^ 32) else s1
  s2.msecShow p e

def State.msecStart (s : State) (count : Nat) : State := s.msecPorts.foldl (State.msecStartPort count) s

/-- A boundary of full hoop count `count` on a MACsec port: the transmit SA of a new epoch comes into use, and receive SAs
of epochs no longer held are dropped (R302). -/
def State.msecBoundaryPort (count : Nat) (s : State) (p : Nat) : State :=
  let e := s.epochAt p count
  let m := s.msecP p
  let tx := if m.tx.any (fun a => a.epoch = e) then m.tx else if m.txNext.any (fun a => a.epoch = e) then m.txNext else none
  let next := if m.txNext.any (fun a => a.epoch = (e + 1) % 2 ^ 32) then m.txNext else none
  let keep (a : Sa) : Bool :=
    a.epoch = e || a.epoch = (e + 1) % 2 ^ 32 || (count % s.epochHoops p = 0 && (a.epoch + 1) % 2 ^ 32 = e)
  (s.setMsecP p { m with tx := tx, txNext := next, rx := m.rx.filter keep, faults := 0 }).msecShow p e

def State.msecBoundary (s : State) (count : Nat) : State := s.msecPorts.foldl (State.msecBoundaryPort count) s

/-- Whether the use of a port's root is refused (R290). -/
def State.rootRefused (s : State) (p : Nat) : Bool :=
  s.useCause (s.fd (Rg.KEY_MSEC_CFG p) Fl.KEY_MSEC_CFG_ROOT_SLOT) Master.macsec KeyOp.derive [2] ≠ 0

/-- Whether a port's derivations still wait; those of a port whose root is refused cannot be made. -/
def State.derivesWait (s : State) : Bool :=
  s.msecPorts.any (fun p => !s.rootRefused p && !(s.msecNeeds p (s.epochAt p s.hoopCount)).isEmpty)

/-- MACSEC_KEY_DERIVE (R294, R302): the next working key a port needs is derived, at 120 cycles of HOOP_BUDGET[3]. A refused root is
reported, and costs nothing. -/
def State.macsecKeyDerive (s : State) (p : Nat) : State :=
  if ¬ s.forwarding ∨ ¬ s.msecOn p then s
  else
    let e := s.epochAt p s.hoopCount
    match s.msecNeeds p e with
    | [] => s
    | n :: _ => if s.rootRefused p then s.msecInstall p e n else s.item 3 120 (fun t => t.msecInstall p e n)

def execMacsecKeyDerive (p : Fin 24) (s : State) : Host.Outcome State Fault Refusal := .next (s.macsecKeyDerive p.val)

/-- KEY_ZEROISE (R294). -/
def execKeyZeroise (slot : Fin 256) (s : State) : Host.Outcome State Fault Refusal :=
  .next (s.keyZeroise slot.val s.derivesWait)

/-! ## Cipher faults (R298) -/

/-- A mismatch of a port's pair: counted and raised; the third of a hoop on the port takes its secure channel out of
service. -/
def State.portCipherFault (s : State) (p : Nat) : State :=
  let n := (s.msecP p).faults + 1
  let s1 := (s.setMsecP p { s.msecP p with faults := n }).cipherFault (pairOf p) p n
  if n = 3 then
    (((s1.setBit Rg.CIPH_STATUS p).sf (Rg.KEY_MSEC_STATUS p) Fl.KEY_MSEC_STATUS_OOS 1).setMsecP p { s1.msecP p with faults := n }).raise 0x0C06 p 0
  else s1

/-! ## Frames -/

/-- The 12-byte GCM nonce of a frame (R300): SCI and PN, or the salt XORed with SSCI and the 64-bit PN. -/
def msecNonce (xpn : Bool) (sci ss pn : Nat) (salt : Bytes) : Bytes :=
  if xpn then xorBytes salt (beBytes 4 ss ++ beBytes 8 pn) else beBytes 8 sci ++ beBytes 4 pn

/-- Bytes MACsec adds to a frame of a port: SecTAG and ICV. -/
def State.msecExtra (s : State) (p : Nat) : Nat :=
  if s.msecOn p then (if s.flag (Rg.KEY_MSEC_CFG p) Fl.KEY_MSEC_CFG_SCI_TX then 32 else 24) else 0

/-- A frame (destination address to end of payload) with its SecTAG and ICV. -/
def State.msecBuild (s : State) (p : Nat) (a : Sa) (d : Bytes) : Bytes :=
  let conf := s.msecConf p
  let sc := s.flag (Rg.KEY_MSEC_CFG p) Fl.KEY_MSEC_CFG_SCI_TX
  let sci := s.rd64 (Rg.KEY_MSEC_SCI p)
  let data := d.drop 12
  let tci := (if sc then 0x20 else 0) + (if conf then 0x0C else 0) + a.epoch % 4
  let sl := if data.length < 48 then data.length else 0
  let hdr := d.take 12 ++ [0x88, 0xE5] ++ beBytes 1 tci ++ beBytes 1 sl ++ beBytes 4 a.pn ++ (if sc then beBytes 8 sci else [])
  let iv := msecNonce (s.msecXpn p) sci (ssci s.node p (s.peerNode p) (s.peerPort p)) a.pn a.salt
  if conf then
    let ct := gcmCrypt a.key iv data
    hdr ++ ct ++ gcmTag a.key iv hdr ct
  else hdr ++ data ++ gcmTag a.key iv (hdr ++ data) []

/-- What protection makes of a frame to be sent. -/
inductive Protected where
  /-- Sent as these bytes. -/
  | ok (d : Bytes)
  /-- Dropped, and counted. -/
  | drop
  /-- The cipher's checks did not agree: dropped, or stomped if its head has left. -/
  | fault (d : Bytes)

/-- Protects a frame on a MACsec port (R300 to R303). MAC control frames lie below MACsec and go unprotected; a port out of service sends no
frame at all (R298). -/
def State.msecProtect (s : State) (p : Nat) (d : Bytes) : Protected × State :=
  if ¬ s.msecOn p then (.ok d, s)
  else if s.msecOos p then (.drop, s.count (keyC 5))
  else if be d 12 2 = 0x8808 then (.ok d, s)
  else
    match (s.msecP p).tx with
    | none => (.drop, (s.count (keyC 5)))
    | some a =>
      if a.pn ≥ (if s.msecXpn p then 2 ^ 64 else 2 ^ 32) then (.drop, (s.count (keyC 6)).raise 0x0C07 p (a.epoch % 4))
      else
        let s1 := s.setMsecP p { s.msecP p with tx := some { a with pn := a.pn + 1 } }
        if s1.pairBad (pairOf p) then (.fault (s.msecBuild p a d), s1.portCipherFault p)
        else (.ok (s.msecBuild p a d), if s.msecConf p then s1.count (ethC p 47) else s1)

/-- What validation makes of a received frame. -/
inductive Validated where
  /-- Verified, or let through untagged or unknown under Check. -/
  | ok (d : Bytes)
  /-- Dropped, and counted. -/
  | drop
  /-- The ICV failed under Check without confidentiality: forwarded to external destinations only (R304). -/
  | check (d : Bytes)
  /-- The ICV or the cipher check failed: dropped, or stomped where cut-through. -/
  | bad (d : Bytes)

/-- The PN of a received frame: as carried, or recovered to 64 bits from the lowest acceptable PN under XPN. -/
def recoverPn (xpn : Bool) (low pn : Nat) : Nat :=
  if ¬ xpn then pn
  else low / 2 ^ 32 * 2 ^ 32 + pn + (if bitOf low 31 ∧ ¬ bitOf pn 31 then 2 ^ 32 else 0)

/-- The receive SA after a frame of packet number `pn` was accepted: the replay window of 2^WIN_LOG2 − 1 frames. -/
def Sa.accept (a : Sa) (pn win : Nat) : Sa :=
  let next := Nat.max a.pn (pn + 1)
  { a with pn := next, low := Nat.max a.low (next - win) }

/-- Validates a received frame on a MACsec port (R300, R304); the counters are those of IEEE 802.1AE, but for a port with no usable key, which
counts CIPH_DROP (R290). -/
def State.msecValidate (s : State) (p : Nat) (d : Bytes) : Validated × State :=
  if ¬ s.msecOn p then (.ok d, s)
  else if s.msecOos p then (.drop, s.count (keyC 5))
  else if be d 12 2 = 0x8808 then (.ok d, s)
  else
    let check := s.msecCheckMode p
    if be d 12 2 ≠ 0x88E5 then
      if check then (.ok d, s.count (ethC p 36)) else (.drop, s.count (ethC p 37))
    else
      let tci := byteAt d 14
      let sl := byteAt d 15
      let sc := bitOf tci 5
      let conf := bitOf tci 3
      let hl := if sc then 28 else 20
      let n := if sl = 0 then d.length - hl - 16 else sl
      let pn0 := be d 16 4
      if bitOf tci 7 ∨ (bitOf tci 6 ∧ sc) ∨ (sc ∧ bitOf tci 4) ∨ bitOf tci 3 ≠ bitOf tci 2 ∨ sl ≥ 48 ∨ (pn0 = 0 ∧ ¬ s.msecXpn p) ∨ d.length < hl + n + 16
          ∨ (sl = 0 ∧ n < 48) then (.drop, s.count (ethC p 38))
      else
        let sci := s.rd64 (Rg.KEY_MSEC_RX_SCI p)
        if sc ∧ be d 20 8 ≠ sci then
          if check ∧ ¬ conf then (.ok (d.take 12 ++ slice d hl n), s.count (ethC p 40)) else (.drop, s.count (ethC p 39))
        else
          match (s.msecP p).rx.find? (fun a => a.epoch % 4 = tci % 4) with
          | none => (.drop, s.count (if s.flag (Rg.KEY_MSEC_STATUS p) Fl.KEY_MSEC_STATUS_NO_KEY then keyC 5 else ethC p 44))
          | some a =>
            let pn := recoverPn (s.msecXpn p) a.low pn0
            if pn < a.low then (.drop, s.count (ethC p 42))
            else
              let hdr := d.take hl
              let body := slice d hl n
              let iv := msecNonce (s.msecXpn p) sci (ssci (s.peerNode p) (s.peerPort p) s.node p) pn a.salt
              let good := if conf then gcmTag a.key iv hdr body = slice d (hl + n) 16
                else gcmTag a.key iv (hdr ++ body) [] = slice d (hl + n) 16
              let plain := d.take 12 ++ (if conf then gcmCrypt a.key iv body else body)
              if s.pairBad (pairOf p) then (.bad plain, s.portCipherFault p)
              else if good then
                let win := 2 ^ s.fd (Rg.KEY_MSEC_CFG p) Fl.KEY_MSEC_CFG_WIN_LOG2 - 1
                let m := s.msecP p
                let rx := m.rx.map (fun b => if b.epoch = a.epoch then b.accept pn win else b)
                (.ok plain, (s.setMsecP p { m with rx := rx }).count (ethC p 41))
              else if check ∧ ¬ conf then (.check plain, s.count (ethC p 43))
              else (.bad plain, s.count (ethC p 44))

end Sys2Proof.Machine
end

