-- ==== Sys2Proof/Machine/Eth.lean ====
section
/-! DEFINITION. Ethernet ports 0 to 23 (R81 to R104): link state, reception, steering, pause, MDIO. -/

namespace Sys2Proof.Machine

/-! ## Link state (R85 to R87) -/

def State.ethOn (s : State) (p : Nat) : Bool := s.flag (Rg.ETH_CFG p) Fl.ETH_CFG_ENABLE
def State.linkUp (s : State) (p : Nat) : Bool := s.flag (Rg.ETH_STATUS p) Fl.ETH_STATUS_LINK
def State.adapts (s : State) (p : Nat) : Bool := p < 4 && s.flag (Rg.ETH_SERDES_RX p) Fl.ETH_SERDES_RX_ADAPT

/-- The SerDes and PCS of enabled ports are out of reset from the lock on, through flush and DOZE (R87, R340), and those of the recovery
port in safe hold (R80), in which no other port is enabled. -/
def State.serdesOn (s : State) : Bool :=
  match s.pwr.phase with
  | .run | .flush | .doze | .dozeExit | .safeHold => true
  | _ => false

/-- CTLE and DFE are loaded from ETH_SERDES_RX (R84, R85). -/
def State.presets (s : State) (p : Nat) : State :=
  s.setEthP p { s.ethP p with
    ctle := s.fd (Rg.ETH_SERDES_RX p) Fl.ETH_SERDES_RX_CTLE
    dfe1 := s.fd (Rg.ETH_SERDES_RX p) Fl.ETH_SERDES_RX_DFE1 }

/-- SIGNAL_DETECT (R85): presets load, and adaptation starts where it is enabled; nothing is locked yet. -/
def State.signalDetect (s : State) (p : Nat) : State :=
  if ¬ s.serdesOn ∨ ¬ s.ethOn p ∨ s.linkUp p ∨ (s.ethP p).signalAt.isSome then s
  else
    let ad := s.adapts p
    ((s.setEthP p { s.ethP p with
      signalAt := some s.raw
      adapting := ad
      adapted := false
      retries := 0
      lockAt := none }).presets p).wr (Rg.ETH_STATUS p) (16 * b2n ad)

def execSignalDetect (lapse : Nat) (p : Fin 24) (s : State) : Host.Outcome State Fault Refusal :=
  .next ((s.advance lapse).signalDetect p.val)

/-- ADAPT_FREEZE (R85): 8.0 ms after adaptation started the coefficients freeze into ETH_ADAPT_RESULT. -/
def State.adaptFreeze (s : State) (p ctle dfe1 : Nat) : State :=
  match (s.ethP p).signalAt with
  | none => s
  | some t =>
    if ¬ (s.ethP p).adapting then s
    else
      let s1 := s.advanceRaw (t + ms 8)
      let s2 := (s1.setEthP p { s1.ethP p with ctle := ctle, dfe1 := dfe1, adapting := false, adapted := true }).sf (Rg.ETH_STATUS p) Fl.ETH_STATUS_ADAPTING 0
      let s3 := (s2.sf (Rg.ETH_ADAPT_RESULT p) Fl.ETH_ADAPT_RESULT_CTLE ctle).sf (Rg.ETH_ADAPT_RESULT p) Fl.ETH_ADAPT_RESULT_DFE1 dfe1
      s3.sf (Rg.ETH_ADAPT_RESULT p) Fl.ETH_ADAPT_RESULT_RUNS (s3.fd (Rg.ETH_ADAPT_RESULT p) Fl.ETH_ADAPT_RESULT_RUNS + 1)

def execAdaptFreeze (p : Fin 24) (ctle : BitVec 5) (dfe1 : BitVec 6) (s : State) : Host.Outcome State Fault Refusal :=
  .next (s.adaptFreeze p.val ctle.toNat dfe1.toNat)

/-- ADAPT_RETRY (R85): no lock 10 ms after the signal: presets reload and adaptation restarts. -/
def State.adaptRetry (s : State) (p : Nat) : State :=
  match (s.ethP p).signalAt with
  | none => s
  | some t =>
    if ¬ s.adapts p ∨ (s.ethP p).lockAt.isSome then s
    else
      let s1 := (s.advanceRaw (t + ms 10)).presets p
      let n := (s1.ethP p).retries + 1
      ((s1.setEthP p { s1.ethP p with signalAt := some s1.raw, adapting := true, adapted := false, retries := n }).sf
        (Rg.ETH_STATUS p) Fl.ETH_STATUS_ADAPTING 1).raise 0x0406 p (n % 256)

def execAdaptRetry (p : Fin 24) (s : State) : Host.Outcome State Fault Refusal := .next (s.adaptRetry p.val)

/-- PCS_LOCK_ACQUIRED (R85): block lock, with alignment-marker lock under RS-FEC, or code-group synchronisation. The two ends of a link
must use the same FEC, or it does not come up (R83). -/
def State.pcsLock (s : State) (p fec : Nat) : State :=
  if (s.ethP p).signalAt.isNone ∨ (s.ethP p).lockAt.isSome ∨ fec ≠ s.fd (Rg.ETH_CFG p) Fl.ETH_CFG_FEC then s
  else
    let s1 := s.setEthP p { s.ethP p with lockAt := some s.raw }
    let s2 := (s1.sf (Rg.ETH_STATUS p) Fl.ETH_STATUS_PCS_LOCK 1).sf (Rg.ETH_STATUS p) Fl.ETH_STATUS_HI_BER 0
    s2.sf (Rg.ETH_STATUS p) Fl.ETH_STATUS_AM_LOCK (b2n (s.fd (Rg.ETH_CFG p) Fl.ETH_CFG_FEC = 2))

def execPcsLockAcquired (lapse : Nat) (x : PcsLock) (s : State) : Host.Outcome State Fault Refusal :=
  .next ((s.advance lapse).pcsLock x.p.val x.fec.toNat)

/-- ETH_LINK_UP (R85): lock held for 1.0 ms without hi_ber. DESIGN CHOICE (log 133): while adaptation runs the link does not come up, though
lock may have been held for 1.0 ms by then. -/
def State.ethLinkUp (s : State) (p : Nat) : State :=
  match (s.ethP p).lockAt with
  | none => s
  | some t =>
    if s.linkUp p ∨ (s.ethP p).adapting ∨ s.flag (Rg.ETH_STATUS p) Fl.ETH_STATUS_HI_BER then s
    else
      let s1 := (s.advanceRaw (t + ms 1)).sf (Rg.ETH_STATUS p) Fl.ETH_STATUS_LINK 1
      (s1.setBit (Rg.ETH_INT_STATUS p) 0).raise 0x0401 p (s1.rd (Rg.ETH_ADAPT_RESULT p) % 65536)

def execEthLinkUp (p : Fin 24) (s : State) : Host.Outcome State Fault Refusal := .next (s.ethLinkUp p.val)

def linkCauseCode : LinkCause → Nat
  | .lockLost => 0
  | .hiBer => 1
  | .markerLost => 2
  | .syncLost => 3

/-- Whether a port has what a cause of a link's loss speaks of: block lock and hi_ber are those of a trunk port, markers those of RS-FEC,
synchronisation that of an edge port (R86). -/
def State.causeFits (s : State) (p : Nat) (c : LinkCause) : Bool :=
  match c with
  | .lockLost | .hiBer => p < 4
  | .markerLost => p < 4 && decide (s.fd (Rg.ETH_CFG p) Fl.ETH_CFG_FEC = 2)
  | .syncLost => 4 ≤ p

/-- What a cause leaves of PCS_LOCK, AM_LOCK and HI_BER. DESIGN CHOICE (log 133): hi_ber leaves both locks, the loss of the markers leaves
block lock. -/
def lockLeft (c : LinkCause) (v : Nat) : Nat :=
  match c with
  | .lockLost | .syncLost => 0
  | .hiBer => (v &&& 10) + 4
  | .markerLost => v &&& 2

/-- ETH_LINK_DOWN (R86): a link that was up goes down at once; the frame in transmission is abandoned. DESIGN CHOICE (log 133): the link
waits for a new SIGNAL_DETECT. Lock lost before the link is up leaves the signal and its adaptation as they are (R85). -/
def State.ethLinkDown (s : State) (p : Nat) (c : LinkCause) : State :=
  let v := s.rd (Rg.ETH_STATUS p)
  if ¬ s.linkUp p then (s.setEthP p { s.ethP p with lockAt := none }).wr (Rg.ETH_STATUS p) (lockLeft c v + (v &&& 16))
  else
    let s1 := s.setEthP p { s.ethP p with signalAt := none, adapting := false, adapted := false, lockAt := none }
    let s2 := s1.wr (Rg.ETH_STATUS p) (lockLeft c v)
    let s3 := { s2 with sending := s2.sending.filter (fun x => x.port ≠ p) }
    ((s3.incr (Rg.ETH_LINK_DOWNS p)).setBit (Rg.ETH_INT_STATUS p) 0).raise 0x0402 p (linkCauseCode c)

/-! ## PAUSE and PFC (R101 to R103) -/

/-- The key of a pause timer: class n, or 8 for the whole port. -/
def pauseKey (cls : Option (Fin 8)) : Nat :=
  match cls with
  | none => 8
  | some c => c.val

/-- Whether the timer of key `k` runs, and whether pause is ignored on it. -/
def State.pauseRuns (s : State) (p k : Nat) : Bool := sget (s.ethP p).pauseEnd k 0 > s.raw
def State.pauseIgnored (s : State) (p k : Nat) : Bool := sget (s.ethP p).ignLeft k 0 > 0

/-- Whether the pause of key `k` acts: not in the cycle of the FCS check that began it (R102), nor while pause is ignored (R103). -/
def State.pauseActs (s : State) (p k : Nat) : Bool :=
  s.pauseRuns p k && !s.pauseIgnored p k && sget (s.ethP p).pauseSet k 0 != s.raw

/-- Whether class `c` of port `p` may not start a frame for a pause (R102, R103). -/
def State.paused (s : State) (p c : Nat) : Bool := isEth p && (s.pauseActs p c || s.pauseActs p 8)

/-- Pause time of `q` quanta of 512 bit times at the port rate, in ns, rounded up. -/
def State.pauseNs (s : State) (p q : Nat) : Nat := cdiv (q * 512 * 1000000000) (s.portRate p)

/-- A pause time for key `k`: it replaces the running time, and 0 ends the pause (R101). A pause that had run out before lost its count
(R103). -/
def State.setPause (s : State) (p k quanta : Nat) : State :=
  let e := s.ethP p
  if quanta = 0 then
    s.setEthP p { e with pauseEnd := serase e.pauseEnd k, pauseFrom := serase e.pauseFrom k, wdogCnt := serase e.wdogCnt k }
  else
    let on := s.pauseRuns p k
    s.setEthP p { e with
      pauseEnd := sset e.pauseEnd k 0 (s.raw + s.pauseNs p quanta)
      pauseFrom := sset (serase e.pauseFrom k) k 0 (if on then sget e.pauseFrom k s.raw else s.raw)
      pauseSet := if on then e.pauseSet else sset e.pauseSet k 0 s.raw
      wdogCnt := if on then e.wdogCnt else serase e.wdogCnt k }

/-- A received MAC control frame (R95, R101): counted, and obeyed where ETH_FC_CFG enables it. -/
def State.macControl (s : State) (p : Nat) (d : Bytes) : State :=
  let op := be d 14 2
  if op = 0x0001 then
    let s1 := s.count (ethC p 12)
    if s1.flag (Rg.ETH_FC_CFG p) Fl.ETH_FC_CFG_PAUSE_EN then s1.setPause p 8 (be d 16 2) else s1
  else if op = 0x0101 then
    let s1 := s.count (ethC p 13)
    (List.range 8).foldl (fun t n =>
      if bitOf (be d 16 2) n ∧ t.bit (Rg.ETH_FC_CFG p) (8 + n) then t.setPause p n (be d (18 + 2 * n) 2) else t) s1
  else s

/-- One boundary on the pause watchdog of a port (R103): `from_` is TIME_RAW at the boundary before. A timer paused
throughout the hoop just ended counts a step; one that stopped loses its count; a period of ignoring runs down. -/
def State.pauseBoundary (from_ : Nat) (s : State) (p : Nat) : State :=
  (List.range 9).foldl (fun t k =>
    let e := t.ethP p
    let ign := sget e.ignLeft k 0
    if ign > 0 then t.setEthP p { e with ignLeft := sset e.ignLeft k 0 (Nat.max 1 (ign - 1)) }
    else if t.pauseRuns p k then
      if sget e.pauseFrom k t.raw ≤ from_ then t.setEthP p { e with wdogCnt := sset e.wdogCnt k 0 (sget e.wdogCnt k 0 + 1) } else t
    else t.setEthP p { e with wdogCnt := serase e.wdogCnt k }) s

/-- PAUSE_EXPIRY (R101): the timer runs out. -/
def State.pauseExpiry (s : State) (p k : Nat) : State :=
  let e := s.ethP p
  if sget e.pauseEnd k 0 = 0 then s
  else
    let s1 := s.advanceRaw (sget e.pauseEnd k 0)
    s1.setEthP p { s1.ethP p with pauseEnd := serase e.pauseEnd k, pauseFrom := serase e.pauseFrom k, wdogCnt := serase e.wdogCnt k }

def execPauseExpiry (p : Fin 24) (cls : Option (Fin 8)) (s : State) : Host.Outcome State Fault Refusal :=
  .next (s.pauseExpiry p.val (pauseKey cls))

/-- PAUSE_WDOG_TRIP (R103): the count has reached ETH_PAUSE_WDOG; pause is ignored for that many hoops. -/
def State.pauseWdogTrip (s : State) (p k : Nat) : State :=
  let w := s.fd (Rg.ETH_PAUSE_WDOG p) Fl.ETH_PAUSE_WDOG_HOOPS
  let e := s.ethP p
  if w = 0 ∨ sget e.wdogCnt k 0 < w ∨ s.pauseIgnored p k then s
  else
    let s1 := s.setEthP p { e with ignLeft := sset e.ignLeft k 0 (w + 1), wdogCnt := serase e.wdogCnt k }
    ((s1.count (ethC p 35)).setBit (Rg.ETH_INT_STATUS p) 4).raise 0x0404 p (if k = 8 then 8 else k)

def execPauseWdogTrip (p : Fin 24) (cls : Option (Fin 8)) (s : State) : Host.Outcome State Fault Refusal :=
  .next (s.pauseWdogTrip p.val (pauseKey cls))

/-- PAUSE_IGNORE_END (R103): the period has run down; the timer state applies again and a new count begins. -/
def State.pauseIgnoreEnd (s : State) (p k : Nat) : State :=
  let e := s.ethP p
  if sget e.ignLeft k 0 ≠ 1 then s
  else
    let s1 := s.setEthP p { e with ignLeft := serase e.ignLeft k, wdogCnt := serase e.wdogCnt k }
    if s1.pauseRuns p k then s1.setEthP p { s1.ethP p with pauseFrom := sset (serase e.pauseFrom k) k 0 s1.raw } else s1

def execPauseIgnoreEnd (p : Fin 24) (cls : Option (Fin 8)) (s : State) : Host.Outcome State Fault Refusal :=
  .next (s.pauseIgnoreEnd p.val (pauseKey cls))

/-- ETH_FC_STATUS as it reads. -/
def State.fcStatus (s : State) (p : Nat) : Nat :=
  let act (k : Nat) : Nat := b2n (s.pauseRuns p k && !s.pauseIgnored p k)
  let ign (k : Nat) : Nat := b2n (s.pauseIgnored p k)
  act 8 + (List.range 8).foldl (fun a k => a + act k * 2 ^ (8 + k) + ign k * 2 ^ (16 + k)) 0 + ign 8 * 2 ^ 24

/-! ## Steering filters (R93, R94) -/

/-- Whether an EtherType is a VLAN tag's. -/
def isTpid (t : Nat) : Bool := t = 0x8100 || t = 0x88A8 || t = 0x9100

/-- The first EtherType that is no tag's, searched through at most `n` tags from offset `o`; a frame with more compares the
TPID that follows. -/
def firstType (d : Bytes) (o : Nat) : Nat → Nat
  | 0 => be d o 2
  | n + 1 => if isTpid (be d o 2) then firstType d (o + 4) n else be d o 2

/-- Bytes of the VLAN tags of a frame, at most four. -/
def tagBytes (d : Bytes) (o : Nat) : Nat → Nat
  | 0 => 0
  | n + 1 => if isTpid (be d o 2) then 4 + tagBytes d (o + 4) n else 0

/-- Where the Akzor header of a frame starts: after the outer header, at most four tags and the Akzor EtherType, and only
with version 1 (R144, R404). -/
def State.akzorAt (s : State) (d : Bytes) : Option Nat :=
  let t := 12 + tagBytes d 12 4
  if be d t 2 = s.fd Rg.PARSE_AKZOR_CFG Fl.PARSE_AKZOR_CFG_ETYPE ∧ byteAt d (t + 2) / 16 = 1 ∧ t + 18 ≤ d.length then some (t + 2) else none

/-- STOMP_RECEIVED (R191): a frame that ended with a stomped FCS on a port of 0 to 3, whose Akzor header has stomp-propagate
set. -/
def State.stompSeen (s : State) (p : Nat) (stomped : Bool) (d : Bytes) : State :=
  match s.akzorAt d with
  | some o => if p < 4 ∧ stomped ∧ bitOf (byteAt d (o + 1)) 2 then s.count (gndC 6) else s
  | none => s

/-- Whether a frame is tagged, and its outermost tag's TCI (0 when untagged). -/
def isTagged (d : Bytes) : Bool := isTpid (be d 12 2)
def outerTci (d : Bytes) : Nat := if isTagged d then be d 14 2 else 0

/-- Whether steering filter `f` of port `p` matches. -/
def State.steerHit (s : State) (p : Nat) (d : Bytes) (f : Nat) : Bool :=
  let a := s.rd (Rg.ETH_STEER_ACT p f)
  let mode := fieldOf a Fl.ETH_STEER_ACT_TAG_MODE
  let key := outerTci d % 4096 + outerTci d / 8192 * 4096 + firstType d 12 4 * 65536
  fieldOf a Fl.ETH_STEER_ACT_VALID = 1 && (mode = 0 || (mode = 1 && !isTagged d) || (mode = 2 && isTagged d))
    && ((key ^^^ s.rd (Rg.ETH_STEER_MATCH p f)) &&& s.rd (Rg.ETH_STEER_MASK p f)) &&& 0xFFFF7FFF = 0

/-- The class of a frame that no filter matches (R94). -/
def State.defaultClass (s : State) (p : Nat) (d : Bytes) : Nat :=
  if isTagged d then bits (s.rd (Rg.ETH_CLASS_MAP p)) (3 * (outerTci d / 8192)) 3
  else s.fd (Rg.ETH_CLASS_MAP p) Fl.ETH_CLASS_MAP_UNTAGGED_CLASS

/-- A good frame meets the steering filters: early drop, management queue, or the parser with its class. -/
def State.steer (s : State) (p : Nat) (fr : Frame) : State :=
  match (List.range 32).find? (s.steerHit p fr.data) with
  | none => { s with rxQ := s.rxQ ++ [{ fr with cls := s.defaultClass p fr.data }] }
  | some f =>
    let a := s.rd (Rg.ETH_STEER_ACT p f)
    let s1 := if fr.stomp then s else s.incr (Rg.ETH_STEER_HITS p f)
    let cls := fieldOf a Fl.ETH_STEER_ACT_CLASS
    match fieldOf a Fl.ETH_STEER_ACT_ACTION with
    | 1 => s1
    | 2 =>
      if fr.stomp ∨ fr.msecBad then s1
      else s1.toAdmission { fr with cls := cls, goDest := 48, reason := 2, filter := f, mq := fieldOf a Fl.ETH_STEER_ACT_MQ }
    | _ => { s1 with rxQ := s1.rxQ ++ [{ fr with cls := cls }] }

/-! ## Reception (R17, R42, R90 to R96, R304) -/

/-- The counter of the length bin of a frame of `n` bytes, beside the first bin. -/
def lengthBin (n : Nat) : Nat :=
  if n ≤ 64 then 0 else if n ≤ 127 then 1 else if n ≤ 255 then 2 else if n ≤ 511 then 3 else if n ≤ 1023 then 4
  else if n ≤ 1518 then 5 else 6

/-- The address-type counter of a frame, beside the unicast one: 0 unicast, 1 multicast, 2 broadcast. -/
def addrKind (d : Bytes) : Nat := if be d 0 6 = 0xFFFFFFFFFFFF then 2 else if bitOf (byteAt d 0) 0 then 1 else 0

/-- Counts a good received frame of `n` bytes, FCS included. -/
def State.rxGood (s : State) (p : Nat) (d : Bytes) (n : Nat) : State :=
  (((s.count (ethC p 0) n).count (ethC p 1)).count (ethC p (2 + addrKind d))).count (ethC p (5 + lengthBin n))

/-- The counter of a bad frame (R91), or none for a good one: length first, then symbol errors, then the FCS. -/
def badCounter (n maxFrame : Nat) (rx : RxFrame) : Option Nat :=
  if n ≤ 63 then some 15
  else if n ≥ 16384 then some 17
  else if n > maxFrame then some 16
  else if rx.symErr then some 18
  else if rx.fcs ≠ .good then some 14
  else none

/-- The frame as the parser meets it: timestamps (R17, R41, R42), hoop and trust of its ingress timestamp. -/
def State.arrive (s : State) (p : Nat) (d : Bytes) (n : Nat) : Frame :=
  let ts := s.lt + signed 32 (s.rd (Rg.TIME_CAL_RX p))
  { data := d, src := p, ts := ts, sof := ts - ((n * 8 * 1000000000 * 65536 / s.portRate p : Nat) : Int),
    tsHoop := s.hoopOf (ts / 65536), tsTrust := s.trustAt (ts / 65536), rxAt := s.raw }

/-- A bad frame of `n` bytes, of which `d` is held, is counted under `c` and goes on only as a cut-through candidate whose copies end
stomped (R90); `cut` says that its reception was cut, so that `d` does not end before an FCS. -/
def State.ethBad (s : State) (p c n : Nat) (d : Bytes) (cut stomped : Bool) : State :=
  let s1 := s.count (ethC p c)
  let on (pl : Bytes) : State :=
    let s2 := s1.stompSeen p stomped pl
    if d.length < 60 ∨ be d 12 2 = 0x8808 then s2 else s2.steer p { s2.arrive p pl n with stomp := true, cut := cut }
  match (s1.msecValidate p d).1 with
  | .ok pl => on pl
  | .check pl => on pl
  | .bad pl => on pl
  | .drop => s1

/-- The FCS of a frame as it came: free bytes where it was neither good nor stomped. -/
def State.wireFcs (s : State) (rx : RxFrame) : Bytes × State :=
  match rx.fcs with
  | .good => (fcsOf rx.data false, s)
  | .stomped => (fcsOf rx.data true, s)
  | .bad => s.freeBytes 4

/-- A frame ends on port `p` while the datapath takes frames: a bad one is counted; a good one passes MAC control, MACsec and the steering
filters. Reception of an oversize frame is cut at its byte MAX_FRAME + 1, which may lie in its FCS (R90). -/
def State.ethTake (s : State) (p : Nat) (rx : RxFrame) : State :=
  let n := rx.data.length + 4
  let mx := s.maxFrame p
  match badCounter n mx rx with
  | some c =>
    if n > mx then
      let w := s.wireFcs rx
      w.2.ethBad p c n ((rx.data ++ w.1).take (mx + 1)) true (rx.fcs = .stomped)
    else s.ethBad p c n rx.data false (rx.fcs = .stomped)
  | none =>
    let s1 := (s.rxGood p rx.data n).notQuiet
    if be rx.data 12 2 = 0x8808 ∧ ¬ s1.msecOos p then s1.macControl p rx.data
    else
      match s1.msecValidate p rx.data with
      | (.ok d, s2) => s2.steer p (s2.arrive p d n)
      | (.check d, s2) => s2.steer p { s2.arrive p d n with msecBad := true }
      | (.bad d, s2) => s2.steer p { s2.arrive p d n with stomp := true }
      | (.drop, s2) => s2

/-- The codewords of a port with FEC are counted (R83). -/
def State.fecCount (s : State) (p : Nat) (rx : RxFrame) : State :=
  if s.fd (Rg.ETH_CFG p) Fl.ETH_CFG_FEC = 0 then s
  else (s.incr (Rg.ETH_FEC_CORR p) rx.corr).incr (Rg.ETH_FEC_UNCORR p) rx.uncorr

/-- A frame as the PCS hands it on: the blocks of an uncorrectable codeword are symbol errors (R83). -/
def State.afterFec (s : State) (p : Nat) (rx : RxFrame) : RxFrame :=
  { rx with symErr := rx.symErr || (s.fd (Rg.ETH_CFG p) Fl.ETH_CFG_FEC != 0 && rx.uncorr != 0) }

/-- A frame leaves the receive FIFO of its MAC: a double-bit error there makes it a symbol error (R347). -/
def State.fifoTake (s0 : State) (p : Nat) (rx : RxFrame) : State :=
  let a := Mm.fifo + 8 * p
  let s := s0.sbeAt 0 a
  if s.isBad 0 a then ((s.dbeSeen 0 a).mended 0 a).ethTake p { rx with symErr := true } else s.ethTake p rx

/-- A frame ends on port `p` (R91): taken while forwarding runs, matched with the wake filters in DOZE, and otherwise
discarded at the MAC (R332). -/
def State.ethReceive (s0 : State) (p : Nat) (rx0 : RxFrame) : State :=
  if ¬ s0.linkUp p then s0
  else
    let s := s0.fecCount p rx0
    let rx := s0.afterFec p rx0
    if s.forwarding then s.fifoTake p rx
    else if s.pwr.phase = .doze ∧ rx.fcs = .good then s.dozeFrame p (rx.data ++ fcsOf rx.data false)
    else s

def execEthFrameReceive (lapse : Nat) (p : Fin 24) (rx : RxFrame) (s : State) : Host.Outcome State Fault Refusal :=
  .next ((s.advance lapse).ethReceive p.val rx)

/-- A frame in reception when its link goes down is ended as bad and counted RX_SYMBOL_ERR, whatever its length (R86, R96); one whose first
64 bytes had come goes on as a cut-through candidate. -/
def State.ethBroken (s : State) (p : Nat) (d : Bytes) : State :=
  if ¬ s.forwarding then s
  else if d.length < 64 then s.count (ethC p 18)
  else s.ethBad p 18 d.length d true false

/-- ETH_LINK_DOWN (R86). -/
def State.ethLinkLost (s : State) (p : Nat) (c : LinkCause) (rx : Option Bytes) : State :=
  if ¬ s.causeFits p c then s
  else
    match rx with
    | some d => if s.linkUp p then (s.ethBroken p d).ethLinkDown p c else s.ethLinkDown p c
    | none => s.ethLinkDown p c

def execEthLinkDown (lapse : Nat) (p : Fin 24) (x : LinkLoss) (s : State) : Host.Outcome State Fault Refusal :=
  .next ((s.advance lapse).ethLinkLost p.val x.cause x.rx)

/-- A MAC control frame of 64 bytes from the link partner: destination 01-80-C2-00-00-01, source zero. -/
def controlFrame (body : Bytes) : RxFrame :=
  ⟨slice (([0x01, 0x80, 0xC2, 0, 0, 0x01] : Bytes) ++ zeros 6 ++ [0x88, 0x08] ++ body) 0 60, .good, false, 0, 0⟩

/-- PAUSE_RECEIVE (R101): a PAUSE frame ends on the port. -/
def execPauseReceive (lapse : Nat) (p : Fin 24) (quanta : BitVec 16) (s : State) : Host.Outcome State Fault Refusal :=
  .next ((s.advance lapse).ethReceive p.val (controlFrame ([0x00, 0x01] ++ beBytes 2 quanta.toNat)))

/-- PFC_RECEIVE (R101): a PFC frame ends on the port. -/
def execPfcReceive (lapse : Nat) (p : Fin 24) (enables : BitVec 8) (quanta : List (BitVec 16)) (s : State) :
    Host.Outcome State Fault Refusal :=
  .next ((s.advance lapse).ethReceive p.val
    (controlFrame ([0x01, 0x01] ++ beBytes 2 enables.toNat ++ quanta.flatMap (fun q => beBytes 2 q.toNat))))

/-! ## MDIO (R88, R89) -/

/-- MDIO_READ (R89): a write of ETH_MDIO_CMD. REG and DEVICE are stored; START queues a read, or is refused while BUSY. DESIGN CHOICE
(log 134): ETH_PHY is of ports 4 to 23 only; a START on a port of 0 to 3 queues a read like any other. -/
def State.mdioCmd (s : State) (p v : Nat) : State :=
  let s1 := s.wr (Rg.ETH_MDIO_CMD p) (v % 2 ^ 21)
  if ¬ bitOf v 31 then s1
  else if s.flag (Rg.ETH_MDIO_DATA p) Fl.ETH_MDIO_DATA_BUSY then s1.ignored (Rg.ETH_MDIO_CMD p).addr v
  else ({ s1 with mdioQ := s1.mdioQ ++ [p] } : State).sf (Rg.ETH_MDIO_DATA p) Fl.ETH_MDIO_DATA_BUSY 1

def execMdioRead (lapse : Nat) (p : Fin 24) (value : Word) (s : State) : Host.Outcome State Fault Refusal :=
  .next ((s.advance lapse).fw (·.mdioCmd p.val value.toNat))

/-- MDIO_READ_DONE (R89): the oldest queued read is that of port `p`, and it completes; a PHY that does not answer reads
0xFFFF. -/
def State.mdioDone (s : State) (p data : Nat) : State :=
  if s.mdioQ.head? ≠ some p then s
  else
    let s1 : State := { s with mdioQ := s.mdioQ.tail }
    ((s1.sf (Rg.ETH_MDIO_DATA p) Fl.ETH_MDIO_DATA_DATA data).sf (Rg.ETH_MDIO_DATA p) Fl.ETH_MDIO_DATA_BUSY 0).setBit
      (Rg.ETH_MDIO_DATA p) Fl.ETH_MDIO_DATA_DONE.lo

def execMdioReadDone (lapse : Nat) (p : Fin 24) (data : BitVec 16) (s : State) : Host.Outcome State Fault Refusal :=
  .next ((s.advance lapse).mdioDone p.val data.toNat)

end Sys2Proof.Machine
end

