-- ==== Sys2Proof/Machine/EyeIn.lean ====
section
/-! DEFINITION. The eyelet's receiver (R354 to R358): which frames it takes, and which requests it accepts. -/

namespace Sys2Proof.Machine

/-- An IP datagram with UDP inside an Ethernet frame: where the UDP header starts, and source and destination addresses. -/
structure UdpAt where
  udp : Nat
  src : Bytes
  dst : Bytes
  deriving DecidableEq, Repr

/-- The UDP header of a frame over IPv4 with IHL 5, or over IPv6 without extension headers. -/
def udpAt (v6 : Bool) (d : Bytes) : Option UdpAt :=
  let t := 12 + tagBytes d 12 4
  let o := t + 2
  if v6 then
    if be d t 2 = 0x86DD ∧ byteAt d o / 16 = 6 ∧ byteAt d (o + 6) = 17 then some ⟨o + 40, slice d (o + 8) 16, slice d (o + 24) 16⟩ else none
  else
    if be d t 2 = 0x0800 ∧ byteAt d o = 0x45 ∧ byteAt d (o + 9) = 17 then some ⟨o + 20, slice d (o + 12) 4, slice d (o + 16) 4⟩ else none

/-- An eyelet address register as the bytes of an address. -/
def State.eyeIp (s : State) (r : Reg) : Bytes :=
  (s.rdBytes r 4).take (if s.flag Rg.EYE_CFG Fl.EYE_CFG_IPV6 then 16 else 4)

/-- The request a frame carries when the eyelet unit takes it (R354). -/
def State.eyeHit (s : State) (p : Nat) (d : Bytes) : Option UdpAt :=
  if s.flag Rg.EYE_CFG Fl.EYE_CFG_EN ∧ p < 24 ∧ p = s.fd Rg.EYE_CFG Fl.EYE_CFG_PORT ∧ isTagged d
      ∧ outerTci d % 4096 = s.fd Rg.EYE_CFG Fl.EYE_CFG_VID ∧ be d 0 6 = s.rd64 Rg.EYE_LOCAL_MAC then
    match udpAt (s.flag Rg.EYE_CFG Fl.EYE_CFG_IPV6) d with
    | none => none
    | some u =>
      if u.dst = s.eyeIp Rg.EYE_LOCAL_IP ∧ u.src = s.eyeIp Rg.EYE_HOST_IP
          ∧ be d (u.udp + 2) 2 = s.fd Rg.EYE_UDP Fl.EYE_UDP_LOCAL then some u else none
  else none

/-- The eyelet working key (R356). -/
def State.eyeKey (s : State) : Option Bytes × State :=
  s.workKey (s.fd Rg.EYE_CFG Fl.EYE_CFG_KEY_SLOT) Master.eyelet (ascii "EYELET" ++ beBytes 2 s.node)

/-- The tag of an eyelet datagram. -/
def eyeTag (key msg : Bytes) : Bytes := kmac256 key msg 16 (ascii "KD48-EYELET")

/-- Counts and raises an authentication failure. -/
def State.eyeAuthFail (s : State) (src : Bytes) (kind : Nat) : State :=
  ((s.count (eyeC 1)).setBit Rg.EYE_INT_STATUS 0).raise 0x0E01 noPort (ofLe (src.take 4) + kind * 2 ^ 32)

/-- The kinds a request may have. -/
def eyeKinds : List Nat := [1, 4, 5, 6, 7]

/-- The checks of R358 on a datagram the eyelet unit took, and its queue of 8. -/
def State.eyeTake (s : State) (d : Bytes) (u : UdpAt) : State :=
  let g := u.udp + 8
  let kind := byteAt d g % 16
  let b := be d (g + 14) 2
  match s.eyeKey with
  | (none, s1) => s1.eyeAuthFail u.src kind
  | (some key, s1) =>
    if byteAt d g / 16 ≠ 1 ∨ byteAt d (g + 1) ≥ 128 ∨ ¬ eyeKinds.contains kind ∨ be d (u.udp + 4) 2 ≠ 40 + b then s1.count (eyeC 3)
    else if eyeTag key (slice d g (16 + b)) ≠ slice d (g + 16 + b) 16 then s1.eyeAuthFail u.src kind
    else
      let seq := be d (g + 4) 8
      let good := seq / 2 ^ 32 = s1.rd Rg.EYE_EPOCH ∧ seq % 2 ^ 32 > s1.rd Rg.EYE_RX_SEQ
      if kind ≠ 1 ∧ ¬ good then ((s1.count (eyeC 2)).setBit Rg.EYE_INT_STATUS 1).raise 0x0E02 noPort seq
      else
        let s2 := if kind = 1 then s1 else s1.wr Rg.EYE_RX_SEQ (seq % 2 ^ 32)
        if s2.eye.queue.length ≥ 8 then s2.count (eyeC 4)
        else
          let s3 := s2.count (eyeC 0)
          { s3 with eye := { s3.eye with queue := s3.eye.queue ++ [⟨kind, seq, slice d (g + 16) b⟩] } }

end Sys2Proof.Machine
end

