-- ==== Sys2Proof/Machine/EvIn.lean ====
section
/-! DEFINITION. The entrance of the seal unit: LEGAL_HALT and its causes, refusals, and the formation queue (R305, R306, R324,
R325). -/

namespace Sys2Proof.Machine

/-- Adds to a 64-bit counter of the seal unit. -/
def State.sealCount (s : State) (i : Nat) (n : Nat := 1) : State := s.wr64 (Rg.SEAL_CNT i) ((s.rd64 (Rg.SEAL_CNT i) + n) % 2 ^ 64)

/-- HALT_CAUSE as a number: bit n - 1 for cause n. -/
def State.haltCauses (s : State) : Nat := s.fd Rg.SEAL_STATUS Fl.SEAL_STATUS_HALT_CAUSE

def State.haltCause (s : State) (n : Nat) : Bool := bitOf s.haltCauses (n - 1)

/-- Drives LEGAL_HALT and shows it; a change raises SEAL_LEGAL_HALT (R325). -/
def State.driveHalt (s : State) (on : Bool) : State :=
  let s1 := s.sf Rg.SEAL_STATUS Fl.SEAL_STATUS_HALT (b2n on)
  if s.pins.legalHalt = on then s1
  else ({ s1 with pins := { s1.pins with legalHalt := on } } : State).raise 0x0D02 noPort (s1.rd Rg.SEAL_STATUS % 128)

/-- A cause of LEGAL_HALT begins to hold: the output is asserted at once. -/
def State.haltOn (s : State) (n : Nat) : State := (s.sf Rg.SEAL_STATUS ⟨n, 1⟩ 1).driveHalt true

/-- A cause ceases to hold; the output is released at a boundary only. -/
def State.haltOff (s : State) (n : Nat) : State := s.sf Rg.SEAL_STATUS ⟨n, 1⟩ 0

/-- The refusal cause of the lowest cause that holds; for cause 1, which the table gives none, that of a refused key. -/
def State.refusalCause (s : State) : Nat :=
  if s.haltCause 1 then 3 else if s.haltCause 2 then 2 else if s.haltCause 3 then 0 else if s.haltCause 4 then 3 else 4

/-- An evidence frame is refused (R324). -/
def State.evRefuse (s : State) (port cause : Nat) : State := (s.sealCount 2).raiseFirst 0x0D03 0 port (cause + 2 ^ 16)

/-- Slots of the record buffer in use (R313). -/
def State.bufUsed (s : State) : Nat := s.chain.buf.foldl (fun n i => n + (if i.isSeal then 2 else 1)) 0

/-- A frame joins the formation queue in the order in which the checks of R18 were completed, frames of one cycle by group (R306). -/
def joinReceived (f : Frame) : List Frame → List Frame
  | [] => [f]
  | g :: t => if f.rxAt < g.rxAt ∨ (f.rxAt = g.rxAt ∧ f.group < g.group) then f :: g :: t else g :: joinReceived f t

/-- An evidence frame reaches the seal unit: queued in its order, or refused. -/
def State.evTake (s : State) (f : Frame) : State :=
  if f.pass then s.sealCount 4
  else if s.haltCauses ≠ 0 then s.evRefuse f.src s.refusalCause
  else if s.evQ.length ≥ 64 then s.evRefuse f.src 1
  else { s with evQ := joinReceived f s.evQ }

end Sys2Proof.Machine
end

