-- ==== Sys2Proof/Machine/Parse.lean ====
section
/-! DEFINITION. The parse graph (R129 to R149): the node procedure, exceptions, key profiles, the checks of a rule bank, and
the swap of banks. -/

namespace Sys2Proof.Machine

/-! ## Nodes -/

/-- A parse node is its 256 bytes; these are its fields. -/
def nValid (x : Bytes) : Bool := bitOf (byteAt x 0) 7
def nMissExc (x : Bytes) : Bool := bitOf (byteAt x 0) 6
def nEthStart (x : Bytes) : Bool := bitOf (byteAt x 0) 5
def nTag (x : Bytes) : Bool := bitOf (byteAt x 0) 4
def nClaim (x : Bytes) : Bool := bitOf (byteAt x 0) 3
def nClaimSrc (x : Bytes) : Bool := bitOf (byteAt x 0) 2
def nKind (x : Bytes) : Nat := byteAt x 1 % 16
def nProfile (x : Bytes) : Nat := byteAt x 5 % 16

/-- A bit field of a node: offset from the header start and width; width 0 reads no byte. -/
def nSel (x : Bytes) : Nat × Nat := (be x 2 2, byteAt x 4)
def nAdv (x : Bytes) : Nat × Nat := (be x 8 2, if bitOf (byteAt x 10) 7 then byteAt x 10 % 32 else 0)
def nClaimF (x : Bytes) : Nat × Nat := (be x 12 2, if nClaim x ∧ ¬ nClaimSrc x then byteAt x 14 else 0)

/-- The valid extractions: source offset, length, destination. -/
def nExt (x : Bytes) : List (Nat × Nat × Nat) :=
  ((List.range 4).filter (fun i => bitOf (byteAt x (25 + 4 * i)) 7)).map
    (fun i => (byteAt x (24 + 4 * i), byteAt x (25 + 4 * i) % 32, byteAt x (26 + 4 * i)))

/-- The first valid transition a select value matches (R132). -/
def nNext (x : Bytes) (sel : Nat) : Option Nat :=
  ((List.range 16).find? (fun k =>
    bitOf (byteAt x (72 + 12 * k)) 7 && sel &&& be x (68 + 12 * k) 4 = be x (64 + 12 * k) 4)).map
    (fun k => byteAt x (72 + 12 * k) % 64)

/-- The value of a bit field at a header start. -/
def fieldAt (d : Bytes) (start : Nat) (f : Nat × Nat) : Nat := if f.2 = 0 then 0 else wireBits d (8 * start + f.1) f.2

/-- The byte spans a node needs (R136): first byte and the byte after the last. -/
def nSpans (x : Bytes) (start : Nat) : List (Nat × Nat) :=
  ([nSel x, nAdv x, nClaimF x].filter (fun f => f.2 != 0)).map (fun f => (start + f.1 / 8, start + (f.1 + f.2 - 1) / 8 + 1))
    ++ (nExt x).map (fun e => (start + e.1, start + e.1 + e.2.1))

/-- The KIND checks of R138: causes, and whether the hop count is 0. -/
def kindChecks (k : Nat) (d : Bytes) (o : Nat) : List Nat × Bool :=
  let ttl (i : Nat) : List Nat := if byteAt d (o + i) ≤ 1 then [4] else []
  if k = 1 then
    let ihl := byteAt d o % 16
    ((if ihl < 5 then [0] else []) ++ (if ihl > 5 then [3] else []) ++ (if be d (o + 6) 2 % 0x4000 ≠ 0 then [2] else []) ++ ttl 8, false)
  else if k = 2 then (ttl 7, false)
  else if k = 3 then ([2], false)
  else if k = 4 then (if byteAt d o / 16 ≠ 1 then [5] else [], byteAt d (o + 6) = 0)
  else ([], false)

/-! ## The walk (R131) -/

/-- A parse in progress, and at its end its result. -/
structure Walk where
  /-- The node to apply next, or the node at which the parse ended. -/
  node    : Nat
  /-- Its header start. -/
  start   : Nat
  /-- The latest header end. -/
  hend    : Nat
  /-- Nodes applied. -/
  count   : Nat
  /-- The limit E; `none` while it is the end of a frame that has not ended. -/
  lim     : Option Nat
  /-- Header start of the latest ETH_START node, the TAG nodes since it, and whether no claim has come since it (R140). -/
  eth     : Option Nat
  tags    : Nat
  fresh   : Bool
  pv      : Bytes
  sel     : Nat
  causes  : List Nat
  hopZero : Bool
  /-- Header start of the first Akzor node. -/
  akzor   : Option Nat
  /-- Bytes needed (R137). -/
  need    : Nat
  /-- Number and header start of the last node applied. -/
  last    : Nat
  at_     : Nat
  done    : Bool
  /-- The nodes read, latest first. -/
  path    : List Nat

/-- Writes one extraction into the parse vector; no byte beyond the frame's end (R131). -/
def extract (d : Bytes) (start : Nat) (pv : Bytes) (e : Nat × Nat × Nat) : Bytes :=
  let v := (d.drop (start + e.1)).take e.2.1
  patch pv e.2.2 v

/-- Whether `a` exceeds a limit that may not be known yet. -/
def beyond (a : Nat) (lim : Option Nat) : Bool :=
  match lim with
  | none => false
  | some e => a > e

/-- Whether the claim `c` fails, given the header end and the limit (R139, R140). -/
def claimBad (w : Walk) (hend : Nat) (c : Int) : Bool :=
  c < hend ||
    match w.lim with
    | none => false
    | some e => c > e || (c < e && !(w.fresh && match w.eth with
      | none => false
      | some h => e - h ≤ 60 + 4 * w.tags))

/-- One node applied (R131). `maxDepth` and `window` are PARSE_DEPTH_MAX and PARSE_BYTES_MAX. -/
def nodeStep (x d : Bytes) (maxDepth window : Nat) (w : Walk) : Walk :=
  let spans := nSpans x w.start
  if w.count ≥ maxDepth ∨ spans.any (fun p => Nat.max p.1 window < Nat.min p.2 d.length) then
    { w with causes := 1 :: w.causes, done := true }
  else
    let hi := spans.foldl (fun m p => Nat.max m p.2) 0
    let short := hi > d.length
    let k := kindChecks (nKind x) d w.start
    let hend := w.start + be x 6 2 + fieldAt d w.start (nAdv x) * byteAt x 11
    let w1 := { w with
      count := w.count + 1, last := w.node, at_ := w.start, hend := hend, need := Nat.max w.need (Nat.min hi d.length)
      eth := if nEthStart x then some w.start else w.eth
      tags := if nEthStart x then 0 else if nTag x then w.tags + 1 else w.tags
      fresh := nEthStart x || w.fresh
      akzor := if nKind x = 4 ∧ w.akzor.isNone then some w.start else w.akzor
      hopZero := w.hopZero || k.2 }
    let len := if nClaimSrc x then w.sel else fieldAt d w.start (nClaimF x)
    let c : Int := ((w.start + len * byteAt x 15 : Nat) : Int) + signed 16 (be x 16 2)
    let conflict := short || beyond hend w.lim || (nClaim x && claimBad w1 hend c)
    let w2 := { w1 with
      lim := if nClaim x ∧ ¬ conflict then some c.toNat else w.lim
      fresh := w1.fresh && !nClaim x
      causes := k.1 ++ (if conflict then [0] else []) ++ w.causes
      pv := (nExt x).foldl (extract d w.start) w.pv }
    if conflict ∨ k.1 ≠ [] ∨ k.2 then { w2 with done := true }
    else
      let sel := fieldAt d w.start (nSel x)
      match nNext x sel with
      | none => { w2 with done := true, causes := if nMissExc x then 5 :: w2.causes else w2.causes }
      | some n => { w2 with node := n, start := hend, sel := sel }

/-- Where a bank lies: tag 1 = A, 2 = B (R130). -/
def bankAt (tag : Nat) : Nat := if tag = 2 then Mm.parse + 0x20000 else Mm.parse

/-- A node of a bank. -/
def State.pnode (s : State) (tag n : Nat) : Bytes := s.ram (bankAt tag + 0x4000 + 256 * n) 256

/-- Walks until the parse ends; at most 17 nodes are tried, as PARSE_DEPTH_MAX is at most 16. -/
def State.walk (s : State) (tag : Nat) (d : Bytes) (w : Walk) : Nat → Walk
  | 0 => { w with done := true }
  | n + 1 =>
    if w.done then w
    else
      let x := nodeStep (s.pnode tag w.node) d (s.fd Rg.PARSE_CFG Fl.PARSE_CFG_DEPTH_MAX) (s.fd Rg.PARSE_CFG Fl.PARSE_CFG_BYTES_MAX) w
      s.walk tag d { x with path := w.node :: w.path } n

/-- The parse of a frame on its bank. With `ended` false the frame's end is not known yet (R141). The parse vector comes out
with its metadata (R134); a parse whose window failed the first node ends at that node (R136). PV byte 65 on the second pass is the
descriptor's class as the first pass left it (DESIGN CHOICE, log entry 138). -/
def State.parse (s : State) (fr : Frame) (ended : Bool) : Walk :=
  let b := bankAt fr.bank
  let st := byteAt (s.ram (b + if isCan fr.src ∧ ¬ fr.pass then 1 else 0) 1) 0 % 64
  let w := s.walk fr.bank fr.data ⟨st, 0, 0, 0, if ended then some fr.data.length else none, none, 0, false, zeros 64, 0, [],
    false, none, 0, st, 0, false, []⟩ 17
  { w with pv := w.pv ++ beBytes 1 fr.src ++ beBytes 1 fr.cls ++ beBytes 1 (b2n fr.pass) ++ beBytes 1 w.last ++ zeros 4 }

/-- The first double-bit error that the parse of a frame meets in its bank: in the header, in a node it reads, or in the last node's
profile (R347). -/
def State.parseBad (s : State) (fr : Frame) (w : Walk) : Option Nat :=
  let b := bankAt fr.bank
  let key := b + 0x1000 + 128 * nProfile (s.pnode fr.bank w.last)
  ((s.badIn 3 b 64).or (w.path.reverse.findSome? (fun n => s.badIn 3 (b + 0x4000 + 256 * n) 256))).or (s.badIn 3 key 128)

/-- The reads of that parse: single-bit errors in them are corrected and counted (R347). -/
def State.parseSbe (s : State) (fr : Frame) (w : Walk) : State :=
  let b := bankAt fr.bank
  (w.path.reverse.foldl (fun t n => t.sbeIn 3 (b + 0x4000 + 256 * n) 256) (s.sbeIn 3 b 64)).sbeIn 3 (b + 0x1000 + 128 * nProfile (s.pnode fr.bank w.last)) 128

/-- The deciding cause (R142): the lowest code. -/
def Walk.cause (w : Walk) : Option Nat := w.causes.min?

/-- Whether a cause sends a frame to the slow path, by the bank's exception map. -/
def State.excSlow (s : State) (tag c : Nat) : Bool :=
  match byteAt (s.ram (bankAt tag + 0x10 + c) 1) 0 with
  | 0 => c != 0
  | v => v = 1

/-! ## Keys (R135) -/

/-- The lookups of a frame: which are enabled, and their keys. -/
structure Keys where
  flowEn : Bool
  fdbEn  : Bool
  nodeEn : Bool
  /-- PROFILE byte and 40 key bytes. -/
  flow   : Bytes
  vid    : Nat
  da     : Bytes
  sa     : Bytes
  node   : Nat

/-- The keys a profile makes of a parse vector. -/
def State.keysOf (s : State) (tag : Nat) (w : Walk) : Keys :=
  let pr := nProfile (s.pnode tag w.last)
  let k := s.ram (bankAt tag + 0x1000 + 128 * pr) 128
  let kb := (List.range (byteAt k 1)).map (fun i => BitVec.ofNat 8 (byteAt w.pv (byteAt k (8 + 2 * i)) &&& byteAt k (9 + 2 * i)))
  ⟨bitOf (byteAt k 0) 0, bitOf (byteAt k 0) 1, bitOf (byteAt k 0) 2, BitVec.ofNat 8 pr :: slice kb 0 40,
   be w.pv (byteAt k 2) 2 % 4096, slice w.pv (byteAt k 3) 6, slice w.pv (byteAt k 4) 6, be w.pv (byteAt k 5) 2⟩

/-! ## Checks of a bank (R145) -/

/-- VAL_CAUSE of a node: 1 = reserved, 2 = invalid node named, 3 = range, 4 = value outside mask, 5 = extraction; 0 = good. An extraction
not in use keeps to the same ranges, but for a length of 0, which a node of zeros holds. -/
def nodeCause (valid : Nat → Bool) (x : Bytes) : Nat :=
  let ext := List.range 4
  let tr := List.range 16
  let z (o n : Nat) : Bool := be x o n = 0
  let exv (i : Nat) : Bool := bitOf (byteAt x (25 + 4 * i)) 7
  let exl (i : Nat) : Nat := byteAt x (25 + 4 * i) % 32
  let exd (i : Nat) : Nat := byteAt x (26 + 4 * i)
  let own := nClaim x && !nClaimSrc x
  if ¬ (byteAt x 0 % 4 = 0 && byteAt x 1 < 5 && byteAt x 5 < 16 && byteAt x 10 / 32 % 4 = 0 && z 18 6 && z 40 24
      && ext.all (fun i => byteAt x (25 + 4 * i) / 32 % 4 = 0 && z (27 + 4 * i) 1)
      && tr.all (fun k => byteAt x (72 + 12 * k) / 64 % 2 = 0 && z (73 + 12 * k) 3)) then 1
  else if ¬ (be x 2 2 ≤ 2047 && byteAt x 4 ≤ 32 && be x 6 2 ≤ 256
      && (if bitOf (byteAt x 10) 7 then 1 ≤ byteAt x 10 % 32 && byteAt x 10 % 32 ≤ 16 else byteAt x 10 = 0 && byteAt x 11 = 0)
      && (if own then 1 ≤ byteAt x 14 && byteAt x 14 ≤ 16 else byteAt x 14 = 0)
      && ext.all (fun i => (!exv i || 1 ≤ exl i) && exl i ≤ 16 && exd i ≤ 63)) then 3
  else if ext.any (fun i => exd i + exl i > 64) then 5
  else if tr.any (fun k => be x (64 + 12 * k) 4 &&& be x (68 + 12 * k) 4 != be x (64 + 12 * k) 4) then 4
  else if tr.any (fun k => bitOf (byteAt x (72 + 12 * k)) 7 && !valid (byteAt x (72 + 12 * k) % 64)) then 2
  else 0

/-- VAL_CAUSE of a key profile. A key byte beyond KEY_LEN that is not zero counts as a reserved field (DESIGN CHOICE, log entry 139). -/
def profileCause (x : Bytes) : Nat :=
  let f := byteAt x 0
  let kl := byteAt x 1
  if f ≥ 8 ∨ be x 6 2 ≠ 0 ∨ be x 88 40 ≠ 0 then 1
  else if (if bitOf f 0 then kl = 0 ∨ kl > 40 else kl ≠ 0) ∨ byteAt x 2 > 70 ∨ byteAt x 3 > 66 ∨ byteAt x 4 > 66 ∨ byteAt x 5 > 70
      ∨ (¬ bitOf f 1 ∧ be x 2 3 ≠ 0) ∨ (¬ bitOf f 2 ∧ byteAt x 5 ≠ 0)
      ∨ (List.range kl).any (fun i => byteAt x (8 + 2 * i) > 71) then 3
  else if be x (8 + 2 * kl) (80 - 2 * kl) ≠ 0 then 1
  else 0

/-- The first fault of the bank at `b`, as VAL_CAUSE and VAL_NODE; (0, 0) when it passes. Of several faults the header's is reported
first, then the profiles', then that of the lowest node; VAL_NODE is 63 for a fault of no node, and the start node for the fault of a
start node with CLAIM_SRC (DESIGN CHOICE, log entry 139). -/
def State.bankCause (s : State) (b : Nat) : Nat × Nat :=
  let z (o n : Nat) : Bool := s.sram.all (fun c => !(b + o ≤ c.1 && c.1 < b + o + n) || c.2 = 0)
  let node (n : Nat) : Bytes := s.ram (b + 0x4000 + 256 * n) 256
  let valid (n : Nat) : Bool := nValid (node n)
  let st (i : Nat) : Nat := byteAt (s.ram (b + i) 1) 0
  if ¬ (z 2 14 && z 0x16 0xFEA && z 0x1800 0x2800 && z 0x8000 0x18000) then (1, 63)
  else if st 0 > 63 ∨ st 1 > 63 ∨ (List.range 6).any (fun i => st (0x10 + i) > 2) then (3, 63)
  else
    match ((List.range 16).map (fun i => profileCause (s.ram (b + 0x1000 + 128 * i) 128))).find? (· ≠ 0) with
    | some c => (c, 63)
    | none =>
      match ((List.range 64).map (fun n => (nodeCause valid (node n), n))).find? (fun r => r.1 ≠ 0) with
      | some r => r
      | none =>
        if ¬ valid (st 0) ∨ ¬ valid (st 1) then (2, 63)
        else
          match [st 0, st 1].find? (fun n => nClaim (node n) && nClaimSrc (node n)) with
          | some n => (3, n)
          | none => (0, 0)

/-! ## The standby bank and the swap (R146 to R148) -/

def State.activeBank (s : State) : Nat := 1 + s.fd Rg.PARSE_BANK_STATUS Fl.PARSE_BANK_STATUS_ACTIVE
def State.standbyBank (s : State) : Nat := 3 - s.activeBank
def State.swapState (s : State) : Nat := s.fd Rg.PARSE_BANK_STATUS Fl.PARSE_BANK_STATUS_STATE
def State.valBusy (s : State) : Bool := s.flag Rg.PARSE_BANK_STATUS Fl.PARSE_BANK_STATUS_VAL_BUSY

/-- PARSE_STANDBY_WRITE (R146): a word of the window goes into the standby bank, and VALIDATED clears. -/
def State.standbyWrite (s : State) (o v : Nat) : State :=
  if s.swapState ≠ 0 ∨ s.valBusy ∨ o % 4 ≠ 0 then s.ignored (0x10210000 + o) v
  else ((s.setRam (bankAt s.standbyBank + o) (leBytes 4 v)).mendedIn 3 (bankAt s.standbyBank + o) 4).sf Rg.PARSE_BANK_STATUS
    Fl.PARSE_BANK_STATUS_VALIDATED 0

def execParseStandbyWrite (offset : Fin 131072) (value : Word) (s : State) : Host.Outcome State Fault Refusal :=
  .next (s.fw (·.standbyWrite offset.val value.toNat))

/-- PARSE_VALIDATE (R146): CMD = 1 begins the checks, unless they run. -/
def State.parseValidate (s : State) : State :=
  if s.valBusy then s.ignored Rg.PARSE_BANK_CTRL.addr 1 else s.sf Rg.PARSE_BANK_STATUS Fl.PARSE_BANK_STATUS_VAL_BUSY 1

def execParseValidate (lapse : Nat) (s : State) : Host.Outcome State Fault Refusal :=
  .next ((s.advance lapse).fw (·.parseValidate))

/-- PARSE_VALIDATE_DONE (R146): the checks end. -/
def State.parseValidateDone (s : State) : State :=
  if ¬ s.valBusy then s
  else
    let r := s.bankCause (bankAt s.standbyBank)
    let s1 := (s.sf Rg.PARSE_BANK_STATUS Fl.PARSE_BANK_STATUS_VAL_BUSY 0).setBit Rg.PARSE_INT_STATUS 1
    if r.1 = 0 then s1.sf Rg.PARSE_BANK_STATUS Fl.PARSE_BANK_STATUS_VALIDATED 1
    else
      (((s1.setBit Rg.PARSE_BANK_STATUS Fl.PARSE_BANK_STATUS_VAL_FAIL.lo).sf Rg.PARSE_BANK_STATUS Fl.PARSE_BANK_STATUS_VAL_CAUSE r.1).sf
        Rg.PARSE_BANK_STATUS Fl.PARSE_BANK_STATUS_VAL_NODE r.2).raise 0x0603 noPort (r.1 + 16 * r.2)

def execParseValidateDone (lapse : Nat) (s : State) : Host.Outcome State Fault Refusal :=
  .next ((s.advance lapse).parseValidateDone)

/-- PARSE_SWAP_REQUEST (R147): CMD = 2 is accepted as PENDING, or refused with BANK_BUSY. -/
def State.swapRequest (s : State) : State :=
  let v := s.fd Rg.PARSE_BANK_STATUS Fl.PARSE_BANK_STATUS_VALIDATED
  if v = 0 ∨ s.swapState ≠ 0 then
    (s.setBit Rg.PARSE_BANK_STATUS Fl.PARSE_BANK_STATUS_REFUSED.lo).raise 0x0602 noPort (s.swapState + 4 * v)
  else (s.sf Rg.PARSE_BANK_STATUS Fl.PARSE_BANK_STATUS_STATE 1).noteAsk Ask.swap 0

def execParseSwapRequest (lapse : Nat) (s : State) : Host.Outcome State Fault Refusal :=
  .next ((s.advance lapse).fw (·.swapRequest))

/-- Frames of a bank tag that wait in port 51's queues, or cross the ground towards them. -/
def State.tagged51 (s : State) (tag : Nat) : List Frame := s.outQ.filter (fun f => f.egress = 51 && f.bank = tag)

/-- At a boundary (R147, R148): a pending swap begins its pause; frames still waiting at port 51 with the tag of a bank that
drains since the swap boundary before are dropped, and the bank becomes STANDBY. The event's count stops at 255 (DESIGN CHOICE, log
entry 140). -/
def State.parseBoundary (s : State) : State :=
  if s.swapState = 1 ∧ ¬ s.prs.paused ∧ ¬ s.askedLate Ask.swap 0 then
    { s.wr Rg.PARSE_SWAP_HOOP s.hoopIx with prs := { s.prs with paused := true } }
  else if s.swapState = 2 ∧ ¬ s.prs.paused then
    let old := s.tagged51 s.standbyBank
    let s1 : State := { s with outQ := s.outQ.filter (fun f => !(f.egress = 51 && f.bank = s.standbyBank)) }
    let s2 := old.foldl (fun t f => t.count (parseC f.src 7)) s1
    let s3 := s2.sf Rg.PARSE_BANK_STATUS Fl.PARSE_BANK_STATUS_STATE 0
    if old.isEmpty then s3 else s3.raise 0x0604 noPort (Nat.min old.length 255)
  else s

/-- PARSE_SWAP_PAUSE_END (R147): the pipeline has emptied, and new parses use the new bank. -/
def State.swapPauseEnd (s : State) : State :=
  if ¬ s.prs.paused then s
  else
    let a := s.fd Rg.PARSE_BANK_STATUS Fl.PARSE_BANK_STATUS_ACTIVE
    let s1 := ((s.sf Rg.PARSE_BANK_STATUS Fl.PARSE_BANK_STATUS_ACTIVE (1 - a)).sf Rg.PARSE_BANK_STATUS Fl.PARSE_BANK_STATUS_STATE 2).setBit
      Rg.PARSE_INT_STATUS 0
    ({ s1 with prs := ⟨false, s1.raw⟩ } : State).raise 0x0601 noPort ((1 - a) + s1.rd Rg.PARSE_SWAP_HOOP * 2 ^ 32)

def execParseSwapPauseEnd (s : State) : Host.Outcome State Fault Refusal := .next s.swapPauseEnd

/-- PARSE_DRAIN_END (R148): 256 cycles after the pause, with no frame of the old tag at port 51, the bank is STANDBY. -/
def State.drainEnd (s : State) : State :=
  if s.swapState ≠ 2 ∨ s.prs.paused ∨ ¬ (s.tagged51 s.standbyBank).isEmpty then s
  else (s.advanceRaw (s.prs.pauseEnd + 256)).sf Rg.PARSE_BANK_STATUS Fl.PARSE_BANK_STATUS_STATE 0

def execParseDrainEnd (s : State) : Host.Outcome State Fault Refusal := .next s.drainEnd

end Sys2Proof.Machine
end

