-- ==== Sys2Proof/Machine/Tables.lean ====
section
/-! DEFINITION. The exact-match tables (R150 to R175): storage, hashing, search, insertion, learning, ageing, management DMA,
rehashing. Decisions of frames are in Forward. -/

namespace Sys2Proof.Machine

/-! ## Storage (R150 to R152)

Tables 1 = FDB, 2 = FLOW, 3 = BMAP. Bank 1 of a table begins at the middle of its memory. -/

/-- Bytes of an entry and of a bucket; slots per bucket are 4. -/
def entBytes (t : Nat) : Nat := if t = 2 then 64 else 16
def bktBytes (t : Nat) : Nat := 4 * entBytes t

/-- Bytes of a table's memory. -/
def State.tblBytes (s : State) (t : Nat) : Nat :=
  if t = 1 then 0x100000 else if t = 3 then 0x80000 else if s.elasticFlow then 0xC00000 else 0x800000

/-- Where a table's memory begins. -/
def tblBase (t : Nat) : Nat := if t = 1 then Mm.fdb else if t = 2 then Mm.flow else Mm.bmap

def State.tblSize (s : State) (t : Nat) : Nat := s.fd (Rg.TBL_CFG t) Fl.TBL_CFG_SIZE
def State.tblSingle (s : State) (t : Nat) : Bool := s.flag (Rg.TBL_CFG t) Fl.TBL_CFG_SINGLE
def State.tblActive (s : State) (t : Nat) : Nat := s.fd (Rg.TBL_BANK_STATUS t) Fl.TBL_BANK_STATUS_ACTIVE
def State.tblState (s : State) (t : Nat) : Nat := s.fd (Rg.TBL_BANK_STATUS t) Fl.TBL_BANK_STATUS_STATE

/-- Address of bucket `i` of a bank. -/
def State.bktAt (s : State) (t bank i : Nat) : Nat := tblBase t + bank * (s.tblBytes t / 2) + i * bktBytes t

/-- Flags of an entry. -/
def eValid (e : Bytes) : Bool := bitOf (byteAt e 0) 7
def ePinned (e : Bytes) : Bool := bitOf (byteAt e 0) 6
def eActive (e : Bytes) : Bool := bitOf (byteAt e 0) 5

/-- The key of an entry in its TABLE-record form, and the entry of a key and a result (R152). -/
def eKey (t : Nat) (e : Bytes) : Bytes :=
  if t = 1 then slice e 2 8 else if t = 2 then slice e 1 1 ++ slice e 8 40 else slice e 2 2
def eMake (t flags : Nat) (key res : Bytes) : Bytes :=
  let f := BitVec.ofNat 8 flags
  if t = 2 then f :: (key.take 1 ++ zeros 2 ++ res ++ key.drop 1 ++ zeros 16) else f :: 0 :: (key ++ res)

/-- ACTION of an entry; BMAP entries name none. -/
def eAction (t : Nat) (e : Bytes) : Nat := if t = 1 then be e 12 4 else if t = 2 then be e 4 4 else 0

/-- An entry with the flag of weight `w` set or cleared. -/
def eFlag (e : Bytes) (w : Nat) (on : Bool) : Bytes :=
  let f := byteAt e 0
  BitVec.ofNat 8 (if (f / w) % 2 = b2n on then f else if on then f + w else f - w) :: e.drop 1

/-- Valid entries of the active bank: TBL_ENTRIES as it reads. -/
def State.tblEntries (s : State) (t : Nat) : Nat :=
  let a := s.bktAt t (s.tblActive t) 0
  (s.sram.filter (fun c => a ≤ c.1 && c.1 < a + s.tblSize t * bktBytes t && (c.1 - a) % entBytes t = 0 && bitOf c.2.toNat 7)).length

/-! ## Double-bit errors in buckets (R174) -/

/-- A read of bucket `i` of a bank: one that holds a double-bit error is rewritten empty. The result says whether it did. -/
def State.scrub (s : State) (t bank i : Nat) : Bool × State :=
  let a := s.bktAt t bank i
  match s.badIn 1 a (bktBytes t) with
  | none => (false, s.sbeIn 1 a (bktBytes t))
  | some x =>
    let s2 := ((s.dbeSeen 1 x).setRam a (zeros (bktBytes t))).mendedIn 1 a (bktBytes t)
    (true, (s2.count (tblC 12)).raise 0x0704 noPort (t + 8 * bank + 256 * i))

/-- A read of NODE entry `i`: one that holds a double-bit error is rewritten invalid (R347). The result says whether it did. -/
def State.scrubNode (s : State) (i : Nat) : Bool × State :=
  let a := Mm.node + 8 * i
  match s.badIn 1 a 8 with
  | none => (false, s.sbeIn 1 a 8)
  | some x => (true, ((s.dbeSeen 1 x).mendedIn 1 a 8).setRam a (zeros 8))

/-! ## Hashing and search (R153, R154) -/

/-- Seeds of a bank: those of the active bank, or those copied at PREPARE. -/
def State.tblSeeds (s : State) (t bank : Nat) : Nat :=
  if bank = s.tblActive t then s.rd64 (Rg.TBL_SEED t) else sget s.tbl.prepSeed t 0

/-- The two candidate buckets of a key (R153). -/
def State.cands (s : State) (t bank : Nat) (key : Bytes) : Nat × Nat :=
  let sd := s.tblSeeds t bank
  let n := s.tblSize t
  (crc32 (beBytes 4 (sd % 2 ^ 32) ++ key) * n / 2 ^ 32, crc32c (beBytes 4 (sd / 2 ^ 32) ++ key) * n / 2 ^ 32)

/-- Slot `j` of bucket `i` of the active bank: its address, and its entry. -/
def State.slotAt (s : State) (t i j : Nat) : Nat := s.bktAt t (s.tblActive t) i + j * entBytes t
def State.entry (s : State) (t i j : Nat) : Bytes := s.ram (s.slotAt t i j) (entBytes t)

/-- The address of the entry that matches a key in the active bank, in the order of R154. -/
def State.find (s : State) (t : Nat) (key : Bytes) : Option Nat :=
  if s.tblSize t = 0 then none
  else
    let c := s.cands t (s.tblActive t) key
    let hit (i : Nat) : Option Nat :=
      ((List.range 4).find? (fun j => eValid (s.entry t i j) && eKey t (s.entry t i j) = key)).map (s.slotAt t i)
    (hit c.1).or (hit c.2)

/-- Reads both candidate buckets of a key: those with double-bit errors are emptied. -/
def State.scrubKey (s : State) (t : Nat) (key : Bytes) : State :=
  if s.tblSize t = 0 then s
  else
    let c := s.cands t (s.tblActive t) key
    ((s.scrub t (s.tblActive t) c.1).2.scrub t (s.tblActive t) c.2).2

/-- The state as the lookups of this cycle see it: buckets as they were before the cycle's writes (R154). -/
def State.seen (s : State) : State := { s with sram := s.cyc.buckets.foldl (fun m w => ssetN m w.1 0 w.2) s.sram }

/-- A search by a lookup: the entry it matches, as it was before the writes of this cycle. -/
def State.search (s : State) (t : Nat) (key : Bytes) : Option Bytes × State :=
  let s1 := s.scrubKey t key
  ((s1.seen.find t key).map (fun a => s1.seen.ram a (entBytes t)), s1)

/-- Sets ACTIVE of the entry at an address. -/
def State.touch (s : State) (a : Nat) : State :=
  let f := byteAt (s.ram a 1) 0
  let s1 := if bitOf f 5 then s else s.setRam a [BitVec.ofNat 8 (f + 32)]
  { s1 with cyc := { s1.cyc with hits := a :: s1.cyc.hits } }

/-- A hit sets ACTIVE of its entry, in its new slot where this cycle has moved it (R164, R167). -/
def State.hit (s : State) (t : Nat) (key : Bytes) : State :=
  match s.find t key with
  | none => s
  | some a => s.touch a

/-- The maintenance engine writes to a bucket; what stood there is kept for the lookups of this cycle (R154). -/
def State.setBkt (s : State) (a : Nat) (b : Bytes) : State :=
  { s.setRam a b with cyc := { s.cyc with buckets := (a, s.ram a b.length) :: s.cyc.buckets } }

/-! ## Locks (R170) -/

/-- Whether a bucket is locked: a lock taken in hoop h expires at the boundary that ends hoop h + 1. -/
def State.locked (s : State) (t i : Nat) : Bool :=
  s.tbl.locks.any (fun k => k.table = t && k.bucket = i && s.hoopCount < k.hoop + 2)

/-- Locks held: TBL_STATUS.LOCKS as it reads. -/
def State.locksHeld (s : State) : Nat := (s.tbl.locks.filter (fun k => s.hoopCount < k.hoop + 2)).length

def State.setTbl (s : State) (f : Tables → Tables) : State := { s with tbl := f s.tbl }

/-- Releases the lock of a bucket; one that has expired stays until its expiry has been reported. -/
def State.unlock (s : State) (t i : Nat) : State :=
  s.setTbl (fun b => { b with locks := b.locks.filter (fun k => !(k.table = t && k.bucket = i && s.hoopCount < k.hoop + 2)) })

/-- The bucket of the active bank that holds an address. -/
def State.bucketOf (s : State) (t a : Nat) : Nat := (a - s.bktAt t (s.tblActive t) 0) / bktBytes t

/-! ## Insertion (R164) -/

/-- What the insertion of R164 comes to: the writes it makes in order and the moves made, or why it makes none. -/
inductive Insertion where
  | done (writes : List (Nat × Bytes)) (moves : Nat)
  | deferred (moves : Nat)
  | failed (moves : Nat)

/-- The lowest free slot of a bucket; all slots of one with a double-bit error are free. -/
def State.freeSlot (s : State) (t i : Nat) : Option Nat :=
  if (s.scrub t (s.tblActive t) i).1 then some 0 else (List.range 4).find? (fun j => !eValid (s.entry t i j))

/-- The walk of moves from bucket `cur`: `path` holds the victims so far, latest first, as bucket and slot address. -/
def State.moves (s : State) (t : Nat) (e : Bytes) (b1 : Nat) (cur : Nat) (path : List (Nat × Nat)) : Nat → Insertion
  | 0 => .failed path.length
  | fuel + 1 =>
    let m := path.length
    let c := s.cands t (s.tblActive t) (eKey t (s.entry t cur (m % 4)))
    let alt := if c.1 = cur then c.2 else c.1
    if s.locked t alt then .deferred m
    else if alt = b1 ∨ path.any (fun p => p.1 = alt) then .failed m
    else
      let path1 := (cur, s.slotAt t cur (m % 4)) :: path
      match s.freeSlot t alt with
      | none => s.moves t e b1 alt path1 fuel
      | some j =>
        let addrs := path1.map (fun p => p.2)
        .done ((s.slotAt t alt j :: addrs).zip (addrs.map (fun a => s.ram a (entBytes t)) ++ [e])) (m + 1)

/-- The insertion of entry `e` into the active bank. The candidate it would write to, or move an entry out of, defers it while locked: a
lock holds off learning and INSERT on its bucket (R170; DEDUCED, log 75). -/
def State.insertion (s : State) (t : Nat) (e : Bytes) : Insertion :=
  let c := s.cands t (s.tblActive t) (eKey t e)
  let at_ (i j : Nat) : Insertion := if s.locked t i then .deferred 0 else .done [(s.slotAt t i j, e)] 0
  match s.freeSlot t c.1 with
  | some j => at_ c.1 j
  | none =>
    match s.freeSlot t c.2 with
    | some j => at_ c.2 j
    | none => if s.locked t c.1 then .deferred 0 else s.moves t e c.1 c.1 [] 8

/-- The cycles of an insertion (R168). -/
def Insertion.cost : Insertion → Nat
  | .done _ k => 3 + 2 * k
  | .deferred k => 2 + k
  | .failed k => 2 + k

/-- One write of an insertion; a bucket with a double-bit error is emptied first. -/
def State.putOne (t : Nat) (s : State) (w : Nat × Bytes) : State :=
  (s.scrub t (s.tblActive t) (s.bucketOf t w.1)).2.setBkt w.1 w.2

/-- Makes the writes of an insertion: each moved entry is copied before its slot is overwritten. -/
def State.putAll (s : State) (t : Nat) (ws : List (Nat × Bytes)) : State := ws.foldl (State.putOne t) s

/-- A failed insertion is latched and reported (R165); a later one while VALID is set only counts. -/
def State.insertFailed (s : State) (t port : Nat) (e : Bytes) : State :=
  if s.flag (Rg.TBL_FAIL t) Fl.TBL_FAIL_VALID then
    s.sf (Rg.TBL_FAIL t) Fl.TBL_FAIL_COUNT (Nat.min 255 (s.fd (Rg.TBL_FAIL t) Fl.TBL_FAIL_COUNT + 1))
  else
    let c := s.cands t (s.tblActive t) (eKey t e)
    let s1 := ((s.wr (Rg.TBL_FAIL t) (1 + 2 * port)).noteSet (Rg.TBL_FAIL t).addr 1).wrBytes (Rg.TBL_FAIL_KEY t) (slice e 0 64)
    (s1.setBit Rg.TBL_INT_STATUS 1).raise 0x0701 noPort (t + c.1 % 65536 * 2 ^ 16 + c.2 % 65536 * 2 ^ 48)

/-! ## The order of the maintenance engine (R168) -/

/-- Whether a table's insertions and ageing are suspended (R172). -/
def State.tblHeld (s : State) (t : Nat) : Bool := s.tblState t != 0

/-- The ring's size, and whether descriptors wait. -/
def State.dmaSize (s : State) : Nat := 2 ^ s.fd Rg.TBL_DMA_SIZE Fl.TBL_DMA_SIZE_LOG2
def State.dmaTail (s : State) : Nat := s.rd Rg.TBL_DMA_TAIL % s.dmaSize
def State.dmaWaits (s : State) : Bool := s.rd Rg.TBL_DMA_HEAD % s.dmaSize != s.dmaTail

/-- The engine works while the part runs; in DOZE it stops. -/
def State.engineOn (s : State) : Bool := s.pwr.phase = .run

/-- Learning waits for DMA, and ageing for both, until their budgets are spent. -/
def State.learnTurn (s : State) : Bool := s.engineOn && (!s.dmaWaits || s.stopped 2)
def State.ageTurn (s : State) : Bool := s.learnTurn && (s.tbl.learnQ.isEmpty || s.stopped 0 || s.tblHeld 1)

/-! ## Learning (R163 to R165) -/

/-- A learned entry: KIND 0, DEST the ingress port, ACTION the FLOOD_ACT of its VID. -/
def State.learnedEntry (s : State) (r : LearnReq) : Bytes :=
  eMake 1 0xA0 (beBytes 2 r.vid ++ r.mac) (beBytes 2 r.port ++ beBytes 4 (s.fd (Rg.TBL_VLAN r.vid) Fl.TBL_VLAN_FLOOD_ACT))

/-- A request that meets a locked bucket goes back to the tail of the queue. -/
def State.learnDefer (s : State) (r : LearnReq) : State :=
  (s.setTbl (fun b => { b with learnQ := b.learnQ ++ [r] })).count (tblC 4)

/-- The key of a learning request. -/
def LearnReq.key (r : LearnReq) : Bytes := beBytes 2 r.vid ++ r.mac

/-- What a request comes to where both candidates have been read: its cost and its effect. A lock on the bucket of a known address defers
its move (R170). -/
def State.learnItem (s : State) (r : LearnReq) : Nat × (State → State) :=
  if s.tblSize 1 = 0 then (3, id)
  else
    match s.find 1 r.key with
    | some a =>
      let e := s.ram a 16
      if be e 10 2 = r.port then (3, id)
      else if ePinned e then (3, fun t => t.count (tblC 6))
      else if s.locked 1 (s.bucketOf 1 a) then (2, fun t => t.learnDefer r)
      else (3, fun t => ((t.setBkt (a + 10) (beBytes 2 r.port)).touch a).count (tblC 1))
    | none =>
      let e := s.learnedEntry r
      let i := s.insertion 1 e
      (i.cost, fun t =>
        match i with
        | .done ws _ => (t.putAll 1 ws).count (tblC 0)
        | .deferred _ => t.learnDefer r
        | .failed _ => (t.count (tblC 3)).insertFailed 1 r.port e)

/-- A learning request is dropped: counted, and reported at the first of a hoop (R163). -/
def State.learnDrop (s : State) : State :=
  let m := s.mark (0x0705 * 65536)
  let t := m.2.count (tblC 2)
  if m.1 = 1 then t.raise 0x0705 noPort 1 else t

/-- The word of memory 11 of R347 that holds the oldest learning request. -/
def learnWord : Nat := 0x1000

/-- LEARN_REQUEST_PROCESS (R164): the engine takes the oldest learning request; one with a double-bit error is discarded (R347). -/
def State.learnProcess (s : State) : State :=
  match s.tbl.learnQ with
  | [] => s
  | r :: q =>
    if ¬ s.learnTurn ∨ s.tblHeld 1 then s
    else
      let next (t : State) : State := t.setTbl (fun b => { b with learnQ := q })
      if s.isBad 11 learnWord then (next ((s.dbeSeen 11 learnWord).mended 11 learnWord)).learnDrop
      else
        let i := (s.scrubKey 1 r.key).learnItem r
        s.item 0 i.1 (fun t => i.2 (next ((t.sbeAt 11 learnWord).scrubKey 1 r.key)))

def execLearnRequestProcess (s : State) : Host.Outcome State Fault Refusal := .next s.learnProcess

/-! ## Ageing (R166, R167) -/

/-- The first bucket due in the hoop of full count `n`, and how many are due. -/
def State.ageDue (s : State) (t n : Nat) : Nat × Nat :=
  let h := s.fd (Rg.TBL_AGE t) Fl.TBL_AGE_HOOPS
  let sz := s.tblSize t
  if h = 0 ∨ sz = 0 then (0, 0)
  else
    let m := n % h
    let a := cdiv (m * sz) h
    (a, cdiv ((m + 1) * sz) h - a)

/-- Buckets a table's scan still has to visit, and the next of them. -/
def State.scanOwed (s : State) (t : Nat) : Nat := sget s.tbl.scanPos (8 + t) 0
def State.scanNext (s : State) (t : Nat) : Nat := sget s.tbl.scanPos t 0

/-- Sets the scan of a table. -/
def State.setScan (s : State) (t next owed : Nat) : State :=
  s.setTbl (fun b => { b with scanPos := sset (sset b.scanPos t 0 next) (8 + t) 0 owed })

/-- Whether the scan of a table has been resumed after DOZE and goes on from where it stopped (R168); and sets that. -/
def State.scanResumed (s : State) (t : Nat) : Bool := sget s.tbl.scanPos (16 + t) 0 = 1
def State.setResumed (s : State) (t n : Nat) : State := s.setTbl (fun b => { b with scanPos := sset b.scanPos (16 + t) 0 n })

/-- At a boundary: the buckets of the new hoop join those left over; a suspended scan counts nothing. A scan that DOZE has stopped goes on
from where it stopped, as many buckets a hoop as are due. -/
def State.ageBoundary (s : State) (t : Nat) : State :=
  if s.tblHeld t then (s.setScan t 0 0).setResumed t 0
  else
    let d := s.ageDue t s.hoopCount
    if s.scanOwed t = 0 ∧ ¬ s.scanResumed t then s.setScan t d.1 d.2 else s.setScan t (s.scanNext t) (s.scanOwed t + d.2)

/-- One slot at a visit: an idle unpinned entry goes, an active one is marked idle, both at the end of the cycle (R167). -/
def State.ageSlot (t i : Nat) (s : State) (j : Nat) : State :=
  let e := s.entry t i j
  let a := s.slotAt t i j
  if ¬ eValid e ∨ ePinned e ∨ (¬ eActive e ∧ s.hoopCount < sget s.tbl.scanHold t 0) then s
  else { s with cyc := { s.cyc with ages := s.cyc.ages ++ [(a, if eActive e then 0 else entBytes t, e)] } }

/-- AGEING_VISIT (R166): the scan visits the next bucket due, of the first table that has one; a locked one is skipped. -/
def State.ageVisit (s : State) : State :=
  match [1, 2, 3].find? (fun t => s.scanOwed t > 0 && !s.tblHeld t) with
  | none => s
  | some t =>
    if ¬ s.ageTurn then s
    else
      s.item 1 2 (fun u =>
        let i := u.scanNext t
        let u1 := u.setScan t ((i + 1) % u.tblSize t) (u.scanOwed t - 1)
        if u1.locked t i then u1 else (List.range 4).foldl (State.ageSlot t i) (u1.scrub t (u1.tblActive t) i).2)

def execAgeingVisit (s : State) : Host.Outcome State Fault Refusal := .next s.ageVisit

/-! ## Action records (R157 to R162) -/

/-- Action record `i`, its state, and its counters. -/
def State.actRec (s : State) (i : Nat) : Bytes := s.ram (Mm.act + 32 * i) 32
def State.actLive (s : State) (i : Nat) : Bool := s.tbl.live.contains i
def State.actGrace (s : State) (i : Nat) : Bool := s.tbl.grace.any (fun g => g.1 = i)

/-- Adds `n` to counter `k` of action record `i` (R162): 0 = frames, 1 = bytes, 2 = red, 3 = refused. -/
def State.credit (s : State) (i k n : Nat) : State :=
  let a := Mm.actCnt + 32 * i + 8 * k
  s.setRam a (beBytes 8 (s.ramBe a 8 + n))

/-- Whether an action record breaks R159, DEFAULT_ACT aside. -/
def actBad (r : Bytes) : Bool :=
  let b := byteAt r 0
  let kind := b / 32 % 4
  let dest := be r 2 2
  let rw := byteAt r 8
  let arg := be r 12 4
  byteAt r 1 % 16 != 0 || dest ≥ 4096 || bitOf (byteAt r 4) 6 || be r 9 3 != 0 || be r 16 16 != 0
    || (kind = 1 && (dest = 49 || dest > 51)) || byteAt r 6 > 63 || (b % 2 = 0 && byteAt r 6 != 0) || rw > 6
    || (match rw with
        | 1 => arg ≥ 65536
        | 3 => arg ≥ 4096
        | 4 => arg ≥ 65536
        | 6 => arg &&& 0xFFFF03 != arg || arg % 4 = 3
        | _ => arg != 0)

/-- Whether some port's DEFAULT_ACT names a record. -/
def State.isDefault (s : State) (i : Nat) : Bool :=
  (List.range 52).any (fun p => s.fd (Rg.TBL_PORT_CFG p) Fl.TBL_PORT_CFG_DEFAULT_ACT = i)

/-- Whether a record may stand at index `i` (R159). -/
def State.actOk (s : State) (i : Nat) (r : Bytes) : Bool := !actBad r && !(byteAt r 0 / 32 % 4 = 0 && s.isDefault i)

/-! ## Management DMA (R169 to R171) -/

/-- A DMA descriptor. -/
structure DmaDesc where
  op    : Nat
  table : Nat
  bank  : Nat
  irq   : Bool
  index : Nat
  addr  : Nat
  deriving DecidableEq, Repr

/-- The descriptor at an address of management memory. -/
def State.dmaDesc (s : State) (a : Nat) : DmaDesc :=
  let w := s.memLe a 4
  ⟨w % 16, w / 16 % 8, w / 128 % 2, bitOf w 8, s.memLe (a + 4) 4 % 2 ^ 17, s.memLe (a + 8) 8⟩

/-- Bucket slots of an image. -/
def slotsOf (t : Nat) (img : Bytes) : List Bytes := (List.range 4).map (fun j => slice img (j * entBytes t) (entBytes t))

/-- Whether an entry may stand in a table: its action number (R160), and for BMAP its route (R262). -/
def State.entryOk (s : State) (t : Nat) (e : Bytes) : Bool := eAction t e < 65536 && (t != 3 || s.routeOk (e.drop 4))

/-- Whether a bucket image may stand in bucket `i` of a bank (R160, R171). -/
def State.imageOk (s : State) (t bank i : Nat) (img : Bytes) : Bool :=
  (slotsOf t img).all (fun e => !eValid e
    || (((s.cands t bank (eKey t e)).1 = i || (s.cands t bank (eKey t e)).2 = i) && s.entryOk t e))

/-- A bucket image with the ACTIVE bits of the bucket's entries of the same keys kept (R171). -/
def keepActive (t : Nat) (old img : Bytes) : Bytes :=
  (slotsOf t img).flatMap (fun e =>
    if eValid e && (slotsOf t old).any (fun o => eValid o && eActive o && eKey t o = eKey t e) then eFlag e 32 true else e)

/-- The outcome of a descriptor: status, cycles, effect. -/
abbrev DmaOut := Nat × Nat × (State → State)

/-- READ: bucket, entry or record to ADDR. DESIGN CHOICE (log 156): BANK 1 of table 4 or 5, which have no second bank, ends BAD_OP. -/
def State.dmaRead (s : State) (d : DmaDesc) : DmaOut :=
  let out (a n : Nat) (read : State → State) : DmaOut :=
    if s.inMgmt d.addr n then (1, 1, fun t => (read t).setMem d.addr (t.ram a n)) else (5, 1, id)
  if 1 ≤ d.table ∧ d.table ≤ 3 then
    if s.tblSize d.table = 0 then (5, 1, id)
    else if d.bank = 1 ∧ s.tblSingle d.table then (6, 1, id)
    else if d.index ≥ s.tblSize d.table ∨ ¬ s.inMgmt d.addr (bktBytes d.table) then (5, 1, id)
    else
      let bank := if d.bank = 0 then s.tblActive d.table else 1 - s.tblActive d.table
      let read (u : State) : State := (u.scrub d.table bank d.index).2
      if (s.scrub d.table bank d.index).1 then (8, 1, read) else out (s.bktAt d.table bank d.index) (bktBytes d.table) read
  else if (d.table = 4 ∨ d.table = 5) ∧ d.bank = 0 then
    if d.index ≥ 65536 ∨ ¬ s.inMgmt d.addr (if d.table = 4 then 8 else 32) then (5, 1, id)
    else if d.table = 4 then
      let read (u : State) : State := (u.scrubNode d.index).2
      if (s.scrubNode d.index).1 then (8, 1, read) else out (Mm.node + 8 * d.index) 8 read
    else
      match s.badIn 2 (Mm.act + 32 * d.index) 32 with
      | some x => (8, 1, fun t => t.fatalDbe 2 x)
      | none => out (Mm.act + 32 * d.index) 32 (fun u => u.sbeIn 2 (Mm.act + 32 * d.index) 32)
  else (6, 1, id)

/-- LOCKED_READ: the bucket to ADDR, and a lock on it; one taken in the boundary cycle belongs to the new hoop (R170). -/
def State.dmaLockedRead (s : State) (d : DmaDesc) : DmaOut :=
  let t := d.table
  if ¬ (1 ≤ t ∧ t ≤ 3) ∨ d.bank = 1 ∨ s.tblSize t = 0 then (6, 1, id)
  else if d.index ≥ s.tblSize t ∨ ¬ s.inMgmt d.addr (bktBytes t) then (5, 1, id)
  else
    let bank := s.tblActive t
    let read (u : State) : State := (u.scrub t bank d.index).2
    if (s.scrub t bank d.index).1 then (8, 1, read)
    else
      let copy (u : State) : State := (read u).setMem d.addr (u.ram (u.bktAt t bank d.index) (bktBytes t))
      if s.locked t d.index then (4, 1, copy)
      else if s.locksHeld ≥ 64 then (9, 1, id)
      else (1, 1, fun u => (copy u).setTbl (fun b =>
        { b with locks := b.locks ++ [⟨t, d.index, u.hoopCount + b2n u.boundDue⟩], expired := b.expired.filter (· != (t, d.index)) }))

/-- Status of an UNLOCK or WRITE_UNLOCK whose bucket is not locked. -/
def State.unlockStatus (s : State) (t i : Nat) : Nat :=
  if s.tbl.expired.contains (t, i) ∨ s.tbl.locks.any (fun k => k.table = t && k.bucket = i) then 2 else 3

/-- WRITE_UNLOCK: the bucket from ADDR, and the lock released. -/
def State.dmaWriteUnlock (s : State) (d : DmaDesc) : DmaOut :=
  let t := d.table
  if ¬ (1 ≤ t ∧ t ≤ 3) ∨ d.bank = 1 ∨ s.tblSize t = 0 then (6, 1, id)
  else if s.tblHeld t then (7, 1, fun u => u.unlock t d.index)
  else if d.index ≥ s.tblSize t ∨ ¬ s.inMgmt d.addr (bktBytes t) then (5, 1, id)
  else if ¬ s.locked t d.index then (s.unlockStatus t d.index, 1, id)
  else
    let a := s.bktAt t (s.tblActive t) d.index
    let img := s.mem d.addr (bktBytes t)
    if ¬ s.imageOk t (s.tblActive t) d.index img then (11, 1, id)
    else (1, 1, fun u =>
      let v := (u.scrub t (u.tblActive t) d.index).2
      (v.setBkt a (keepActive t (v.ram a (bktBytes t)) img)).unlock t d.index)

/-- UNLOCK. -/
def State.dmaUnlock (s : State) (d : DmaDesc) : DmaOut :=
  let t := d.table
  if ¬ (1 ≤ t ∧ t ≤ 3) ∨ d.bank = 1 ∨ s.tblSize t = 0 then (6, 1, id)
  else if d.index ≥ s.tblSize t then (5, 1, id)
  else if ¬ s.locked t d.index then (s.unlockStatus t d.index, 1, id)
  else (1, 1, fun u => u.unlock t d.index)

/-- Counts a standby bucket as written since PREPARE. -/
def State.markWritten (s : State) (t i : Nat) : State :=
  if s.tbl.written.contains (t, i) then s
  else (s.setTbl (fun b => { b with written := (t, i) :: b.written })).sf (Rg.TBL_BANK_STATUS t) Fl.TBL_BANK_STATUS_WRITTEN
    (s.fd (Rg.TBL_BANK_STATUS t) Fl.TBL_BANK_STATUS_WRITTEN + 1)

/-- WRITE: a standby bucket of a PREPARED table, or a NODE entry. -/
def State.dmaWrite (s : State) (d : DmaDesc) : DmaOut :=
  let t := d.table
  if 1 ≤ t ∧ t ≤ 3 then
    if d.index ≥ s.tblSize t ∨ ¬ s.inMgmt d.addr (bktBytes t) then (5, 1, id)
    else if d.bank = 0 ∧ s.tblHeld t then (7, 1, fun u => u.unlock t d.index)
    else if d.bank = 0 ∨ s.tblState t ≠ 1 then (6, 1, id)
    else
      let bank := 1 - s.tblActive t
      let img := s.mem d.addr (bktBytes t)
      if ¬ s.imageOk t bank d.index img then (11, 1, id)
      else (1, 1, fun u => ((u.setRam (u.bktAt t bank d.index) img).mendedIn 1 (u.bktAt t bank d.index) (bktBytes t)).markWritten t d.index)
  else if t = 4 ∧ d.bank = 0 then
    if d.index ≥ 65536 ∨ ¬ s.inMgmt d.addr 8 then (5, 1, id)
    else
      let img := s.mem d.addr 8
      if eValid img ∧ be img 4 4 ≥ 65536 then (11, 1, id)
      else (1, 1, fun u => (u.setRam (Mm.node + 8 * d.index) img).mendedIn 1 (Mm.node + 8 * d.index) 8)
  else (6, 1, id)

/-- ACT_WRITE: a FREE record is written, its counters zeroed; it is LIVE. -/
def State.dmaActWrite (s : State) (d : DmaDesc) : DmaOut :=
  if d.table ≠ 5 ∨ d.bank = 1 then (6, 1, id)
  else if d.index ≥ 65536 ∨ ¬ s.inMgmt d.addr 32 then (5, 1, id)
  else if s.actLive d.index ∨ s.actGrace d.index then (10, 1, id)
  else
    let r := s.mem d.addr 32
    if ¬ s.actOk d.index r then (11, 1, id)
    else (1, 1, fun u => (((u.setRam (Mm.act + 32 * d.index) r).mendedIn 2 (Mm.act + 32 * d.index) 32).setRam (Mm.actCnt + 32 * d.index)
      (zeros 32)).setTbl (fun b => { b with live := d.index :: b.live }))

/-- ACT_FREE: a LIVE record enters GRACE until the second boundary. -/
def State.dmaActFree (s : State) (d : DmaDesc) : DmaOut :=
  if d.table ≠ 5 ∨ d.bank = 1 then (6, 1, id)
  else if d.index ≥ 65536 then (5, 1, id)
  else if ¬ s.actLive d.index then (10, 1, id)
  else (1, 1, fun u => u.setTbl (fun b => { b with live := b.live.filter (· != d.index), grace := b.grace ++ [(d.index, if u.boundDue then 3 else 2)] }))

/-- ACT_READ: the record, then its counters as 64-bit little-endian words. -/
def State.dmaActRead (s : State) (d : DmaDesc) : DmaOut :=
  if d.table ≠ 5 ∨ d.bank = 1 then (6, 1, id)
  else if d.index ≥ 65536 ∨ ¬ s.inMgmt d.addr 64 then (5, 1, id)
  else
    match s.badIn 2 (Mm.act + 32 * d.index) 32 with
    | some x => (8, 1, fun u => u.fatalDbe 2 x)
    | none => (1, 1, fun u => (u.sbeIn 2 (Mm.act + 32 * d.index) 32).setMem d.addr (u.actRec d.index
        ++ (List.range 4).flatMap (fun k => leBytes 8 (u.ramBe (Mm.actCnt + 32 * d.index + 8 * k) 8))))

/-- INSERT: the entry of the image placed by R164, or its result replaced. DESIGN CHOICE (log 155): one that is refused before its insertion
begins (status 5, 6, 7 or 11) costs 1 cycle. -/
def State.dmaInsert (s : State) (d : DmaDesc) : DmaOut :=
  let t := d.table
  if ¬ (1 ≤ t ∧ t ≤ 3) ∨ d.bank = 1 ∨ s.tblSize t = 0 then (6, 1, id)
  else if s.tblHeld t then (7, 1, id)
  else if ¬ s.inMgmt d.addr (entBytes t) then (5, 1, id)
  else
    let img := s.mem d.addr (entBytes t)
    let e := eFlag (eFlag img 128 true) 32 true
    if ¬ s.entryOk t e then (11, 1, id)
    else
      let v := s.scrubKey t (eKey t e)
      let read (f : State → State) (u : State) : State := f (u.scrubKey t (eKey t e))
      match v.find t (eKey t e) with
      | some a => if v.locked t (v.bucketOf t a) then (14, 2, read id) else (1, 3, read (fun u => u.setBkt a e))
      | none =>
        let i := v.insertion t e
        match i with
        | .done ws _ => (1, i.cost, read (fun u => u.putAll t ws))
        | .deferred _ => (14, i.cost, read id)
        | .failed _ => (13, i.cost, read (fun u => u.insertFailed t 63 e))

/-- DELETE: the entry of a key goes. -/
def State.dmaDelete (s : State) (d : DmaDesc) : DmaOut :=
  let t := d.table
  if ¬ (1 ≤ t ∧ t ≤ 3) ∨ d.bank = 1 ∨ s.tblSize t = 0 then (6, 3, id)
  else if s.tblHeld t then (7, 3, id)
  else if ¬ s.inMgmt d.addr (entBytes t) then (5, 3, id)
  else
    let key := eKey t (s.mem d.addr (entBytes t))
    let v := s.scrubKey t key
    let read (f : State → State) (u : State) : State := f (u.scrubKey t key)
    match v.find t key with
    | none => (15, 3, read id)
    | some a => if v.locked t (v.bucketOf t a) then (14, 3, read id) else (1, 3, read (fun u => u.setBkt a (zeros (entBytes t))))

/-- The descriptor at TAIL, when its OP is `op` or none of the operations, is executed by `run`: its effect, its STATUS, the
advance of TAIL, and the interrupt it asks for. -/
def State.dmaStep (s : State) (op : Nat) (run : State → DmaDesc → DmaOut) : State :=
  if ¬ s.engineOn ∨ ¬ s.dmaWaits then s
  else
    let a := s.rd Rg.TBL_DMA_BASE + 16 * s.dmaTail
    let d := s.dmaDesc a
    let known := 1 ≤ d.op ∧ d.op ≤ 10
    if known ∧ d.op ≠ op then s
    else
      let o : DmaOut := if known then run s d else (6, 1, id)
      s.item 2 o.2.1 (fun t =>
        let t1 := ((o.2.2 t).setMem (a + 2) (leBytes 1 o.1)).wr Rg.TBL_DMA_TAIL ((t.dmaTail + 1) % t.dmaSize)
        if d.irq then t1.setBit Rg.TBL_INT_STATUS 0 else t1)

/-- The DMA operations (R169), each taking the descriptor at TAIL; READ and ACT_READ, which can meet a fatal fault, are in Fatal. -/
def execDmaLockedRead (s : State) : Host.Outcome State Fault Refusal := .next (s.dmaStep 2 State.dmaLockedRead)
def execDmaWriteUnlock (s : State) : Host.Outcome State Fault Refusal := .next (s.dmaStep 3 State.dmaWriteUnlock)
def execDmaUnlock (s : State) : Host.Outcome State Fault Refusal := .next (s.dmaStep 4 State.dmaUnlock)
def execDmaWrite (s : State) : Host.Outcome State Fault Refusal := .next (s.dmaStep 5 State.dmaWrite)
def execDmaActWrite (s : State) : Host.Outcome State Fault Refusal := .next (s.dmaStep 6 State.dmaActWrite)
def execDmaActFree (s : State) : Host.Outcome State Fault Refusal := .next (s.dmaStep 7 State.dmaActFree)
def execDmaInsert (s : State) : Host.Outcome State Fault Refusal := .next (s.dmaStep 9 State.dmaInsert)
def execDmaDelete (s : State) : Host.Outcome State Fault Refusal := .next (s.dmaStep 10 State.dmaDelete)

/-! ## Grace and lock expiry at boundaries (R161, R170) -/

/-- ACT_GRACE_END (R161): a record freed two boundaries ago is FREE. -/
def State.graceEnd (s : State) (i : Nat) : State :=
  s.setTbl (fun b => { b with grace := b.grace.filter (fun g => !(g.1 = i && g.2 = 0)) })

def execActGraceEnd (index : Fin 65536) (s : State) : Host.Outcome State Fault Refusal := .next (s.graceEnd index.val)

/-- TBL_LOCK_EXPIRED (R170): the lock at `n` of the list of locks, taken two hoops ago or earlier, has expired. -/
def State.lockExpired (s : State) (n : Nat) : State :=
  match s.tbl.locks[n]? with
  | none => s
  | some k =>
    if s.hoopCount < k.hoop + 2 then s
    else
      let s1 := s.setTbl (fun b => { b with
        locks := b.locks.eraseIdx n
        expired := if s.locked k.table k.bucket then b.expired else (k.table, k.bucket) :: b.expired })
      ((s1.count (tblC 11)).setBit Rg.TBL_INT_STATUS 2).raise 0x0702 noPort (k.table + 256 * k.bucket)

def execTblLockExpired (index : Nat) (s : State) : Host.Outcome State Fault Refusal := .next (s.lockExpired index)

/-! ## Rehashing (R172, R173) -/

/-- A command that TBL_BANK_CTRL does not accept. -/
def State.bankRefused (s : State) (t cmd : Nat) : State :=
  (s.setBit (Rg.TBL_BANK_STATUS t) Fl.TBL_BANK_STATUS_REFUSED.lo).ignored (Rg.TBL_BANK_CTRL t).addr cmd

/-- Whether `t` is one of the hashed tables. -/
def hashed (t : Nat) : Bool := 1 ≤ t && t ≤ 3

/-- TBL_PREPARE (R172). -/
def State.tblPrepare (s : State) (t : Nat) : State :=
  if ¬ hashed t then s
  else if s.tblState t ≠ 0 ∨ s.tblSingle t then s.bankRefused t 1
  else
    let s1 := s.setTbl (fun b => { b with prepSeed := sset b.prepSeed t 0 (s.rd64 (Rg.TBL_SEED_STBY t)), written := b.written.filter (·.1 != t) })
    (s1.sf (Rg.TBL_BANK_STATUS t) Fl.TBL_BANK_STATUS_WRITTEN 0).sf (Rg.TBL_BANK_STATUS t) Fl.TBL_BANK_STATUS_STATE 1

def execTblPrepare (t : Fin 4) (s : State) : Host.Outcome State Fault Refusal := .next (s.fw (·.tblPrepare t.val))

/-- TBL_COMMIT (R172). -/
def State.tblCommit (s : State) (t : Nat) : State :=
  if ¬ hashed t then s
  else if s.tblState t ≠ 1 ∨ s.fd (Rg.TBL_BANK_STATUS t) Fl.TBL_BANK_STATUS_WRITTEN ≠ s.tblSize t then s.bankRefused t 2
  else (s.sf (Rg.TBL_BANK_STATUS t) Fl.TBL_BANK_STATUS_STATE 2).noteAsk Ask.table t

def execTblCommit (lapse : Nat) (t : Fin 4) (s : State) : Host.Outcome State Fault Refusal :=
  .next ((s.advance lapse).fw (·.tblCommit t.val))

/-- TBL_ABORT (R172). -/
def State.tblAbort (s : State) (t : Nat) : State :=
  if ¬ hashed t then s
  else if s.tblState t ≠ 1 then s.bankRefused t 3
  else s.sf (Rg.TBL_BANK_STATUS t) Fl.TBL_BANK_STATUS_STATE 0

def execTblAbort (t : Fin 4) (s : State) : Host.Outcome State Fault Refusal := .next (s.fw (·.tblAbort t.val))

/-- At a boundary a pending commit takes effect (R173), unless it was written in the boundary cycle (R51). -/
def State.commitBoundary (s : State) (t : Nat) : State :=
  if s.tblState t ≠ 2 ∨ s.askedLate Ask.table t then s
  else
    let a := 1 - s.tblActive t
    let s1 := (s.wr (Rg.TBL_BANK_STATUS t) (a + withField (s.rd (Rg.TBL_BANK_STATUS t)) ⟨0, 3⟩ 0)).wr64 (Rg.TBL_SEED t) (sget s.tbl.prepSeed t 0)
    let s2 := s1.setTbl (fun b =>
      { b with scanHold := sset b.scanHold t 0 (s.hoopCount + s.fd (Rg.TBL_AGE t) Fl.TBL_AGE_HOOPS) })
    (s2.setBit Rg.TBL_INT_STATUS 3).raise 0x0703 noPort (t + 8 * a + s.hoopIx * 2 ^ 32)

/-- The tables at a boundary: commits, graces, the buckets due, and the budgets. -/
def State.tblBoundary (s : State) : State :=
  let s1 := [1, 2, 3].foldl State.commitBoundary s.countCarries
  let s2 := s1.setTbl (fun b => { b with grace := b.grace.map (fun g => (g.1, g.2 - 1)), spent := [], carried := [] })
  [1, 2, 3].foldl State.ageBoundary s2

end Sys2Proof.Machine
end

