-- ==== Sys2Proof/Machine/Pool.lean ====
section
/-! DEFINITION. Cells, copies and occupancies of the packet buffer (R176, R183 to R186), the cut-through conditions of R189,
and policers (R195 to R200). -/

namespace Sys2Proof.Machine

/-- The frame length L (R90, R105): FCS included for Ethernet and T1S, 16 + data length for CAN; of a frame whose reception was cut, the
bytes held (R183). -/
def Frame.L (f : Frame) : Nat := if f.isCan || f.cut then f.data.length else f.data.length + 4

/-- Cells of `n` bytes (R176). -/
def cellsOf (n : Nat) : Nat := cdiv (n + 32) 128

/-- Cells charged to limit `k` (1 = RSV_MGMT, 2 = RSV_RECIRC, 3 = RSV_EMIT) by a list of copies. -/
def shareOcc (l : List Frame) (k : Nat) : Nat := (l.filter (fun f => f.limit = k)).foldl (fun a f => a + f.charge) 0

/-- Cells charged to the BUF_LIMIT of queue (p, c): BUF_OCC. -/
def queueOcc (l : List Frame) (p c : Nat) : Nat :=
  (l.filter (fun f => f.limit = 0 && f.egress = p && f.cls = c)).foldl (fun a f => a + f.charge) 0

/-- The depth of queue (p, c) in cells at the boundary, whatever limit its copies are charged to (R214). -/
def State.depth (s : State) (p c : Nat) : Nat :=
  (s.dueCopies.filter (fun f => f.egress = p && f.cls = c)).foldl (fun a f => a + f.charge) 0

/-- BUF_OCC as it reads. -/
def State.occ (s : State) (p c : Nat) : Nat := queueOcc s.copies p c

/-- Cells in use: a head cell for each copy, and the later cells of a frame once for all its copies (R188). They return to the pool with
the last copy that holds them, whatever a rewrite makes of its bytes (R186). -/
def cellsUsed : List Frame → List Nat → Nat
  | [], _ => 0
  | f :: t, seen =>
    if seen.contains f.fid then 1 + cellsUsed t seen else f.cells.length + cellsUsed t (f.fid :: seen)

/-- BUF_POOL_FREE as it reads. -/
def State.poolFree (s : State) : Nat := 65536 - cellsUsed s.copies []

/-- The `n` lowest pointers from `k` on that are not in use. DESIGN CHOICE (log 141): the manual does not say which free cell a frame
takes. -/
def lowestFree (used : List Nat) : Nat → Nat → Nat → List Nat
  | 0, _, _ => []
  | fuel + 1, k, n =>
    if n = 0 then []
    else if used.contains k then lowestFree used fuel (k + 1) n
    else k :: lowestFree used fuel (k + 1) (n - 1)

/-- Pointers for `n` cells. -/
def State.freeCells (s : State) (n : Nat) : List Nat :=
  let used := s.copies.flatMap (·.cells)
  lowestFree used (used.length + n) 0 n

/-- The cells of one frame's admitted copies: a head cell each, then the shared cells (R188). Writing a cell makes its check bits good. -/
def State.giveCells (s : State) (cs : List Frame) : List Frame × State :=
  match cs with
  | [] => ([], s)
  | f :: _ =>
    let p := s.freeCells (cs.length + cellsOf f.L - 1)
    let body := p.drop cs.length
    let mine (e : Nat × Nat) : Bool := e.1 = 0 && p.any (fun c => (Mm.cells + 128 * c) / 128 = e.2 / 128 || (Mm.link + 2 * c) / 8 = e.2 / 8)
    ((cs.zip p).map (fun x => { x.1 with cells := x.2 :: body }), { s with dbe := s.dbe.filter (fun e => !mine e), sbe := s.sbe.filter (fun e => !mine e) })

/-- The descriptor of a copy, bytes 0 to 31 of its head cell (R177). -/
def Frame.descriptor (f : Frame) : Bytes :=
  let ns := unsigned 48 (f.ts / 65536)
  leBytes 4 (f.L % 2 ^ 14 + f.src * 2 ^ 14 + f.bank * 2 ^ 20 + b2n f.pass * 2 ^ 22 + f.cls * 2 ^ 23 + f.colour * 2 ^ 26 + f.rewrite * 2 ^ 28)
    ++ leBytes 4 (b2n f.ct + b2n f.evidence * 2 + b2n f.capture * 4 + b2n f.bridge * 8 + b2n f.tsCap * 16 + b2n f.launchV * 32
      + b2n f.stomp * 64 + f.egress * 2 ^ 7 + f.seq * 2 ^ 13)
    ++ leBytes 4 f.action ++ leBytes 4 f.rwArg ++ leBytes 4 ns ++ leBytes 4 (ns / 2 ^ 32) ++ leBytes 4 f.launch ++ leBytes 4 (f.launch / 2 ^ 32)

/-- The bytes of a frame as its cells hold them (R176): with the FCS that L counts. DEDUCED (log 158): of a frame that was found bad the FCS is
not known, and its four bytes read as free values. -/
def Frame.held (f : Frame) : Bytes := f.data ++ (if f.isCan || f.cut || f.stomp then [] else fcsOf f.data false)

/-- What cell `c` holds of a copy: its place among the copy's cells, and the descriptor and frame bytes in it; none of a cell in no use. -/
def State.cellAt (s : State) (c : Nat) : Option Bytes :=
  (s.copies.find? (fun f => f.cells.contains c)).map (fun f =>
    let k := f.cells.idxOf c
    (f.descriptor ++ f.held).drop (128 * k) |>.take 128)

/-- Whether a double-bit error stands in cell `c` or in its link. -/
def State.cellBad (s : State) (c : Nat) : Bool :=
  s.dbe.any (fun e => e.1 = 0 && ((Mm.cells + 128 * c) / 128 = e.2 / 128 || (Mm.link + 2 * c) / 8 = e.2 / 8))

/-- BUF_ECC (R193): a double-bit error at `a`, in cell `c` or in an entry that names it; `stomped` says that a copy ends stomped for it. -/
def State.bufEcc (s : State) (a c : Nat) (entry stomped : Bool) : State :=
  ((s.dbeSeen 0 a).setBit Rg.BUF_INT_STATUS Fl.BUF_INT_STATUS_ECC.lo).raise 0x0802 noPort (c + b2n entry * 2 ^ 16 + b2n stomped * 2 ^ 17)

/-- The first bad cell of a copy: its place among the copy's cells, its pointer, and the word that holds the error. -/
def State.badCell (s : State) (f : Frame) : Option (Nat × Nat × Nat) :=
  (f.cells.zipIdx.find? (fun x => s.cellBad x.1)).map (fun x =>
    (x.2, x.1, match s.dbe.find? (fun e => e.1 = 0 && ((Mm.cells + 128 * x.1) / 128 = e.2 / 128 || (Mm.link + 2 * x.1) / 8 = e.2 / 8)) with
      | some e => e.2
      | none => 0))

/-- The read of a copy's cells and links: single-bit errors in them are corrected and counted (R347). -/
def State.cellsSbe (s : State) (f : Frame) : State :=
  if s.sbe = [] then s
  else f.cells.foldl (fun t c => (t.sbeIn 0 (Mm.cells + 128 * c) 128).sbeIn 0 (Mm.link + 2 * c) 2) s

/-- A copy with a double-bit error found before its first byte has left is dropped (R193). -/
def State.eccDrop (s : State) (f : Frame) : State :=
  match s.badCell f with
  | none => s
  | some (_, c, a) => ((s.count (gndC 3)).bufEcc a c false false).brgDrop f 9

/-- The limit a copy is charged to (R185). -/
def limitOf (src p : Nat) : Nat := if src = 49 then 3 else if src = 48 ∨ src = 50 ∨ p = 48 ∨ p = 50 then 1 else if p = 51 then 2 else 0

/-- Cells of a share of the reserve. -/
def State.share (s : State) (k : Nat) : Nat :=
  64 * (if k = 1 then s.fd Rg.BUF_RESERVE Fl.BUF_RESERVE_MGMT else if k = 2 then s.fd Rg.BUF_RESERVE Fl.BUF_RESERVE_RECIRC
        else s.fd Rg.BUF_RESERVE Fl.BUF_RESERVE_EMIT)

/-- The cut-through conditions of R189 on a frame whose action stage is done: never toward a faster port (R25); one that failed its MACsec
check goes on store-and-forward (R304). -/
def State.ctOk (s : State) (f : Frame) : Bool :=
  f.goKind = 0 && !f.slowCopy && !f.bridge && !f.pass && isEth f.src && isEth f.goDest && s.portRate f.goDest ≤ s.portRate f.src
    && !f.evidence && !f.capture && !f.ctDis && !f.msecBad && f.rewrite != 4 && !f.launchV && f.reason = 0
    && !s.copies.any (fun c => c.egress = f.goDest && c.cls = f.cls)

/-! ## Policers (R195 to R200) -/

/-- TIME_RAW bits [34:3]. -/
def State.now3 (s : State) : Nat := s.raw / 8 % 2 ^ 32

/-- A policer's configuration and state (R196). -/
structure Policer where
  enable : Bool
  cir : Nat
  cbs : Nat
  pir : Nat
  pbs : Nat
  tc  : Nat
  tp  : Nat
  last : Nat

def policerOf (b : Bytes) : Policer := ⟨bitOf (byteAt b 0) 7, be b 4 4, be b 8 4, be b 12 4, be b 16 4, be b 20 4, be b 24 4, be b 28 4⟩

def Policer.bytes (p : Policer) : Bytes :=
  beBytes 4 (b2n p.enable * 2 ^ 31) ++ beBytes 4 p.cir ++ beBytes 4 p.cbs ++ beBytes 4 p.pir ++ beBytes 4 p.pbs ++ beBytes 4 p.tc
    ++ beBytes 4 p.tp ++ beBytes 4 p.last

def State.policer (s : State) (n : Nat) : Policer := policerOf (s.ram (Mm.pol + 32 * n) 32)

def State.setPolicer (s : State) (n : Nat) (p : Policer) : State := s.setRam (Mm.pol + 32 * n) p.bytes

/-- A policer as the loader or BUF_POL_CMD leaves it: buckets full where their rate is non-zero. -/
def Policer.init (p : Policer) (now : Nat) : Policer :=
  { p with tc := if p.cir = 0 then 0 else p.cbs * 256, tp := if p.pir = 0 then 0 else p.pbs * 256, last := now }

/-- Whether a policer's settings pass the checks of R196. -/
def Policer.ok (p : Policer) : Bool :=
  p.cir ≤ 100000000 && p.pir ≤ 100000000 && p.cbs < 2 ^ 24 && p.pbs < 2 ^ 24 && (p.pir = 0 || p.cir ≤ p.pir)

/-- The refill of R197; tokens in 1/256 byte, each refill rounded down. -/
def Policer.refill (p : Policer) (now : Nat) : Policer :=
  let dt := 8 * ((now + 2 ^ 32 - p.last) % 2 ^ 32)
  { p with tc := Nat.min (p.cbs * 256) (p.tc + p.cir * dt * 256 / 8000000), tp := Nat.min (p.pbs * 256) (p.tp + p.pir * dt * 256 / 8000000),
           last := now }

/-- Meters `b` bytes: colour 0 = green, 1 = yellow, 2 = red. -/
def Policer.meter (p : Policer) (b : Nat) : Nat × Policer :=
  let n := b * 256
  if p.tp < n then (2, p)
  else if p.tc < n then (1, { p with tp := p.tp - n })
  else (0, { p with tp := p.tp - n, tc := p.tc - n })

/-- Bytes added back (R199): no bucket rises above its size. -/
def Policer.giveBack (p : Policer) (tc : Bool) (b : Nat) : Policer :=
  { p with tp := Nat.min (p.pbs * 256) (p.tp + b * 256), tc := if tc then Nat.min (p.cbs * 256) (p.tc + b * 256) else p.tc }

/-- What has been due to policers is added back. The order of refill and add-back makes no difference to a bucket with a lid. -/
def State.policersBack (s : State) : State :=
  let due (b : AddBack) : Bool := b.due ≤ s.raw
  (s.gnd.backs.filter due).foldl (fun t b => t.setPolicer b.policer ((t.policer b.policer).giveBack b.tc b.bytes))
    { s with gnd := { s.gnd with backs := s.gnd.backs.filter (fun b => !due b) } }

/-- The policer that a frame of this cycle meets: one that firmware has written in the cycle as it stood before (R200). -/
def State.meets (s : State) (n : Nat) : Policer :=
  match s.cyc.pols.find? (fun e => e.1 = n) with
  | none => s.policer n
  | some e => policerOf e.2

/-- What a frame of this cycle leaves of a policer. -/
def State.leaves (s : State) (n : Nat) (p : Policer) : State :=
  if s.cyc.pols.any (fun e => e.1 = n) then
    { s with cyc := { s.cyc with pols := s.cyc.pols.map (fun e => if e.1 = n then (n, p.bytes) else e) } }
  else s.setPolicer n p

/-- TIME_RAW of the arrival of a frame's last byte at its port's rate; now, where that has passed. -/
def State.lastByte (s : State) (f : Frame) : Nat :=
  s.raw + cdiv ((f.sof + ((cdiv (f.L * 8 * 1000000000) (s.portRate f.src) : Nat) : Int) * 65536 - s.lt).toNat) 65536

/-- A frame meets its policer (R195, R197): its colour. `ct` says that it is metered at its head, with MAX_FRAME; what exceeds its length is
added back when its last byte arrives (R199). -/
def State.police (s0 : State) (f : Frame) (ct : Bool) : Nat × State :=
  let s := s0.policersBack
  let p := s.meets f.policer
  if ¬ f.police ∨ ¬ p.enable then (0, s)
  else
    let b := if ct then s.maxFrame f.src else f.L
    let r := (p.refill s.now3).meter b
    let s1 := s.leaves f.policer r.2
    if ¬ ct ∨ r.1 = 2 then (r.1, s1)
    else (r.1, { s1 with gnd := { s1.gnd with backs := s1.gnd.backs ++ [⟨s.lastByte f, f.policer, r.1 = 0, b - f.L⟩] } })

/-- Keeps a policer as it stands for the frames of this cycle (R200). -/
def State.keepPolicer (s : State) (n : Nat) : State :=
  if s.cyc.pols.any (fun e => e.1 = n) then s
  else { s with cyc := { s.cyc with pols := (n, s.ram (Mm.pol + 32 * n) 32) :: s.cyc.pols } }

/-- POLICER_WRITE (R196): BUF_POL_CMD with OP 1. -/
def State.policerWrite (s0 : State) (n : Nat) (en : Bool) : State :=
  let s := s0.policersBack
  let p : Policer := ⟨en, s.fd Rg.BUF_POL_CIR Fl.BUF_POL_CIR_CIR, s.fd Rg.BUF_POL_CBS Fl.BUF_POL_CBS_CBS, s.fd Rg.BUF_POL_PIR Fl.BUF_POL_PIR_PIR,
    s.fd Rg.BUF_POL_PBS Fl.BUF_POL_PBS_PBS, 0, 0, 0⟩
  if p.ok then (((s.keepPolicer n).setPolicer n (p.init s.now3)).mendedIn 2 (Mm.pol + 32 * n) 32).setBit Rg.BUF_POL_STATUS 1
  else (s.setBit Rg.BUF_POL_STATUS 3).ignored Rg.BUF_POL_CMD.addr (n + 16384 + 65536 * b2n en)

def execPolicerWrite (index : Fin 16384) (enable : Bool) (s : State) : Host.Outcome State Fault Refusal :=
  .next (s.fw (·.policerWrite index.val enable))

/-- The double-bit error that a read of policer `n`, or of the mask of group `g`, meets (R347). -/
def State.policerBad (s : State) (n : Nat) : Option Nat := s.badIn 2 (Mm.pol + 32 * n) 32
def State.maskBad (s : State) (g : Nat) : Option Nat := s.badIn 2 (Mm.mc + 8 * g) 8

/-- The same reads: single-bit errors are corrected and counted (R347). -/
def State.policerSbe (s : State) (n : Nat) : State := s.sbeIn 2 (Mm.pol + 32 * n) 32
def State.maskSbe (s : State) (g : Nat) : State := s.sbeIn 2 (Mm.mc + 8 * g) 8

/-- POLICER_READ (R196): BUF_POL_CMD with OP 2. -/
def State.policerRead (s0 : State) (n : Nat) : State :=
  let s := s0.policersBack
  match s.policerBad n with
  | some x => s.fatalDbe 2 x
  | none =>
  let p := s.policer n
  let s1 := ((((s.policerSbe n).wr Rg.BUF_POL_CIR p.cir).wr Rg.BUF_POL_CBS p.cbs).wr Rg.BUF_POL_PIR p.pir).wr Rg.BUF_POL_PBS p.pbs
  (((s1.wr Rg.BUF_POL_TC p.tc).wr Rg.BUF_POL_TP p.tp).sf Rg.BUF_POL_STATUS Fl.BUF_POL_STATUS_ENABLE (b2n p.enable)).setBit Rg.BUF_POL_STATUS 1

/-- POLICER_SWEEP (R197): the background sweep refreshes an enabled policer. -/
def State.policerSweep (s0 : State) (n : Nat) : State :=
  if ¬ s0.engineOn then s0
  else
    let s := s0.policersBack
    match s.policerBad n with
    | some x => s.fatalDbe 2 x
    | none => if (s.policer n).enable then (s.policerSbe n).setPolicer n ((s.policer n).refill s.now3) else s.policerSbe n

/-! ## Multicast groups (R187) -/

/-- The mask of a group. -/
def State.mcMask (s : State) (g : Nat) : Nat := s.ramBe (Mm.mc + 8 * g) 8

/-- Whether a mask may stand in a group. -/
def maskOk (m : Nat) : Bool := !bitOf m 49 && m < 2 ^ 52 && popcount 64 m ≤ 47

/-- MC_GROUP_WRITE: BUF_MC_CMD with OP 1. -/
def State.mcWrite (s : State) (g : Nat) : State :=
  let m := s.rd64 Rg.BUF_MC_MASK
  if maskOk m then ((s.setRam (Mm.mc + 8 * g) (beBytes 8 m)).mendedIn 2 (Mm.mc + 8 * g) 8).setBit Rg.BUF_MC_STATUS 1
  else s.ignored Rg.BUF_MC_CMD.addr (g + 4096)

def execMcGroupWrite (group : Fin 4096) (s : State) : Host.Outcome State Fault Refusal := .next (s.fw (·.mcWrite group.val))

/-- MC_GROUP_READ: BUF_MC_CMD with OP 2. -/
def State.mcRead (s : State) (g : Nat) : State :=
  match s.maskBad g with
  | some x => s.fatalDbe 2 x
  | none => ((s.maskSbe g).wr64 Rg.BUF_MC_MASK (s.mcMask g)).setBit Rg.BUF_MC_STATUS 1

end Sys2Proof.Machine
end

