-- ==== Sys2Proof/Machine/Forward.lean ====
section
/-! DEFINITION. FRAME_PARSE: the parse of a frame, its lookups, its forwarding decision, its exceptions, its learning request,
and the action stage (R129 to R163). -/

namespace Sys2Proof.Machine

/-! ## Lookups and the deciding lookup (R155) -/

/-- What the lookups of a frame gave: KIND, DEST and ACTION of the deciding one, or the counter under which it drops. -/
structure Looked where
  kind      : Nat
  dest      : Nat
  action    : Nat
  /-- TBL_CNT index of a drop by the decision. -/
  drop      : Option Nat
  /-- The deciding lookup gave a destination. -/
  named     : Bool
  node      : Bool
  flowHit   : Bool
  nodeValid : Bool
  /-- The entries that the destination and the source address matched. -/
  da        : Option Bytes
  sa        : Option Bytes

/-- The lookups of a frame from port `p`; FLOW and source-address hits set ACTIVE (R167), but for a source address found pinned to another
place, which changes nothing (R163). -/
def State.lookups (s : State) (p : Nat) (k : Keys) : Looked × State :=
  let fl := if k.flowEn then s.search 2 k.flow else (none, s)
  let s0 := if fl.1.isSome then fl.2.hit 2 k.flow else fl.2
  let s1 := if k.nodeEn then (s0.scrubNode k.node).2 else s0
  let nd := s1.ram (Mm.node + 8 * k.node) 8
  let nv := k.nodeEn && eValid nd
  let key (m : Bytes) : Bytes := beBytes 2 k.vid ++ m
  let da := if k.fdbEn then s1.search 1 (key k.da) else (none, s1)
  let sa := if k.fdbEn then da.2.search 1 (key k.sa) else (none, da.2)
  let s2 := match sa.1 with
    | some e => if ePinned e ∧ be e 10 2 ≠ p then sa.2 else sa.2.hit 1 (key k.sa)
    | none => sa.2
  let base : Looked := ⟨0, 0, 0, none, false, false, fl.1.isSome, nv, da.1, sa.1⟩
  match fl.1 with
  | some e => ({ base with action := be e 4 4 }, s2)
  | none =>
    if k.nodeEn then
      if nv then ({ base with kind := byteAt nd 0 / 32 % 4, dest := be nd 2 2 % 4096, action := be nd 4 4, named := true, node := true }, s2)
      else ({ base with drop := some 7 }, s2)
    else if k.fdbEn then
      match da.1 with
      | some e =>
        ({ base with kind := byteAt e 10 / 64, dest := be e 10 2 % 4096, action := be e 12 4, named := true }, s2)
      | none =>
        let v := Rg.TBL_VLAN k.vid
        if s2.flag v Fl.TBL_VLAN_VALID then
          ({ base with kind := 1, dest := s2.fd v Fl.TBL_VLAN_FLOOD_GROUP, action := s2.fd v Fl.TBL_VLAN_FLOOD_ACT, named := true }, s2)
        else ({ base with drop := some 8 }, s2)
    else ({ base with action := s2.fd (Rg.TBL_PORT_CFG p) Fl.TBL_PORT_CFG_DEFAULT_ACT }, s2)

/-- The learning request of a frame (R163). DESIGN CHOICE (log 152): PINNED_MOVE too is counted only of a port with LEARN set. -/
def State.learn (s : State) (p : Nat) (k : Keys) (l : Looked) : State :=
  if ¬ k.fdbEn ∨ ¬ s.flag (Rg.TBL_PORT_CFG p) Fl.TBL_PORT_CFG_LEARN ∨ bitOf (byteAt k.sa 0) 0 ∨ be k.sa 0 6 = 0 then s
  else
    let ask (t : State) : State :=
      if t.tbl.learnQ.length ≥ 512 then t.learnDrop else t.setTbl (fun b => { b with learnQ := b.learnQ ++ [⟨k.vid, k.sa, p⟩] })
    match l.sa with
    | none => ask s
    | some e =>
      if be e 10 2 = p then s else if ePinned e then s.count (tblC 6) else ask s

/-! ## The action stage (R157 to R162) -/

/-- The action stage of a frame with its lookups done: the record is read once and copied into the frame; a frame that the
decision drops, or whose record holds a double-bit error (R347), comes out as `none`. DESIGN CHOICE (log 153): a deciding entry with KIND 3,
or with KIND 0 and a DEST that is no port a frame may go to, names no destination, and the frame drops as NO_DEST. DESIGN CHOICE (log 154): no
bit of the action record (R157) stands for BRIDGE, so no frame is copied to port 50 by it. -/
def State.actStage (s0 : State) (f : Frame) (l : Looked) : Option Frame × State :=
  match l.drop with
  | some c => (none, s0.count (tblC c))
  | none =>
    let r := s0.actRec l.action
    match s0.badIn 2 (Mm.act + 32 * l.action) 32 with
    | some x => (none, s0.fatalDbe 2 x)
    | none =>
    let s := s0.sbeIn 2 (Mm.act + 32 * l.action) 32
    if ¬ (s.actLive l.action ∨ s.actGrace l.action) ∨ ¬ bitOf (byteAt r 0) 7 then
      (none, (s.count (tblC 9)).raiseFirst 0x0706 0 noPort l.action)
    else
      let b := byteAt r 0
      let dk := b / 32 % 4
      let go : Nat × Nat := if dk = 1 then (0, be r 2 2 % 64) else if dk = 2 then (1, be r 2 2 % 4096)
        else if dk = 3 then (2, 0) else (l.kind, l.dest)
      let none_ := dk = 0 ∧ (¬ l.named ∨ l.kind = 3 ∨ (l.kind = 0 ∧ (l.dest = 49 ∨ l.dest > 51)))
      let again := f.pass && (if go.1 = 0 then go.2 = 51 else go.1 = 1 && bitOf (s.mcMask go.2) 51)
      let s1 := if none_ then s.count (tblC 10) else if again then s.count (parseC f.src 8) else s
      (some { f with
        goKind := if none_ ∨ again then 2 else go.1, goDest := go.2, kind := go.1, dest := go.2
        action := l.action, acted := true
        cls := if bitOf (byteAt r 1) 7 then byteAt r 1 / 16 % 8 else f.cls
        slowCopy := bitOf b 4 && !(none_ || again), ctDis := bitOf b 3, tsCap := f.tsCap || bitOf b 2, capture := bitOf b 1, evidence := bitOf b 0
        police := bitOf (byteAt r 4) 7, policer := be r 4 2 % 16384, evTempl := byteAt r 6, capMap := byteAt r 7
        rewrite := byteAt r 8, rwArg := be r 12 4 }, s1)

/-! ## FRAME_PARSE -/

/-- The frame with what its parse and lookups left in its descriptor. -/
def Frame.looked (f : Frame) (w : Walk) (lastKind : Nat) (l : Looked) : Frame :=
  { f with node := w.last, hdrEnd := w.hend, pv := w.pv, lastAkz := if lastKind = 4 ∧ w.count > 0 then w.at_ + 1 else 0
           kind := l.kind, dest := l.dest, action := l.action, flowHit := l.flowHit, nodeValid := l.nodeValid
           fdbDa := l.da.isSome, fdbSa := l.sa.isSome
           hopAt := if l.node then match w.akzor with
             | some a => a + 1
             | none => 0 else 0 }

/-- Lookups, learning and action stage of a frame whose parse raised no exception. -/
def State.route (s : State) (f : Frame) (w : Walk) : Option Frame × State :=
  let k := s.keysOf f.bank w
  let l := s.lookups f.src k
  let f1 := f.looked w (nKind (s.pnode f.bank w.last)) l.1
  let s1 := if l.1.drop.isNone then l.2.learn f.src k l.1 else l.2
  s1.actStage f1 l.1

/-- A frame that raised an exception is dropped or sent to the slow path with the result of its lookups; one that failed its MACsec check
never reaches the slow path (R142, R143, R304). -/
def State.diverted (s : State) (f : Frame) (w : Walk) (c : Nat) : State :=
  let l := s.lookups f.src (s.keysOf f.bank w)
  if s.excSlow f.bank c ∧ ¬ f.msecBad then
    let f1 := { f.looked w (nKind (s.pnode f.bank w.last)) l.1 with goDest := 48, reason := 1, cause := c, hopAt := 0 }
    let s2 := l.2.count (parseC f.src 10)
    s2.toAdmission f1
  else l.2.count (parseC f.src 9)

/-- A frame that raised an exception is counted under its deciding cause (R142). -/
def State.exception (s : State) (f : Frame) (w : Walk) (c : Nat) : State := (s.count (parseC f.src (1 + c))).diverted f w c

/-- A frame as its port received it, with the class `c` that it came with. -/
def Frame.asReceived (f : Frame) (c : Nat) : Frame :=
  { data := f.data, src := f.src, bank := f.bank, cls := c, ts := f.ts, sof := f.sof, tsHoop := f.tsHoop, tsTrust := f.tsTrust, msecBad := f.msecBad, rxAt := f.rxAt, txDesc := f.txDesc }

/-- A frame found bad at its end that no cut-through copy is admitted of is discarded; one with LENGTH_CONFLICT, counted already, goes the
way of its exception (R142). -/
def State.notThrough (s : State) (f : Frame) : State :=
  match f.conflict with
  | none => s
  | some c => s.diverted (f.asReceived c) (s.parse (f.asReceived c) true) 0

/-- Puts a routed frame into the queue of admission. -/
def State.toAdmit (r : Option Frame × State) : State :=
  match r.1 with
  | none => r.2
  | some f => r.2.toAdmission f

/-- The cut-through course of a frame that is found bad at its end (R141, R190): when the head's parse raises nothing and the
decision allows cut-through, the frame goes on with STOMP. -/
def State.headCourse (s : State) (f : Frame) : Option State :=
  let w := s.parse f false
  if w.hopZero ∨ w.causes ≠ [] ∨ (s.eyeHit f.src f.data).isSome then none
  else
    let r := (s.count (parseC f.src 0)).route { f with stomp := true } w
    match r.1 with
    | none => none
    | some g => if s.ctOk g then some (State.toAdmit r) else none

/-- The course of a good frame: hop count 0, exception, eyelet, or route. PARSED counts every frame that is parsed here, exception frames and
those of hop count 0 among them (DESIGN CHOICE, log entry 137). -/
def State.wholeCourse (s : State) (f : Frame) : State :=
  let w := s.parse f true
  let s1 := s.count (parseC f.src 0)
  if w.hopZero then s1.count (parseC f.src 11)
  else
    match w.cause with
    | some c =>
      match if c = 0 then s.headCourse { f with conflict := some f.cls } else none with
      | some t => t.count (parseC f.src 1)
      | none => s1.exception f w c
    | none =>
      match if f.pass ∨ f.msecBad then none else s1.eyeHit f.src f.data with
      | some u => s1.eyeTake f.data u
      | none => State.toAdmit (s1.route f w)

/-- FRAME_PARSE (R131): the parser takes the oldest frame that waits; while a swap's pause lasts it takes none. A frame whose parse meets a
double-bit error of the bank is dropped (R347). -/
def State.frameParse (s : State) : State :=
  match s.rxQ with
  | [] => s
  | f :: q =>
    if ¬ s.forwarding ∨ s.prs.paused then s
    else
      let s1 : State := { s with rxQ := q }
      let f1 := { f with bank := if f.bank = 0 then s.activeBank else f.bank }
      let w := s.parse f1 (!f1.stomp)
      match s.parseBad f1 w with
      | some x => s1.fatalDbe 3 x
      | none =>
        let s2 := s1.parseSbe f1 w
        if f1.stomp then (s2.headCourse f1).getD s2 else s2.wholeCourse f1

end Sys2Proof.Machine
end

