-- ==== Sys2Proof/Machine/Ground.lean ====
section
/-! DEFINITION. The ground (R178 to R194): admission and replication, WRED, the spreader, the intermediates, the
resequencer. -/

namespace Sys2Proof.Machine

/-! ## WRED (R192) -/

/-- One step of the LFSR x^16 + x^14 + x^13 + x^11 + 1. PRESUMED: shifted right, the new bit entering at the top. -/
def lfsrStep (v : BitVec 16) : BitVec 16 :=
  let b := v ^^^ (v >>> 2) ^^^ (v >>> 3) ^^^ (v >>> 5)
  (v >>> 1) ||| ((b &&& 1) <<< 15)

/-- The next value of the LFSR of egress group `g`. -/
def State.lfsr (s : State) (g : Nat) : Nat × State :=
  let v := lfsrStep (sget s.gnd.lfsr g 0xACE1)
  (v.toNat, { s with gnd := { s.gnd with lfsr := sset s.gnd.lfsr g 0xACE1 v } })

/-- The WRED test of a copy for queue (p, c) with occupancy `occ`: whether it drops the copy. The average of a colour with
WRED is updated first. DESIGN CHOICE (log 157): the LFSR advances where its value is compared, not where the average alone decides. -/
def State.wred (s : State) (p c colour occ : Nat) : Bool × State :=
  let q := Rg.BUF_QCFG p c
  if ¬ s.bit q colour then (false, s)
  else
    let n := if colour = 0 then s.fd q Fl.BUF_QCFG_PROF_G else s.fd q Fl.BUF_QCFG_PROF_Y
    let lo := s.fd (Rg.BUF_WRED_THR n) Fl.BUF_WRED_THR_MIN * 256
    let hi := s.fd (Rg.BUF_WRED_THR n) Fl.BUF_WRED_THR_MAX * 256
    let maxp := s.fd (Rg.BUF_WRED_P n) Fl.BUF_WRED_P_MAXP
    let old : Int := (s.fd (Rg.BUF_AVG p c) Fl.BUF_AVG_AVG : Nat)
    let avg := (old + ((occ * 256 : Nat) - old) / ((2 ^ s.fd (Rg.BUF_WRED_P n) Fl.BUF_WRED_P_W : Nat) : Int)).toNat
    let s1 := s.sf (Rg.BUF_AVG p c) Fl.BUF_AVG_AVG avg
    if avg < lo then (false, s1)
    else if avg ≥ hi then (true, s1)
    else
      let r := s1.lfsr (groupOf p)
      (decide (r.1 * (hi - lo) < maxp * (avg - lo) * 256), r.2)

/-! ## Admission of one copy (R183 to R185) -/

/-- The next SEQ of a triple, and the state after it is drawn (R181). -/
def State.drawSeq (s : State) (src p c : Nat) : Nat × State :=
  let is (t : Triple) : Bool := t.src = src && t.egress = p && t.cls = c
  match s.gnd.triples.find? is with
  | none => (0, { s with gnd := { s.gnd with triples := s.gnd.triples ++ [⟨src, p, c, 1, 0⟩] } })
  | some t =>
    (t.next, { s with gnd := { s.gnd with triples := s.gnd.triples.map (fun x => if is x then { x with next := (x.next + 1) % 1024 } else x) } })

/-- Why a copy is refused: the BUF_QCNT index, and the cause of BUF_DROP. A request of the couching bridge is NOT_SENT (R272). -/
def State.refuse (s : State) (f : Frame) (p cnt cause : Nat) : Option Frame × State :=
  let s1 := s.count (qC p f.cls cnt)
  let s2 := if f.acted then s1.credit f.action 3 1 else s1
  (none, (s2.raiseFirst 0x0803 p p (f.cls + 16 * cause)).brgDrop f 9)

/-- Decides one copy of a frame for port `p` (R184); `mine` are the copies of the frame admitted before it. A cut-through
copy is tested with the charge of its head and keeps the charge of its end. -/
def State.admitOne (s : State) (f : Frame) (p : Nat) (ct : Bool) (mine : List Frame) : Option Frame × State :=
  let need := cellsOf (if ct then s.maxFrame f.src + 1 else f.L)
  let all := s.copies ++ mine
  let lim := limitOf f.src p
  let bl := s.fd (Rg.BUF_LIMIT p f.cls) Fl.BUF_LIMIT_LIMIT
  if p < 48 ∧ bl = 0 then s.refuse f p 5 0
  else
    let w := s.wred p f.cls f.colour (queueOcc all p f.cls)
    if w.1 then w.2.refuse f p (3 + f.colour) 1
    else
      let s1 := w.2
      if (if lim = 0 then queueOcc all p f.cls + need > bl else shareOcc all lim + need > s.share lim) then s1.refuse f p 2 2
      else
        let q := s1.drawSeq f.src p f.cls
        let s2 := (q.2.count (qC p f.cls 0)).count (qC p f.cls 1) need
        (some { f with egress := p, seq := q.1, ct := ct, charge := cellsOf f.L, limit := lim }, if ct then s2.count (qC p f.cls 6) else s2)

/-! ## The two stages (R178, R179) -/

/-- Entry `x` joins the queue of intermediate `m` for egress group `e`. -/
def State.pushEntry (s : State) (m e : Nat) (x : Entry) : State :=
  let k := 8 * m + e
  let w := sget s.gnd.wrPos k 0
  let t := s.mended 0 (Mm.entry + 8 * (64 * k + w))
  { t with gnd := { t.gnd with
      queues := sset t.gnd.queues k [] (sget t.gnd.queues k [] ++ [x])
      wrPos := sset t.gnd.wrPos k 0 ((w + 1) % 64) } }

/-- The frame's last cell has crossed stage 1 from group `g` to `m`: sent[g] is brought up to date (R180). -/
def State.noteSent (s : State) (g m len : Nat) : State :=
  let sent (k : Nat) : Nat := sget s.gnd.sent (8 * g + k) 0 + if k = m then len else 0
  let low := (List.range 8).foldl (fun a k => Nat.min a (sent k)) (sent m)
  { s with gnd := { s.gnd with sent := (List.range 8).foldl (fun l k => sset l (8 * g + k) 0 (sent k - low)) s.gnd.sent } }

/-- Stage 1 in slot `t` (R178): group `g` sends its next cell for intermediate (g + t) mod 8, and holds it while a queue it goes to is full
(R180). -/
def State.stageOne (t : Nat) (s : State) (g : Nat) : State :=
  let m := (g + t) % 8
  match sget s.gnd.paths (8 * g + m) [] with
  | [] => s
  | c :: rest =>
    if c.egs.any (fun e => (sget s.gnd.queues (8 * m + e) []).length ≥ 64) then s
    else
      let s1 : State := { s with gnd := { s.gnd with paths := sset s.gnd.paths (8 * g + m) [] rest } }
      let s2 := c.egs.foldl (fun u e => u.pushEntry m e ⟨c.cell, c.fid, c.port, c.ends.contains e⟩) s1
      if c.len = 0 then s2 else s2.noteSent g m c.len

/-- Whether a copy in flight takes part in an entry of egress group `e`. -/
def Flight.takes (x : Flight) (e : Nat) (y : Entry) : Bool :=
  x.copy.fid = y.fid && groupOf x.copy.egress = e && (match y.port with
    | none => true
    | some p => p = x.copy.egress)

/-- The entry `y` reaches egress group `e` at TIME_RAW `raw`: with the last one the copies of its frame there are complete. -/
def State.deliver (s : State) (e raw : Nat) (y : Entry) : State :=
  if ¬ y.last then s
  else { s with gnd := { s.gnd with flight := s.gnd.flight.map (fun x =>
      if x.copy.fid = y.fid ∧ groupOf x.copy.egress = e ∧ ¬ x.lost then { x with arrived := some raw } else x) } }

/-- An entry with a double-bit error is discarded, and its copy is lost (R193). -/
def State.loseEntry (s : State) (a e : Nat) (y : Entry) : State :=
  let s1 := (s.mended 0 a).bufEcc a y.cell true false
  { s1 with gnd := { s1.gnd with flight := s1.gnd.flight.map (fun x => if x.takes e y then { x with lost := true } else x) } }

/-- Stage 2 in slot `t` (R178, R179): intermediate `m` gives the oldest entry of its queue for egress group (m + t) mod 8. -/
def State.stageTwo (t : Nat) (s : State) (m : Nat) : State :=
  let e := (m + t) % 8
  let k := 8 * m + e
  match sget s.gnd.queues k [] with
  | [] => s
  | y :: rest =>
    let a := Mm.entry + 8 * (64 * k + (sget s.gnd.wrPos k 0 + 63 - rest.length) % 64)
    let s1 : State := { s with gnd := { s.gnd with queues := sset s.gnd.queues k [] rest } }
    (if s.isBad 0 a then s1.loseEntry a e y else s1.sbeAt 0 a).deliver e (2 * t + 2) y

/-- Nothing is on its way through the two stages. -/
def State.gndIdle (s : State) : Bool := s.gnd.paths.isEmpty && s.gnd.queues.isEmpty

/-- One cell slot: stage 2 takes what the slots before have left, then stage 1 sends. -/
def State.gndSlot (s : State) : State :=
  let t := s.gnd.slot
  let s1 := (List.range 8).foldl (State.stageOne t) ((List.range 8).foldl (State.stageTwo t) s)
  { s1 with gnd := { s1.gnd with slot := t + 1 } }

/-- At most `n` slots, until `done` holds or the ground is empty. -/
def State.gndSlots (done : State → Bool) : Nat → State → State
  | 0, s => s
  | n + 1, s => if s.gndIdle ∨ done s then s else State.gndSlots done n s.gndSlot

/-- Slots enough for everything in the ground to reach its group. -/
def gndFuel : Nat := 1048576

/-- The ground as it stands now: every slot that has ended has run. -/
def State.gndRun (s : State) : State :=
  let s1 := State.gndSlots (fun _ => false) (s.raw / 2 - s.gnd.slot) s
  { s1 with gnd := { s1.gnd with slot := s.raw / 2 } }

/-- Entries in the queue of intermediate `m` for egress group `e`: GND_IQ_LEVEL. -/
def State.iqLevel (s : State) (m e : Nat) : Nat := (sget s.gndRun.gnd.queues (8 * m + e) []).length

/-! ## The spreader (R180) -/

/-- The intermediate the spreader chooses for a group's frame. -/
def State.chooseInter (s : State) (g : Nat) (targets : List Nat) : Option Nat :=
  let sent (m : Nat) : Nat := sget s.gnd.sent (8 * g + m) 0
  (List.range 8).foldl (fun best i =>
    let m := (sget s.gnd.ptr g 0 + i) % 8
    if targets.all (fun e => (sget s.gnd.queues (8 * m + e) []).length + 8 ≤ 64) then
      match best with
      | none => some m
      | some b => if sent m < sent b then some m else best
    else best) none

/-- The cells of one frame in the order in which they cross stage 1 (R188): the head cell of each copy, then the shared cells with an entry
for each egress group. -/
def pathCells (cs : List Frame) : List PathCell :=
  match cs with
  | [] => []
  | f :: _ =>
    let body := f.cells.drop 1
    let groups := (cs.map (fun c => groupOf c.egress)).eraseDups
    let heads := cs.zipIdx.map (fun x =>
      let g := groupOf x.1.egress
      let more := (cs.drop (x.2 + 1)).any (fun c => groupOf c.egress = g)
      (⟨x.1.cells.headD 0, f.fid, some x.1.egress, [g], if body.isEmpty && !more then [g] else [],
        if body.isEmpty && x.2 + 1 = cs.length then f.L else 0⟩ : PathCell))
    heads ++ body.zipIdx.map (fun x => ⟨x.1, f.fid, none, groups, if x.2 + 1 = body.length then groups else [], if x.2 + 1 = body.length then f.L else 0⟩)

/-- The copies of one frame begin to cross stage 1 to intermediate `m`. -/
def State.crossVia (s : State) (g m : Nat) (cs : List Frame) : State :=
  let k := 8 * g + m
  { s with gnd := { s.gnd with
      flight := s.gnd.flight ++ cs.map (fun c => (⟨c, m, none, false⟩ : Flight))
      ptr := sset s.gnd.ptr g 0 ((m + 1) % 8)
      paths := sset s.gnd.paths k [] (sget s.gnd.paths k [] ++ pathCells cs) } }

/-- Sends the copies of one frame into the ground, or lets them wait: behind those of their group, or, where they find no intermediate, for
the next slot, counted (R180). -/
def State.launchCopies (s0 : State) (g : Nat) (cs : List Frame) : State :=
  if cs.isEmpty then s0
  else
    let s := s0.gndRun
    let wait (stalled : Bool) : State := { s with gnd := { s.gnd with spread := s.gnd.spread ++ [⟨g, cs, stalled⟩] } }
    if s.gnd.spread.any (fun x => x.group = g) then wait false
    else
      match s.chooseInter g (cs.map (fun f => groupOf f.egress)) with
      | some m => s.crossVia g m cs
      | none => (wait true).count (gndC 2)

/-- The frame at the head of group `g`'s spreader chooses, and crosses where it can; its first choice that fails is counted (R180). -/
def State.spreadTry (s : State) (g : Nat) : State :=
  match s.gnd.spread.find? (fun x => x.group = g) with
  | none => s
  | some x =>
    match s.chooseInter g (x.copies.map (fun f => groupOf f.egress)) with
    | some m => ({ s with gnd := { s.gnd with spread := s.gnd.spread.erase x } } : State).crossVia g m x.copies
    | none =>
      if x.stalled then s
      else ({ s with gnd := { s.gnd with spread := s.gnd.spread.replace x { x with stalled := true } } } : State).count (gndC 2)

/-- Whether a frame of group `g` waits that has found no intermediate. -/
def State.spreadHeld (s : State) (g : Nat) : Bool := s.gnd.spread.any (fun x => x.group = g && x.stalled)

/-- SPREAD_STALL (R180): each group's first waiting frame chooses; one that finds no intermediate is counted, waits one slot, and chooses
again. -/
def State.spreadNow (s0 : State) : State :=
  let s1 := (List.range 8).foldl (fun t g => if t.spreadHeld g then t else t.spreadTry g) s0.gndRun
  if s1.gnd.spread.isEmpty then s1
  else (List.range 8).foldl (fun t g => if s1.spreadHeld g then t.spreadTry g else t) (s1.advanceRaw (2 * (s1.raw / 2) + 2)).gndRun


/-! ## Replication and admission of a frame (R187, R188) -/

/-- The copies of a frame: egress port and REASON, the group's in ascending order, then SLOW_COPY, then BRIDGE. A frame that failed its
MACsec check has external destinations only (R304). -/
def State.targets (s : State) (f : Frame) : List (Nat × Nat) :=
  let base : List (Nat × Nat) :=
    if f.goKind = 0 then [(f.goDest, f.reason)]
    else if f.goKind = 1 then ((List.range 52).filter (fun p => bitOf (s.mcMask f.goDest) p && p != f.src)).map (fun p => (p, f.reason))
    else []
  let all := base ++ (if f.slowCopy then [(48, 3)] else []) ++ (if f.bridge then [(50, 0)] else [])
  if f.msecBad then all.filter (fun c => c.1 < 48) else all

/-- Decides the copies in order; the admitted ones, in order. -/
def State.admitAll (f : Frame) (ct : Bool) : List (Nat × Nat) → List Frame → State → List Frame × State
  | [], mine, s => (mine, s)
  | (p, r) :: t, mine, s =>
    let a := s.admitOne { f with reason := r } p ct mine
    State.admitAll f ct t (mine ++ a.1.toList) a.2

/-- Admits a frame whose destinations are resolved; the copies admitted. -/
def State.admitFrame (s : State) (f : Frame) (ct : Bool) : List Frame × State :=
  let f1 := { f with fid := s.gnd.nextFid }
  let ts := s.targets f1
  let s1 : State := { s with gnd := { s.gnd with nextFid := s.gnd.nextFid + 1 } }
  let s2 := if f.goKind = 1 ∨ ts.length > 1 then s1.count (gndC 5) ts.length else s1
  let r := State.admitAll f1 ct ts [] s2
  let c := r.2.giveCells r.1
  (c.1, c.2.launchCopies f.group c.1)

/-- Admits a frame that has its one destination from elsewhere (emit unit, direct transmit, eyelet, seal unit, bridge):
whether its copy was admitted. -/
def State.admitDirect (s : State) (f : Frame) (p : Nat) : Bool × State :=
  let r := s.admitFrame { f with goKind := 0, goDest := p, slowCopy := false, bridge := false } false
  (!r.1.isEmpty, r.2)

/-! ## The frame at the head of admission (R184) -/

/-- Capture and evidence of a frame (R18): only one that has passed its FCS, length and MACsec checks. On its second pass it is counted,
whatever its colour (R216, R305); on its first a red one is neither captured nor evidence. -/
def State.taps (s : State) (f : Frame) : State :=
  if f.msecBad ∨ (f.colour = 2 ∧ ¬ f.pass) then s
  else
  let s1 := if ¬ f.capture then s else if f.pass then s.count (bobC 3) else { s with capQ := s.capQ ++ [f] }
  if f.evidence then s1.evTake f else s1

/-- The counters of a frame's action record are credited (R157, R162). -/
def State.matched (s : State) (f : Frame) : State := if f.acted then (s.credit f.action 0 1).credit f.action 1 f.L else s

/-- The double-bit error that the admission of a frame meets: in the mask of its group, or in its policer (R347). -/
def State.admitBad (s : State) (f : Frame) : Option Nat :=
  (if f.goKind = 1 then s.maskBad f.goDest else none).or (if f.police then s.policerBad f.policer else none)

/-- The same reads: single-bit errors are corrected and counted (R347). -/
def State.admitSbe (s : State) (f : Frame) : State :=
  let s1 := if f.goKind = 1 then s.maskSbe f.goDest else s
  if f.police then s1.policerSbe f.policer else s1

/-- The oldest frame with a decision meets admission (R184): it is credited to its action record, metered, captured, replicated and admitted.
A red frame goes no further (R198). -/
def State.admitHead (s : State) : State :=
  match s.admQ with
  | [] => s
  | f :: q =>
    let s1 : State := { s with admQ := q }
    let ct := s.ctOk f
    if f.stomp ∧ ¬ ct then s1.notThrough f
    else
      match s1.admitBad f with
      | some x => s1.fatalDbe 2 x
      | none =>
        let m := ((s1.admitSbe f).matched f).police f ct
        let f1 := { f with colour := m.1 }
        let s2 := m.2.taps f1
        if m.1 = 2 then s2.credit f.action 2 1 else (s2.admitFrame f1 ct).2

/-- Before a frame of group 7 is injected at TIME_RAW `r`, the frames of lower groups decided in that cycle are admitted, and those before
them (R184). -/
def State.admitBefore (r : Nat) : Nat → State → State
  | 0, s => s
  | n + 1, s =>
    if s.forwarding && s.admQ.any (fun f => f.decided = r && f.group < 7) && s.admQ.head?.any (fun f => (s.admitBad f).isNone) then
      State.admitBefore r n s.admitHead
    else s

/-! ## Injection (R13) -/

/-- A datagram of the eyelet that admission refused (R358). -/
def State.eyeRefused (s : State) (kind n : Nat) : State :=
  ((s.count (eyeC 6)).setBit Rg.EYE_INT_STATUS 2).raiseFirst 0x0E03 0 noPort (kind + n * 2 ^ 32)

/-- What the emit unit counts of a frame of template `n` (R238): the frame, or its refusal because RSV_EMIT is full, which shows in the
TAIL_DROP of its queue, `before` admission. -/
def State.emitNote (s : State) (n cnt before : Nat) (f : Frame) (ok : Bool) : State :=
  if ok then s.count (bobC cnt)
  else if s.rd (Rg.BUF_QCNT f.goDest f.cls 2) = before then s
  else (s.count (bobC 9)).raiseFirst 0x0A07 0 f.goDest (n + f.cls * 2 ^ 12)

/-- What the eyelet counts of a datagram (R358, R361). -/
def State.eyeNote (s : State) (kind n : Nat) (ok : Bool) : State :=
  let s1 : State := if kind = 2 then { s with eye := { s.eye with gap := !ok } } else s
  if ok then s1.count (eyeC 5) else s1.eyeRefused kind n

/-- A frame of an internal source is injected and meets admission. -/
def State.injectOne (s : State) (f : Frame) (note : Note) : State :=
  let r := s.admitDirect f f.goDest
  match note with
  | .none => r.2
  | .emit n cnt => r.2.emitNote n cnt (s.rd (Rg.BUF_QCNT f.goDest f.cls 2)) f r.1
  | .eye kind n => r.2.eyeNote kind n r.1

/-- The waiting frames whose turn has come are injected. -/
def State.injectDue (s : State) : State :=
  let due (x : Inject) : Bool := x.due ≤ s.raw
  (s.gnd.inj.filter due).foldl (fun t x => (State.admitBefore x.due t.admQ.length t).injectOne x.copy x.note)
    { s with gnd := { s.gnd with inj := s.gnd.inj.filter (fun x => !due x) } }

/-- TIME_RAW from which port `p` may inject. -/
def State.injFree (s : State) (p : Nat) : Nat := sget s.gnd.injFree p 0

/-- Port `p` injects a frame of `n` bytes at TIME_RAW `at_`: the next one no sooner than its rate allows. -/
def State.paced (s : State) (p n at_ : Nat) : State :=
  { s with gnd := { s.gnd with injFree := sset s.gnd.injFree p 0 (at_ + s.wireTime p (n + 20)) } }

/-- A frame joins those that wait, in the order of its injection. -/
def joinInject (x : Inject) : List Inject → List Inject
  | [] => [x]
  | y :: t => if x.due < y.due then x :: y :: t else y :: joinInject x t

/-- A frame of port 48, 49 or 50 is offered for port `p`: it is injected now, or waits at its source until the rate of its port allows. -/
def State.offer (s0 : State) (f : Frame) (p : Nat) (note : Note) : State :=
  let s := s0.injectDue
  let g := { f with goKind := 0, goDest := p, slowCopy := false, bridge := false }
  let at_ := Nat.max s.raw (s.injFree f.src)
  let s1 := s.paced f.src g.L at_
  if at_ = s.raw then (State.admitBefore at_ s1.admQ.length s1).injectOne g note else { s1 with gnd := { s1.gnd with inj := joinInject ⟨at_, g, note⟩ s1.gnd.inj } }

/-- SPREAD_STALL, the waiting frames of the sources whose turn has come first. -/
def State.spreadStall (s : State) : State := s.injectDue.spreadNow

def execSpreadStall (s : State) : Host.Outcome State Fault Refusal := .next s.spreadStall

/-- FRAME_ADMISSION (R184): the oldest frame with a decision, the injections that are due first. -/
def State.frameAdmission (s0 : State) : State :=
  let s := s0.injectDue
  if s.forwarding then s.admitHead else s

/-! ## Stage 2 and the resequencer (R178 to R182) -/

/-- A copy enters its output queue; the LT of its enqueue is kept for R213. -/
def State.enqueue (s : State) (f : Frame) : State := { s with outQ := s.outQ ++ [{ f with enq := s.lt48 }] }

/-- Whether a copy belongs to a triple. -/
def Triple.of (t : Triple) (f : Frame) : Bool := t.src = f.src && t.egress = f.egress && t.cls = f.cls

/-- Sets the expected value of the triple of `f`. -/
def State.setExpect (s : State) (f : Frame) (e : Nat) : State :=
  { s with gnd := { s.gnd with triples := s.gnd.triples.map (fun t => if t.of f then { t with expect := e } else t) } }

/-- The expected value of the triple of `f`. -/
def State.expects (s : State) (f : Frame) : Nat :=
  match s.gnd.triples.find? (fun t => t.of f) with
  | none => 0
  | some t => t.expect

/-- Releases held copies of the triple of `f` while the expected one is among them. -/
def State.releaseRun (s : State) (f : Frame) : Nat → State
  | 0 => s
  | n + 1 =>
    let e := s.expects f
    let is (h : Held) : Bool := h.copy.src = f.src && h.copy.egress = f.egress && h.copy.cls = f.cls && h.copy.seq = e
    match s.gnd.held.find? is with
    | none => s
    | some h =>
      let s1 : State := { s with gnd := { s.gnd with held := s.gnd.held.filter (fun x => !is x) } }
      State.releaseRun ((s1.enqueue h.copy).setExpect f ((e + 1) % 1024)) f n

/-- A copy that arrived at its egress group at TIME_RAW `raw`: released in order, held when early, dropped when it comes after its skip. -/
def State.arrives (s : State) (f : Frame) (raw : Nat) : State :=
  let e := s.expects f
  let ahead := (f.seq + 1024 - e) % 1024
  if ahead = 0 then ((s.enqueue f).setExpect f ((e + 1) % 1024)).releaseRun f 1024
  else if ahead < 512 then { s with gnd := { s.gnd with held := s.gnd.held ++ [⟨f, raw⟩] } }
  else s.count (gndC 1)

/-- The copy that reached egress group `g` first and has not been released. -/
def State.nextArrival (s : State) (g : Nat) : Option Flight :=
  s.gnd.flight.foldl (fun a x =>
    if groupOf x.copy.egress ≠ g ∨ x.arrived.isNone then a
    else
      match a with
      | none => some x
      | some y => if x.arrived.getD 0 < y.arrived.getD 0 then some x else a) none

/-- The ground run on to the slot in which a copy reaches egress group `g`, and TIME_RAW with it, with the injections that fall due before;
nothing where no copy is on its way. -/
def State.arrivalIn (g : Nat) : Nat → State → State
  | 0, s => s
  | n + 1, s0 =>
    let s := s0.injectDue.gndRun
    if (s.nextArrival g).isSome then s
    else
      let t := State.gndSlots (fun u => (u.nextArrival g).isSome) gndFuel s
      match t.nextArrival g, s.gnd.inj.head? with
      | none, none => s
      | some x, none => t.advanceRaw (x.arrived.getD 0)
      | none, some i => State.arrivalIn g n (s.advanceRaw i.due)
      | some x, some i => if x.arrived.getD 0 < i.due then t.advanceRaw (x.arrived.getD 0) else State.arrivalIn g n (s.advanceRaw i.due)

def State.toArrival (s : State) (g : Nat) : State := State.arrivalIn g (s.gnd.inj.length + 1) s

/-- RESEQ_RELEASE (R181): a copy arrives at egress group `g`. -/
def State.reseqRelease (s0 : State) (g : Nat) : State :=
  let s := s0.toArrival g
  match s.nextArrival g with
  | none => s
  | some x => ({ s with gnd := { s.gnd with flight := s.gnd.flight.erase x } } : State).arrives x.copy (x.arrived.getD 0)

def execReseqRelease (g : Fin 8) (s : State) : Host.Outcome State Fault Refusal := .next (s.reseqRelease g.val)

/-- The copies that have reached egress group `g` by TIME_RAW `r` are released, held or dropped in their turn. -/
def State.arriveTill (g r : Nat) : Nat → State → State
  | 0, s => s
  | n + 1, s =>
    match s.nextArrival g with
    | none => s
    | some x =>
      if x.arrived.getD 0 ≤ r then
        State.arriveTill g r n (({ s with gnd := { s.gnd with flight := s.gnd.flight.erase x } } : State).arrives x.copy (x.arrived.getD 0))
      else s

/-- The triple of a held copy skips to the held copy of lowest SEQ; the cells of copies that were lost return to the pool (R193). -/
def State.skipTo (s1 : State) (f : Frame) : State :=
  let e := s1.expects f
  let mine := s1.gnd.held.filter (fun x => x.copy.src = f.src && x.copy.egress = f.egress && x.copy.cls = f.cls)
  let low := mine.foldl (fun a x => Nat.min a ((x.copy.seq + 1024 - e) % 1024)) ((f.seq + 1024 - e) % 1024)
  let s2 := ((s1.count (gndC 0)).setBit Rg.BUF_INT_STATUS 0).raise 0x0801 noPort
    (f.src + f.egress * 2 ^ 8 + f.cls * 2 ^ 16 + e * 2 ^ 32)
  let gone (x : Flight) : Bool := x.lost && x.copy.src = f.src && x.copy.egress = f.egress && x.copy.cls = f.cls
    && decide ((x.copy.seq + 1024 - e) % 1024 < low)
  let s3 := (s2.gnd.flight.filter gone).foldl (fun t x => t.brgDrop x.copy 9)
    { s2 with gnd := { s2.gnd with flight := s2.gnd.flight.filter (fun x => !gone x) } }
  (s3.setExpect f ((e + low) % 1024)).releaseRun f 1024

/-- RESEQ_SKIP (R182): 2 µs after the oldest held copy of the group arrived, its triple skips, unless the copy it waits for has arrived by
then. -/
def State.reseqSkip (s : State) (g : Nat) : State :=
  match s.gnd.held.find? (fun h => groupOf h.copy.egress = g) with
  | none => s
  | some h =>
    let r := h.raw + us 2
    let s0 := (s.advanceRaw r).injectDue.gndRun
    let s1 := State.arriveTill g r s0.gnd.flight.length s0
    if s1.gnd.held.contains h then s1.skipTo h.copy else s1

def execReseqSkip (g : Fin 8) (s : State) : Host.Outcome State Fault Refusal := .next (s.reseqSkip g.val)

end Sys2Proof.Machine
end

