-- ==== Sys2Proof/Machine/Stamp.lean ====
section
/-! DEFINITION. The timestamp capture queues (R43, R44). -/

namespace Sys2Proof.Machine

/-- The records of group `g`, oldest first. -/
def State.tsqOf (s : State) (g : Nat) : List (BitVec 128) := sget s.tsq g []

/-- A capture record: the transmit time in 2^-16 ns, TAG, egress port, records lost before it, hoop index. -/
def tsRecord (t : Int) (tag port lost hoop : Nat) : BitVec 128 :=
  let ns := t / 65536
  let w1 := unsigned 48 ns / 2 ^ 32 + unsigned 16 t * 2 ^ 16
  let w2 := tag % 65536 + port * 2 ^ 16 + (if lost = 0 then 0 else 2 ^ 22 + Nat.min lost 255 * 2 ^ 24)
  BitVec.ofNat 128 (unsigned 32 ns + w1 * 2 ^ 32 + w2 * 2 ^ 64 + hoop % 2 ^ 32 * 2 ^ 96)

/-- The transmit time of a frame that crosses the timestamp point of port `p` now (R41). -/
def State.txTime (s : State) (p : Nat) : Int :=
  if isEth p then s.lt + signed 32 (s.rd (Rg.TIME_CAL_TX p)) else s.lt

/-- Queues a capture record of port `p` for the transmit time `t`, with the records lost before it. -/
def State.tsQueue (s : State) (p tag : Nat) (t : Int) : State :=
  let g := groupOf p
  let r := tsRecord t tag p (sget s.tsqLost g 0) (s.hoopOf (t / 65536))
  { s with tsq := sset s.tsq g [] (s.tsqOf g ++ [r]), tsqLost := serase s.tsqLost g }

/-- A capture record of port `p` for the transmit time `t` arrives (R43). One that finds its group's queue full is lost with the end of the
cycle, unless a pop in the same cycle makes room (R44). -/
def State.tsCaptureAt (s : State) (p tag : Nat) (t : Int) : State :=
  if (s.tsqOf (groupOf p)).length ≥ 64 then { s with cyc := { s.cyc with tsWait := s.cyc.tsWait ++ [(Fin.ofNat 48 p, tag, t)] } }
  else s.tsQueue p tag t

/-- A frame with timestamp-capture crosses the transmit timestamp point of port `p`. -/
def State.tsCapture (s : State) (p tag : Nat) : State := s.tsCaptureAt p tag (s.txTime p)

/-- A read of the oldest record of a group: one with a double-bit error is lost, as in R44 (R347). -/
def State.tsqRead (s : State) (g : Nat) : State :=
  match s.tsqOf g with
  | [] => s
  | r :: t =>
    if ¬ s.isBad 11 (8 * g) then s.sbeAt 11 (8 * g)
    else (({ s with tsq := sset s.tsq g [] t } : State).dbeSeen 11 (8 * g)).mended 11 (8 * g) |>.tsLose (r.toNat / 2 ^ 80 % 64)

/-- TIME_TSQ_POP (R43): writing 1 removes the oldest record of a group; ignored when the queue is empty. A record of the same cycle that
waits is then queued (R44). -/
def State.tsqPop (s0 : State) (g v : Nat) : State :=
  if ¬ bitOf v 0 then s0
  else
    let s := s0.mended 11 (8 * g)
    let s1 : State := { s with tsq := sset s.tsq g [] (s.tsqOf g).tail }
    match s.cyc.tsWait.find? (fun w => groupOf w.1.val = g) with
    | none => s1
    | some w => ({ s1 with cyc := { s1.cyc with tsWait := s1.cyc.tsWait.erase w } } : State).tsQueue w.1.val w.2.1 w.2.2

def execTimeTsqPop (g : Fin 8) (value : Word) (s : State) : Host.Outcome State Fault Refusal :=
  .next (s.fw (·.tsqPop g.val value.toNat))

end Sys2Proof.Machine
end

