-- ==== Sys2Proof/Machine/Rewrite.lean ====
section
/-! DEFINITION. Rewrites of a copy that leaves its output buffer (R156 to R158, R404), and one-step time insertion (R40). -/

namespace Sys2Proof.Machine

/-! ## Rewrites -/

/-- The next value of the Akzor sequence counter of egress port `p` (R158). -/
def State.akzorNext (s : State) (p : Nat) : Nat × State :=
  let n := sget s.tbl.akzorSeq p 0
  (n, s.setTbl (fun t => { t with akzorSeq := sset t.akzorSeq p 0 ((n + 1) % 65536) }))

/-- The outer Ethernet header and trunk header of an Akzor encapsulation built by this node (R158). -/
def State.akzorHead (s : State) (kind cls colour dest srcPort hoop len seq : Nat) : Bytes :=
  beBytes 6 (s.rd64 Rg.TBL_AKZOR_DA) ++ beBytes 6 (s.rd64 Rg.TBL_AKZOR_SA) ++ beBytes 2 (s.fd Rg.PARSE_AKZOR_CFG Fl.PARSE_AKZOR_CFG_ETYPE)
    ++ beBytes 1 (16 + kind) ++ beBytes 1 (cls * 32 + colour * 8) ++ beBytes 2 s.node ++ beBytes 2 dest
    ++ beBytes 1 (s.fd Rg.TBL_NODE_CFG Fl.TBL_NODE_CFG_HOPS_M1 + 1) ++ beBytes 1 srcPort ++ beBytes 4 hoop ++ beBytes 2 len
    ++ beBytes 2 seq

/-- Code 4: the copy becomes the payload of an Akzor frame. -/
def State.encapsulate (s : State) (p : Nat) (f : Frame) : Option Frame × State :=
  let fmt := byteAt f.data 0 / 64
  if f.isCan ∧ fmt = 3 then (none, s)
  else
    let q := s.akzorNext p
    let head := s.akzorHead (if f.isCan then 1 + fmt else 0) f.cls f.colour (f.rwArg % 65536) f.src f.tsHoop f.data.length q.1
    (some { f with data := head ++ f.data, isCan := false }, q.2)

/-- Code 5: the payload of an Akzor frame is restored. -/
def State.decapsulate (s : State) (f : Frame) : Option Frame :=
  if f.isCan then none
  else
    match s.akzorAt f.data with
    | none => none
    | some o =>
      let kind := byteAt f.data o % 16
      if kind ≥ 4 then none
      else some { f with data := (f.data.drop (o + 16)).take (be f.data (o + 12) 2), isCan := decide (kind ≥ 1) }

/-- The DLC of a length, as code 6 writes it. -/
def dlcOf (n : Nat) : Nat :=
  if n ≤ 8 then n else if n ≤ 12 then 9 else if n ≤ 16 then 10 else if n ≤ 20 then 11 else if n ≤ 24 then 12
  else if n ≤ 32 then 13 else if n ≤ 48 then 14 else 15

/-- Code 6: the format of a CAN header. -/
def canFormat (d : Bytes) (arg : Nat) : Bytes :=
  let fmt := arg % 4
  let b0 := byteAt d 0
  let d1 := patch d 0 (beBytes 1 (fmt * 64 + b0 % 64))
  let d2 := if b0 / 64 = fmt then d1 else patch d1 1 (beBytes 1 (if fmt = 2 then 0 else dlcOf (be d 12 2)))
  if fmt = 2 then patch d2 6 (beBytes 1 (arg / 2 ^ 8) ++ beBytes 1 (arg / 2 ^ 16)) else d2

/-- The rewrite of a copy for port `p` (R157); `none` where it cannot act (R404). -/
def State.rewriteCopy (s : State) (p : Nat) (f : Frame) : Option Frame × State :=
  let d := f.data
  match f.rewrite with
  | 0 => (some f, s)
  | 1 => if f.isCan then (none, s) else (some { f with data := d.take 12 ++ [0x81, 0x00] ++ beBytes 2 f.rwArg ++ d.drop 12 }, s)
  | 2 => if f.isCan then (none, s) else if isTagged d then (some { f with data := d.take 12 ++ d.drop 16 }, s) else (some f, s)
  | 3 =>
    if f.isCan ∨ ¬ isTagged d then (none, s)
    else (some { f with data := patch d 14 (beBytes 2 (be d 14 2 / 4096 * 4096 + f.rwArg % 4096)) }, s)
  | 4 => s.encapsulate p f
  | 5 => (s.decapsulate f, s)
  | 6 => if f.isCan then (some { f with data := canFormat d f.rwArg }, s) else (none, s)
  | _ => (some f, s)

/-- A rewrite that could not act on a copy (R404). -/
def State.rewriteDrop (s : State) (p : Nat) (f : Frame) : State :=
  let m := s.mark (0x0908 * 65536 + p)
  let s1 := m.2.count (egrC p 3)
  if m.1 = 1 then s1.raise 0x0908 p (f.rewrite + f.cls * 16 + m.1 * 2 ^ 16) else s1

/-- The Akzor hop count of a frame forwarded on a NODE decision, reduced by one as it leaves an external port (R156). -/
def hopDown (p : Nat) (f : Frame) : Frame :=
  if f.hopAt = 0 ∨ p ≥ 48 then f else { f with data := patch f.data (f.hopAt + 5) (beBytes 1 (byteAt f.data (f.hopAt + 5) - 1)) }

/-- The stomp-propagate flag of an Akzor frame (R191): set when it is sent cut-through on a port of 0 to 3, clear when it is sent
store-and-forward. -/
def State.stompFlag (s : State) (p : Nat) (f : Frame) : Frame :=
  match s.akzorAt f.data with
  | none => f
  | some o =>
    let b := byteAt f.data (o + 1)
    let bit := if f.ct then (if p < 4 then 4 else b / 4 % 2 * 4) else 0
    { f with data := patch f.data (o + 1) (beBytes 1 (b / 8 * 8 + b % 4 + bit)) }

/-! ## One-step time transport (R40, R400) -/

/-- The one's complement sum of 16-bit words, modulo 65,535; an odd byte at the end counts as the high byte. -/
def onesSum (b : Bytes) : Nat := ((List.range (cdiv b.length 2)).foldl (fun a i => a + be b (2 * i) 2) 0) % 65535

/-- LT in the IEEE 1588 wire form (R400): 48-bit seconds and 32-bit nanoseconds. -/
def ieeeTime (ns : Int) : Bytes := beBytes 6 (unsigned 48 (ns / 1000000000)) ++ beBytes 4 (ns % 1000000000).toNat

/-- Where a PTP event message starts in a frame, under the MODE of the port: Ethernet, UDP/IPv4 or UDP/IPv6 to port 319. -/
def ptpAt (mode : Nat) (d : Bytes) : Option Nat :=
  if mode ≤ 1 then
    let t := 12 + tagBytes d 12 4
    if be d t 2 = 0x88F7 then some (t + 2) else none
  else
    match udpAt (decide (mode = 3)) d with
    | some u => if be d (u.udp + 2) 2 = 319 then some (u.udp + 8) else none
    | none => none

/-- The checksum work after the bytes from `o` on changed from `old` to `new`: the UDP/IPv4 checksum is adjusted unless it is
zero, and the UDP/IPv6 trailer behind the message takes the difference. -/
def ptpFix (mode o : Nat) (old new : Bytes) : Bytes :=
  let a := onesSum (old.drop o)
  let b := onesSum (new.drop o)
  if mode = 2 then
    let c := be old (o - 2) 2
    if c = 0 then new else patch new (o - 2) (beBytes 2 (65535 - (65535 - c + b + 65535 - a) % 65535))
  else if mode = 3 then
    let e := o + be old (o + 2) 2
    if e + 2 ≤ new.length then patch new e (beBytes 2 ((be old e 2 + a + 65535 - b) % 65535)) else new
  else new

/-- One-step insertion into a Sync or Pdelay_Resp that leaves port `p` (R40): the residence time of a relayed message is added
to its correction field; any other gets its origin timestamp, with the 16-bit fraction in the correction field. -/
def State.oneStep (s : State) (p : Nat) (f : Frame) : Frame :=
  let c := s.rd (Rg.TIME_PTP_CFG p)
  let mode := fieldOf c Fl.TIME_PTP_CFG_MODE
  if ¬ isEth p ∨ fieldOf c Fl.TIME_PTP_CFG_ENABLE = 0 ∨ fieldOf c Fl.TIME_PTP_CFG_ONE_STEP = 0 ∨ f.isCan then f
  else
    match ptpAt mode f.data with
    | none => f
    | some o =>
      let ty := byteAt f.data o % 16
      if ty ≠ 0 ∧ ty ≠ 3 then f
      else
        let t := s.txTime p
        let corr (v : Int) : Bytes := beBytes 8 (unsigned 64 ((be f.data (o + 8) 8 : Nat) + v))
        let d :=
          if fieldOf c Fl.TIME_PTP_CFG_RELAY = 1 ∧ isEth f.src then patch f.data (o + 8) (corr (t - f.sof))
          else patch (patch f.data (o + 8) (corr (t % 65536))) (o + 34) (ieeeTime (t / 65536))
        { f with data := ptpFix mode o f.data d }

/-- The length as sent of a copy for port `p`, FCS included, after rewrite and MACsec expansion (R202). -/
def State.sentLen (s : State) (p : Nat) (f : Frame) : Nat :=
  let g := (s.rewriteCopy p f).1.getD f
  if isCan p ∨ p ≥ 48 then g.L else Nat.max 64 (g.data.length + s.msecExtra p + 4)

end Sys2Proof.Machine
end

