-- ==== Sys2Proof/Machine/T1s.lean ====
section
/-! DEFINITION. 10BASE-T1S ports 24 to 31 (R122 to R126): reception and PLCA. Sending is in T1sTx. -/

namespace Sys2Proof.Machine

def State.t1sOn (s : State) (p : Nat) : Bool := s.flag (Rg.T1S_CFG p) Fl.T1S_CFG_ENABLE
def State.t1sCoord (s : State) (p : Nat) : Bool := s.flag (Rg.T1S_CFG p) Fl.T1S_CFG_ROLE
def State.t1sFallen (s : State) (p : Nat) : Bool := s.flag (Rg.T1S_STATUS p) Fl.T1S_STATUS_FALLBACK

/-- The class of a frame on a T1S port (R122, as R94 without filters). -/
def State.t1sClass (s : State) (p : Nat) (d : Bytes) : Nat :=
  let m := s.rd (Rg.T1S_CLASS_MAP p)
  if isTagged d then bits m (3 * (outerTci d / 8192)) 3 else bits m 24 3

/-- Whether a source address is a declared member (R126). -/
def State.t1sMember (s : State) (p : Nat) (sa : Nat) : Bool :=
  (List.range 16).any (fun m => s.fd (Rg.T1S_MEMBER p m) Fl.T1S_MEMBER_VALID = 1 && s.rd64 (Rg.T1S_MEMBER p m) % 2 ^ 48 = sa)

/-- A good frame: members go to the parser; a stranger is counted, and dropped or sent to the slow path. -/
def State.t1sGood (s : State) (p : Nat) (d : Bytes) : State :=
  let fr := { s.arrive p d (d.length + 4) with ts := s.lt, tsHoop := s.hoopOf s.ltNs, tsTrust := s.trustAt s.ltNs, sof := s.lt - (((d.length + 4) * 8 * 1000000000 * 65536 / s.portRate p : Nat) : Int), cls := s.t1sClass p d }
  let sa := be d 6 6
  if s.t1sMember p sa then { s with rxQ := s.rxQ ++ [fr] }
  else
    let s1 := ((s.count (t1sC p 8)).setBit (Rg.T1S_INT_STATUS p) 2).raiseFirst 0x0509 p p (sa % 2 ^ 32)
    if s1.flag (Rg.T1S_MEMBER_CFG p) Fl.T1S_MEMBER_CFG_STRANGER_ACT then
      s1.toAdmission { fr with goDest := 48, reason := 4 }
    else s1

/-- The T1S counter of a bad frame (R122): the length rules of R90, 16,384 bytes or more counting as oversize. -/
def t1sBad (n maxFrame : Nat) (rx : RxFrame) : Option Nat :=
  match badCounter n maxFrame rx with
  | none => none
  | some 14 => some 2
  | some 15 => some 3
  | some 18 => some 5
  | some _ => some 4

/-- T1S_FRAME_RECEIVE (R122). -/
def State.t1sReceive (s0 : State) (p : Nat) (rx0 : RxFrame) : State :=
  if ¬ s0.t1sOn p then s0
  else
  let bad := s0.isBad 0 (Mm.fifo + 8 * p)
  let s := if bad then (s0.dbeSeen 0 (Mm.fifo + 8 * p)).mended 0 (Mm.fifo + 8 * p) else s0.sbeAt 0 (Mm.fifo + 8 * p)
  let rx := { rx0 with symErr := rx0.symErr || bad }
  let n := rx.data.length + 4
  if s.forwarding then
    match t1sBad n (s.maxFrame p) rx with
    | some c => s.count (t1sC p c)
    | none => (((s.count (t1sC p 0) n).count (t1sC p 1)).notQuiet).t1sGood p rx.data
  else if s.pwr.phase = .doze ∧ rx.fcs = .good then s.dozeFrame p (rx.data ++ fcsOf rx.data false)
  else s

def execT1sFrameReceive (lapse : Nat) (n : Fin 8) (rx : RxFrame) (s : State) : Host.Outcome State Fault Refusal :=
  .next ((s.advance lapse).t1sReceive (24 + n.val) rx)

/-- Whether a port's PHY runs: enabled, and after the lock. -/
def State.t1sLive (s : State) (p : Nat) : Bool := s.t1sOn p && s.serdesOn

/-- TIME_RAW at which a follower has seen no BEACON for four periods (R124). -/
def State.fallbackAt (s : State) (p : Nat) : Nat := (s.t1sP p).beaconAt + us (4 * s.fd (Rg.T1S_BEACON p) Fl.T1S_BEACON_BEACON_PERIOD)

/-- PLCA is in force on the enabled T1S ports from the moment their PHYs run (DESIGN CHOICE, log 143): the four periods of R124 begin
there. -/
def State.plcaStart (s : State) (p : Nat) : State :=
  if ¬ s.t1sOn p then s
  else (s.setT1sP p { t1sInit with beaconAt := s.raw }).sf (Rg.T1S_STATUS p) Fl.T1S_STATUS_PLCA_ACTIVE 1

/-- T1S_PLCA_FALLBACK (R124): a follower has seen no BEACON for four periods. A coordinator never falls back. -/
def State.t1sFallback (s0 : State) (p : Nat) : State :=
  if ¬ s0.t1sLive p ∨ s0.t1sCoord p ∨ s0.t1sFallen p then s0
  else
    let s := s0.advanceRaw (s0.fallbackAt p)
    let s1 := (s.sf (Rg.T1S_STATUS p) Fl.T1S_STATUS_PLCA_ACTIVE 0).sf (Rg.T1S_STATUS p) Fl.T1S_STATUS_FALLBACK 1
    ((s1.count (t1sC p 12)).setBit (Rg.T1S_INT_STATUS p) 1).raise 0x0507 p 0

def execT1sPlcaFallback (lapse : Nat) (n : Fin 8) (s : State) : Host.Outcome State Fault Refusal :=
  .next ((s.advance lapse).t1sFallback (24 + n.val))

/-- T1S_PLCA_RESTORED (R124): the first BEACON seen again. -/
def State.t1sRestored (s : State) (p : Nat) : State :=
  if ¬ s.t1sLive p ∨ ¬ s.t1sFallen p then s
  else
    let s1 := (s.sf (Rg.T1S_STATUS p) Fl.T1S_STATUS_PLCA_ACTIVE 1).sf (Rg.T1S_STATUS p) Fl.T1S_STATUS_FALLBACK 0
    ((s1.setT1sP p { s1.t1sP p with attempts := 0, beaconAt := s1.raw, burst := 0 }).setBit (Rg.T1S_INT_STATUS p) 1).raise 0x0508 p 0

def execT1sPlcaRestored (lapse : Nat) (n : Fin 8) (s : State) : Host.Outcome State Fault Refusal :=
  .next ((s.advance lapse).t1sRestored (24 + n.val))

/-- T1S_PLCA_COLLISION (R125): a physical collision while PLCA is active; the frame being sent is retried in the node's next
opportunity, and the present one is over. -/
def State.t1sCollision (s : State) (p : Nat) : State :=
  if ¬ s.t1sLive p ∨ s.t1sFallen p then s
  else
    let own := s.fd (Rg.T1S_CFG p) Fl.T1S_CFG_NODE_ID
    let s1 := ((s.count (t1sC p 9)).setBit (Rg.T1S_INT_STATUS p) 0).raise 0x0506 p own
    { s1.setT1sP p { s1.t1sP p with burst := 0 } with
      sending := s1.sending.map (fun x => if x.port = p then { x with dead := true } else x) }

def execT1sPlcaCollision (lapse : Nat) (n : Fin 8) (s : State) : Host.Outcome State Fault Refusal :=
  .next ((s.advance lapse).t1sCollision (24 + n.val))

/-- CSMA_COLLISION (R124): a collision in CSMA/CD; after 16 attempts the frame is abandoned. -/
def State.csmaCollision (s : State) (p : Nat) : State :=
  if ¬ s.t1sLive p ∨ ¬ s.t1sFallen p then s
  else
    let s1 := s.count (t1sC p 10)
    if ¬ s1.sending.any (fun x => x.port = p) then s1
    else
      let n := (s1.t1sP p).attempts + 1
      if n ≥ 16 then
        let gone := s1.sending.filter (fun x => x.port = p)
        gone.foldl (fun t x => t.brgDrop x.copy 9)
          (({ s1.setT1sP p { s1.t1sP p with attempts := 0 } with sending := s1.sending.filter (fun x => x.port ≠ p) } : State).count (t1sC p 11))
      else
        { s1.setT1sP p { s1.t1sP p with attempts := n } with
          sending := s1.sending.map (fun x => if x.port = p then { x with dead := true } else x) }

def execCsmaCollision (lapse : Nat) (n : Fin 8) (s : State) : Host.Outcome State Fault Refusal :=
  .next ((s.advance lapse).csmaCollision (24 + n.val))

end Sys2Proof.Machine
end

