-- ==== Sys2Proof/Machine/Egress.lean ====
section
/-! DEFINITION. Egress of ports 0 to 31, 48, 50 and 51 (R201 to R215): shapers, gates, launch times, the scheduler, and the
frames on the wire. -/

namespace Sys2Proof.Machine

/-! ## Shapers (R204, R205) -/

/-- RATE, BURST and TOKENS registers of shaper `k` of a port: class `k`, or 8 for the port. -/
def shRate (p k : Nat) : Reg := if k = 8 then Rg.EGR_PSHAPE_RATE p else Rg.EGR_QSHAPE_RATE p k
def shBurst (p k : Nat) : Reg := if k = 8 then Rg.EGR_PSHAPE_BURST p else Rg.EGR_QSHAPE_BURST p k
def shTokens (p k : Nat) : Reg := if k = 8 then Rg.EGR_PSHAPE_TOKENS p else Rg.EGR_QSHAPE_TOKENS p k

def State.shOn (s : State) (p k : Nat) : Bool := s.flag (shBurst p k) Fl.EGR_QSHAPE_BURST_EN
def State.tokens (s : State) (p k : Nat) : Int := signed 32 (s.rd (shTokens p k))
def State.setTokens (s : State) (p k : Nat) (v : Int) : State := s.wr (shTokens p k) (unsigned 32 v)

/-- Tokens of shaper `k` accrue over `dt` ns of TIME_RAW: RATE × dt / 8,000,000 bytes, at most up to BURST. -/
def State.accrue (p dt : Nat) (s : State) (k : Nat) : State :=
  if ¬ s.shOn p k then s
  else
    let e := s.egrP p
    let burst : Int := (s.fd (shBurst p k) Fl.EGR_QSHAPE_BURST_BURST : Nat)
    let u := s.fd (shRate p k) Fl.EGR_QSHAPE_RATE_RATE * dt + sget e.shapeRem k 0
    let v := s.tokens p k + ((u / 8000000 : Nat) : Int)
    if v ≥ burst then (s.setTokens p k burst).setEgrP p { e with shapeRem := serase e.shapeRem k }
    else (s.setTokens p k v).setEgrP p { e with shapeRem := sset e.shapeRem k 0 (u % 8000000) }

/-- Brings the shapers of a port up to date. -/
def State.shape (s : State) (p : Nat) : State :=
  let dt := s.raw - (s.egrP p).shapeAt
  let s1 := (List.range 9).foldl (State.accrue p dt) s
  s1.setEgrP p { s1.egrP p with shapeAt := s1.raw }

/-- Whether shaper `k` holds tokens; one that is disabled always does. -/
def State.shOk (s : State) (p k : Nat) : Bool := !s.shOn p k || s.tokens p k ≥ 0

/-- A frame of `n` bytes as sent ends: the tokens fall by it and OVERHEAD. -/
def State.debit (n p : Nat) (s : State) (k : Nat) : State :=
  if s.shOn p k then s.setTokens p k (s.tokens p k - ((n + s.fd (Rg.EGR_SCHED p) Fl.EGR_SCHED_OVERHEAD : Nat) : Int)) else s

/-- The port and the shaper a register address names, and whether it is the RATE register. -/
def shaperAt (a : Nat) : Option (Nat × Nat × Bool) :=
  let p := (a - 0x10500000) / 0x1000
  let o := a % 0x1000
  if a < 0x10500000 ∨ p > 51 ∨ p = 49 then none
  else if o = 0x14 then some (p, 8, true)
  else if o = 0x18 then some (p, 8, false)
  else if 0x40 ≤ o ∧ o < 0x140 ∧ o % 0x20 = 0x08 then some (p, (o - 0x40) / 0x20, true)
  else if 0x40 ≤ o ∧ o < 0x140 ∧ o % 0x20 = 0x0C then some (p, (o - 0x40) / 0x20, false)
  else none

/-- A write of RATE, or of BURST and EN, of a shaper (R205). -/
def State.shaperSet (s : State) (p k : Nat) (isRate : Bool) (v : Nat) : State :=
  let s1 := s.shape p
  if isRate then
    if v % 2 ^ 27 = 0 ∧ s1.shOn p k then s1.ignored (shRate p k).addr v else s1.wr (shRate p k) (v % 2 ^ 27)
  else if bitOf v 31 ∧ s1.fd (shRate p k) Fl.EGR_QSHAPE_RATE_RATE = 0 then s1.ignored (shBurst p k).addr v
  else
    let was := s1.shOn p k
    let burst := v % 2 ^ 24
    let s2 := s1.wr (shBurst p k) (burst + b2n (bitOf v 31) * 2 ^ 31)
    if bitOf v 31 ∧ (¬ was ∨ s2.tokens p k > ((burst : Nat) : Int)) then s2.setTokens p k ((burst : Nat) : Int) else s2

def State.shaperWrite (s : State) (a v : Nat) : State :=
  match shaperAt a with
  | none => s
  | some (p, k, r) => s.shaperSet p k r v

/-- SHAPER_WRITE (R205). An address that is no shaper's RATE or BURST is not this command's, and nothing happens. -/
def execShaperWrite (lapse : Nat) (addr value : Word) (s : State) : Host.Outcome State Fault Refusal :=
  .next ((s.advance lapse).fw (·.shaperWrite addr.toNat value.toNat))

/-! ## Gate lists (R206, R207, R211) -/

/-- A stretch of a repeat: start in ns after the repeat boundary, states, entry. -/
structure Seg where
  start  : Nat
  states : Nat
  entry  : Nat
  deriving DecidableEq, Repr

/-- Entry `k` of a port's list: DURATION and STATES. -/
def State.gateEntry (s : State) (p k : Nat) : Nat × Nat :=
  let b := s.ram (Mm.gate + 0x800 * p + 8 * k) 5
  (be b 0 4, byteAt b 4)

/-- Nanoseconds of a repeat. -/
def State.repeatNs (s : State) : Nat := s.repeatLen * s.period

/-- The stretches of one repeat on a port; none when the list is empty or unreadable: all gates open. -/
def State.segs (s : State) (p : Nat) : List Seg :=
  let n := s.fd (Rg.EGR_GATE_CFG p) Fl.EGR_GATE_CFG_LEN
  if n = 0 ∨ ¬ (p < 32) ∨ s.flag (Rg.EGR_GATE_STATUS p) Fl.EGR_GATE_STATUS_FATAL then []
  else
    let r := (List.range n).foldl (fun (a : Nat × List Seg) k =>
      let e := s.gateEntry p k
      if e.1 = 0 then a else (a.1 + e.1, a.2 ++ [⟨a.1, e.2, k⟩])) (0, [])
    if r.1 < s.repeatNs then r.2 ++ [⟨r.1, (s.gateEntry p (n - 1)).2, n - 1⟩] else r.2

/-- LT in ns of the repeat boundary of the repeat in progress. -/
def State.repeatB (s : State) : Int := s.lastB - ((s.fd Rg.HOOP_POS Fl.HOOP_POS_POS * s.period : Nat) : Int)

/-- The close time of class `c` at LT `t`, 2^-16 ns, searched through the current repeat and the next: in the stretches
given, each with its end; `none` when the gate does not close. -/
def closeIn (base : Int) (t : Int) (c : Nat) : List (Seg × Nat) → Option Int
  | [] => none
  | (g, e) :: rest =>
    let from_ := (base + ((g.start : Nat) : Int)) * 65536
    let till := (base + ((e : Nat) : Int)) * 65536
    if till ≤ t ∨ bitOf g.states c then closeIn base t c rest else some (if t ≤ from_ then from_ else t)

/-- Stretches with their ends. -/
def withEnds (last : Nat) : List Seg → List (Seg × Nat)
  | [] => []
  | [g] => [(g, last)]
  | g :: h :: t => (g, h.start) :: withEnds last (h :: t)

def State.closeTime (s : State) (p c : Nat) (t : Int) : Option Int :=
  let d := s.repeatNs
  let one := s.segs p
  let two := one ++ one.map (fun g => { g with start := g.start + d })
  closeIn s.repeatB t c (withEnds (2 * d) two)

/-- WMAX (R211): the longest run of time, in ns, in which class `c` is open, across the repeat boundary too. -/
def State.wmaxOf (s : State) (p c : Nat) : Nat :=
  let d := s.repeatNs
  let one := withEnds d (s.segs p)
  if one.all (fun g => bitOf g.1.states c) then 0xFFFFFFFF
  else
    ((one ++ one).foldl (fun (a : Nat × Nat) g =>
      if bitOf g.1.states c then
        let run := a.1 + (g.2 - g.1.start)
        (run, Nat.max a.2 run)
      else (0, a.2)) (0, 0)).2

/-- The loader computes WMAX of a port's classes when its list is applied. -/
def State.setWmax (s : State) (p : Nat) : State :=
  (List.range 8).foldl (fun t c => t.wr (Rg.EGR_GATE_WMAX p c) (s.wmaxOf p c)) s

/-- The stretch in force at LT `ns`. -/
def State.segAt (s : State) (p : Nat) (ns : Int) : Option Seg :=
  (s.segs p).foldl (fun a g => if s.repeatB + ((g.start : Nat) : Int) ≤ ns then some g else a) none

/-- Shows the entry and the states in force. -/
def State.gateShow (s : State) (p : Nat) : State :=
  match s.segAt p s.ltNs with
  | none => (s.sf (Rg.EGR_GATE_STATUS p) Fl.EGR_GATE_STATUS_ENTRY 0).sf (Rg.EGR_GATE_STATUS p) Fl.EGR_GATE_STATUS_STATES 0xFF
  | some g => (s.sf (Rg.EGR_GATE_STATUS p) Fl.EGR_GATE_STATUS_ENTRY g.entry).sf (Rg.EGR_GATE_STATUS p) Fl.EGR_GATE_STATUS_STATES g.states

/-- Whether EGR_GATE_STATUS shows the stretch in force. -/
def State.gateShown (s : State) (p : Nat) : Bool := (s.gateShow p).rd (Rg.EGR_GATE_STATUS p) = s.rd (Rg.EGR_GATE_STATUS p)

/-- Changes the gate mode of a port, with its cause. -/
def State.setGateMode (s : State) (p mode cause : Nat) : State :=
  ((s.sf (Rg.EGR_GATE_STATUS p) Fl.EGR_GATE_STATUS_MODE mode).setBit (Rg.EGR_INT_STATUS p) 0).raise 0x0901 p (mode + 2 * cause)

/-! ### Gate-list faults (R212) -/

/-- Where the two copies of entry `k` of a port's list lie in memory 10; what an entry holds is kept once. -/
def gateWord (p k copy : Nat) : Nat := Mm.gate + 0x80000 * copy + 0x800 * p + 8 * k

/-- A gate-list fault of port `p`: counted, and the port enters GUARD at once (R210). -/
def State.gateFaulted (s : State) (p : Nat) : State :=
  let s1 := ((s.count (egrC p 2)).setBit (Rg.EGR_INT_STATUS p) 1).sf (Rg.EGR_GATE_STATUS p) Fl.EGR_GATE_STATUS_FAULT 1
  let s2 := s1.setEgrP p { s1.egrP p with gateFault := true }
  if s2.flag (Rg.EGR_GATE_STATUS p) Fl.EGR_GATE_STATUS_MODE then s2.setGateMode p 0 3 else s2

/-- The read of entry `k` of a port's list: an error in one copy is served from the other and mended from it; one in both is fatal. -/
def State.gateRead (p : Nat) (s0 : State) (k : Nat) : State :=
  let s := (s0.sbeIn 10 (gateWord p k 0) 8).sbeIn 10 (gateWord p k 1) 8
  match s.badIn 10 (gateWord p k 0) 8, s.badIn 10 (gateWord p k 1) 8 with
  | none, none => s
  | some x, none => (((s.dbeSeen 10 x).mendedIn 10 (gateWord p k 0) 8).raise 0x0902 p k).gateFaulted p
  | none, some y => (((s.dbeSeen 10 y).mendedIn 10 (gateWord p k 1) 8).raise 0x0902 p (k + 256)).gateFaulted p
  | some x, some y =>
    (((((s.dbeSeen 10 x).dbeSeen 10 y).sf (Rg.EGR_GATE_STATUS p) Fl.EGR_GATE_STATUS_FATAL 1).raise 0x0903 p k).gateFaulted p).gateShow p

/-- The reads of a port's list, until a fault in it is fatal. -/
def State.gateReads (s : State) (p : Nat) : State :=
  if ¬ (p < 32) ∨ (s.dbe ++ s.sbe).all (fun e => e.1 != 10) then s
  else
    (List.range (s.fd (Rg.EGR_GATE_CFG p) Fl.EGR_GATE_CFG_LEN)).foldl (fun t k =>
      if t.flag (Rg.EGR_GATE_STATUS p) Fl.EGR_GATE_STATUS_FATAL then t else t.gateRead p k) s

/-- GATE_ENTRY_CHANGE (R206): the list of port `p` moves to its next entry within the hoop in progress. -/
def State.gateChange (s0 : State) (p : Nat) : State :=
  let s := if s0.forwarding then s0.gateReads p else s0
  if ¬ s.forwarding ∨ p ≥ 32 then s
  else if ¬ s.gateShown p then s.gateShow p
  else
    match (s.segs p).find? (fun g => s.repeatB + ((g.start : Nat) : Int) > s.ltNs) with
    | none => s
    | some g =>
      let at_ := s.repeatB + ((g.start : Nat) : Int)
      if at_ < s.nextB then (s.advanceTo at_).gateShow p else s

def execGateEntryChange (p : Fin 52) (s : State) : Host.Outcome State Fault Refusal := .next (s.gateChange p.val)

/-! ## Gate modes (R210) -/

def State.aware (s : State) (p : Nat) : Bool := s.flag (Rg.EGR_GATE_STATUS p) Fl.EGR_GATE_STATUS_MODE

/-- GATE_TEST_WRITE (R210): a write of EGR_GATE_CTRL. -/
def State.gateTest (s : State) (p v : Nat) : State :=
  if p ≥ 32 then s.ignored (Rg.EGR_GATE_CTRL p).addr v
  else
    let s1 := s.wr (Rg.EGR_GATE_CTRL p) (v % 2)
    if bitOf v 0 then (s1.setEgrP p { s1.egrP p with testReq := true }).noteAsk Ask.gate p
    else s1.sf (Rg.EGR_GATE_STATUS p) Fl.EGR_GATE_STATUS_TEST_ACTIVE 0

def execGateTestWrite (lapse : Nat) (p : Fin 52) (value : Word) (s : State) : Host.Outcome State Fault Refusal :=
  .next ((s.advance lapse).fw (·.gateTest p.val value.toNat))

def State.synced (s : State) : Bool := s.fd Rg.TIME_STATUS Fl.TIME_STATUS_TRUST = 1

/-- The repeat-boundary part of R210 on a port. -/
def State.gateRepeat (s : State) (p : Nat) : State :=
  let held := s.askedLate Ask.gate p
  let req := (s.egrP p).testReq && !held
  let s1 :=
    if req ∧ s.aware p then s.setGateMode p 0 2
    else if ¬ s.aware p ∧ ¬ req ∧ s.synced ∧ s.clk.repSynced ∧ ¬ s.flag (Rg.EGR_GATE_CTRL p) Fl.EGR_GATE_CTRL_TEST
        ∧ ¬ (s.egrP p).gateFault ∧ ¬ s.flag (Rg.EGR_GATE_STATUS p) Fl.EGR_GATE_STATUS_FATAL then s.setGateMode p 1 4
    else s
  let s2 := if s1.flag (Rg.EGR_GATE_CTRL p) Fl.EGR_GATE_CTRL_TEST ∧ ¬ held then
    s1.sf (Rg.EGR_GATE_STATUS p) Fl.EGR_GATE_STATUS_TEST_ACTIVE 1 else s1
  ((s2.setEgrP p { s2.egrP p with testReq := (s.egrP p).testReq && held, gateFault := false }).sf (Rg.EGR_GATE_STATUS p) Fl.EGR_GATE_STATUS_FAULT 0).gateShow p

/-- One boundary on the gates of a port: GUARD when trust has just left SYNCED, and the repeat's part. -/
def State.gateBoundary (left rep : Bool) (s0 : State) (p : Nat) : State :=
  let s := s0.gateReads p
  let s1 := if left ∧ s.aware p then s.setGateMode p 0 1 else s
  if rep then s1.gateRepeat p else s1

/-- The first boundary of forwarding of a start: EGR_GATE_MODE for each port in use. -/
def State.gateStart (s : State) (p : Nat) : State :=
  if (if p < 24 then s.ethOn p else s.t1sOn p) then (s.setGateMode p 0 0).gateShow p else s.gateShow p

/-! ## Launch times (R213) -/

/-- The signed difference a − b of two 48-bit times. -/
def diff48 (a b : Nat) : Int := signed 48 (unsigned 48 (((a : Nat) : Int) - ((b : Nat) : Int)))

/-- Whether the frame's launch time has been reached, or none is held. -/
def State.launched (s : State) (f : Frame) : Bool := !f.launchV || f.lateDone || diff48 s.lt48 f.launch ≥ 0

/-- Whether a frame is late at a test on port `p`. -/
def State.late (s : State) (p : Nat) (f : Frame) : Bool :=
  f.launchV && !f.lateDone && (diff48 s.lt48 f.launch > ((s.fd (Rg.EGR_LAUNCH p) Fl.EGR_LAUNCH_LATE_MAX : Nat) : Int) || diff48 f.launch f.enq > 1073741824)

/-- Counts and reports a late frame. -/
def State.lateSeen (s : State) (p : Nat) (f : Frame) : State :=
  let pol := s.fd (Rg.EGR_LAUNCH p) Fl.EGR_LAUNCH_POLICY
  let by_ := Nat.min (diff48 s.lt48 f.launch).toNat 0xFFFFFFFF
  ((s.count (egrC p 0)).setBit (Rg.EGR_INT_STATUS p) 2).raiseFirst 0x0904 p p (f.cls + 8 * pol + by_ * 2 ^ 32)

/-! ## The scheduler (R201, R202) -/

/-- The head frame of queue (p, c). -/
def State.headOf (s : State) (p c : Nat) : Option Frame := s.outQ.find? (fun f => f.egress = p && f.cls = c)

/-- Takes a copy out of its queue. -/
def State.takeOut (s : State) (f : Frame) : State := { s with outQ := s.outQ.erase f }

/-- Replaces a queued copy in its place. -/
def State.replaceQ (s : State) (f g : Frame) : State := { s with outQ := s.outQ.replace f g }

/-- The length the gate test takes for a copy: its length as sent, or MAX_FRAME when cut-through. -/
def State.gateLen (s : State) (p : Nat) (f : Frame) : Nat := if f.ct then s.maxFrame p else s.sentLen p f

/-- Whether a frame of `n` bytes that starts at LT `t` completes by `close` (R208). -/
def fits (rate n : Nat) (t close : Int) : Bool := (close - t) * ((rate : Nat) : Int) ≥ (((n + 8) * 8 * 1000000000 * 65536 : Nat) : Int)

/-- The gate test of the mode of a port (R207 to R209) for a start now. -/
def State.gateOk (s : State) (p : Nat) (f : Frame) : Bool :=
  match s.closeTime p f.cls s.lt with
  | none => true
  | some e => e > s.lt && fits (s.portRate p) (if s.aware p then s.gateLen p f else s.maxFrame p) s.lt e

/-- Whether a head frame could never pass its test (R211). -/
def State.gateNever (s : State) (p : Nat) (f : Frame) : Bool :=
  let w := s.rd (Rg.EGR_GATE_WMAX p f.cls)
  let ns (n : Nat) : Nat := (n + 8) * 8 * 1000000000
  p < 32 && w != 0xFFFFFFFF && !(s.segs p).isEmpty
    && (if s.aware p then decide (ns (s.gateLen p f) > w * s.portRate p) else decide (w * s.portRate p ≤ ns (s.maxFrame p)))

/-- Drops or releases what the late test and R211 rule on at the head of queue (p, c). -/
def State.purge (s : State) (p c : Nat) : Nat → State
  | 0 => s
  | n + 1 =>
    match s.headOf p c with
    | none => s
    | some f =>
      if s.late p f then
        let s1 := s.lateSeen p f
        if s.fd (Rg.EGR_LAUNCH p) Fl.EGR_LAUNCH_POLICY = 0 then State.purge ((s1.takeOut f).brgDrop f 9) p c n
        else State.purge (s1.replaceQ f { f with lateDone := true }) p c n
      else if s.gateNever p f then
        State.purge ((((s.takeOut f).count (egrC p 1)).raiseFirst 0x0905 p p (c + s.sentLen p f % 16384 * 2 ^ 16)).brgDrop f 9) p c n
      else s

/-- Whether queue (p, c) is eligible (R201). -/
def State.eligible (s : State) (p c : Nat) : Bool :=
  match s.headOf p c with
  | none => false
  | some f => s.launched f && !s.paused p c && s.shOk p c && s.shOk p 8 && (p ≥ 32 || s.gateOk p f)

def State.quantum (s : State) (p c : Nat) : Nat := s.fd (Rg.EGR_QUANTUM p c) Fl.EGR_QUANTUM_QUANTUM
def State.dwrrBurst (s : State) (p c : Nat) : Nat := s.fd (Rg.EGR_DWRR_BURST p c) Fl.EGR_DWRR_BURST_BURST
def State.deficit (s : State) (p c : Nat) : Nat := s.fd (Rg.EGR_DEFICIT p c) Fl.EGR_DEFICIT_DEFICIT
def State.setDeficit (s : State) (p c v : Nat) : State := s.wr (Rg.EGR_DEFICIT p c) v

/-- The class of the next visit: the next member below the class visited last, cyclically. -/
def nextVisit (mem : List Nat) (last : Nat) : Option Nat := ((List.range 8).map (fun i => (last + 7 - i) % 8)).find? (fun c => mem.contains c)

/-- The DWRR round (R202): the class that sends, and the credits after the visits it took. -/
def State.dwrr (s : State) (p : Nat) (mem ok : List Nat) (len : Nat → Nat) : Nat → Option Nat × State
  | 0 => (none, s)
  | n + 1 =>
    let e := s.egrP p
    match e.visit with
    | none =>
      match nextVisit mem e.lastVisit with
      | none => (none, s)
      | some c =>
        let d := s.deficit p c + s.quantum p c
        if ok.contains c then State.dwrr ((s.setDeficit p c d).setEgrP p { e with visit := some c }) p mem ok len n
        else State.dwrr ((s.setDeficit p c (Nat.min d (s.dwrrBurst p c))).setEgrP p { e with lastVisit := c }) p mem ok len n
    | some c =>
      if ok.contains c ∧ len c ≤ s.deficit p c then (some c, s.setDeficit p c (s.deficit p c - len c))
      else
        let s1 := if ok.contains c then s else s.setDeficit p c (Nat.min (s.deficit p c) (s.dwrrBurst p c))
        State.dwrr (s1.setEgrP p { e with visit := none, lastVisit := c }) p mem ok len n

/-- Visits enough for a quantum of 1 and the longest frame. -/
def dwrrFuel : Nat := 262144

/-- The class the scheduler serves (R202), and the state after its credits. -/
def State.choose (s : State) (p : Nat) : Option Nat × State :=
  let ok := (List.range 8).filter (s.eligible p)
  let strict := Nat.min (s.fd (Rg.EGR_SCHED p) Fl.EGR_SCHED_STRICT) 4
  let mem := (List.range (8 - strict)).filter (fun c => s.quantum p c > 0)
  let len (c : Nat) : Nat := match s.headOf p c with
    | some f => s.sentLen p f
    | none => 0
  match (ok.filter (fun c => c ≥ 8 - strict)).max? with
  | some c => (some c, s)
  | none =>
    if ok.any (fun c => mem.contains c) then s.dwrr p mem ok len dwrrFuel
    else ((ok.filter (fun c => c < 8 - strict)).max?, s)

/-! ## Frames on the wire -/

/-- The statistics of a start decision (R194, R214): of one in the boundary cycle or after it, for the hoop that begins (R52). -/
def State.dequeued (s : State) (p : Nat) (f : Frame) : State :=
  let e := s.egrP p
  let so := Nat.min (s.ltNs - f.ts / 65536).toNat 0xFFFFFFFF
  let longest (l : List (Nat × Nat)) : List (Nat × Nat) := sset l f.cls 0 (Nat.max (sget l f.cls 0) so)
  let more (l : List (Nat × Nat)) : List (Nat × Nat) := sset l f.cls 0 (Nat.min (sget l f.cls 0 + 1) 0xFFFFFFFF)
  (s.setEgrP p (if s.boundDue then { e with sojNext := longest e.sojNext, deqNext := more e.deqNext }
    else { e with sojourn := longest e.sojourn, dequeued := more e.dequeued })).count (qC p f.cls 7)

/-- Whether a port cannot send: its link is down, or its T1S port is disabled (R86, R104). -/
def State.deadPort (s : State) (p : Nat) : Bool := (isEth p && !s.linkUp p) || (isT1s p && !s.t1sOn p)

/-- Padding to the 60 bytes before the FCS that the MAC sends at least (R92). -/
def padded (d : Bytes) : Bytes := d ++ zeros (60 - d.length)

/-- ETH_TX_THRESH.CURRENT of a port, 0 where it has none. -/
def State.threshold (s : State) (p : Nat) : Nat := if isEth p then s.fd (Rg.ETH_TX_THRESH p) Fl.ETH_TX_THRESH_CURRENT else 0

/-- Puts a frame on the wire of port `p`; a copy that ends stomped has STOMP set in its descriptor (R177). Copies reach an output buffer whole here, so what R99 asks of a start holds; CURRENT is
remembered for R100. -/
def State.onWire (s : State) (p : Nat) (f out : Frame) (b : Bytes) (slen : Nat) (stomp dead : Bool) : State :=
  { s with sending := s.sending ++ [⟨p, { f with stomp := f.stomp || stomp }, out, b, slen, stomp, dead, s.raw, s.threshold p⟩] }

/-- The start of a copy taken from its queue, on a port that can send: rewrite, hop count, stomp-propagate, one-step time,
MACsec, padding and the length rule; `false` where the copy was dropped. Where `lost` is given, that many bytes at the end of the copy, or its
FCS alone, cannot be read, and it ends stomped before them. -/
def State.launchOn (s : State) (p : Nat) (f : Frame) (lost : Option Nat) : Bool × State :=
  let r := s.rewriteCopy p (hopDown p f)
  match r.1 with
  | none => (false, s.rewriteDrop p f)
  | some g =>
    if p ≥ 48 then (true, r.2.onWire p f g (g.data.take (g.data.length - lost.getD 0)) g.L (f.stomp || lost.isSome) false)
    else
      let h := r.2.oneStep p (r.2.stompFlag p g)
      let m := r.2.msecProtect p h.data
      let put (d : Bytes) (bad : Bool) : Bool × State :=
        let b := padded (d.take (d.length - lost.getD 0))
        let mx := m.2.maxFrame p
        if b.length + 4 > mx ∧ ¬ f.ct then
          (false, if isT1s p then m.2.count (t1sC p 14) else if m.2.msecOn p then m.2.count (ethC p 46) else m.2.incr (Rg.ETH_TX_TOO_LONG p))
        else
          let cut := b.length + 4 > mx
          let s1 := if f.ct then m.2.count (gndC 7) else m.2
          let s2 := if f.tsCap then s1.tsCapture p f.tag else s1
          (true, s2.onWire p f g (if cut then b.take (mx - 4) else b) (Nat.min (b.length + 4) (if f.ct then mx else b.length + 4))
            (f.stomp || bad || cut || lost.isSome) false)
      match m.1 with
      | .drop => (false, m.2)
      | .ok d => put d false
      | .fault d => if f.ct then put d true else (false, m.2)

/-- The start of a copy whose cells are read (R190, R193): a double-bit error in the head cell of a store-and-forward copy drops it; one in
a later cell, or in any cell of a cut-through copy, ends it stomped at that cell. -/
def State.launchFrame (s : State) (p : Nat) (f : Frame) : Bool × State :=
  match s.badCell f with
  | none => (s.cellsSbe f).launchOn p f none
  | some (k, c, a) =>
    if k = 0 ∧ ¬ f.ct then (false, s.eccDrop f)
    else ((s.count (gndC 4)).bufEcc a c false true).launchOn p f (some (f.data.length - (128 * k - 32)))

/-- Takes the head of queue (p, c) and starts it, or discards it where the port cannot send; `false` where it was dropped. -/
def State.startClass (s : State) (p c : Nat) : Bool × State :=
  match s.headOf p c with
  | none => (false, s)
  | some f =>
    let s1 := (s.takeOut f).dequeued p f
    if s1.deadPort p then
      let s2 := if isEth p then s1.incr (Rg.ETH_TX_LINK_DROP p) else (s1.count (t1sC p 15)).brgDrop f 9
      (true, s2.onWire p f f f.data (s2.sentLen p f) false true)
    else s1.launchFrame p f

/-- Decides and starts until a frame is on the wire or no queue is eligible. -/
def State.transmit (s : State) (p : Nat) : Nat → State
  | 0 => s
  | n + 1 =>
    let s1 := (List.range 8).foldl (fun t c => t.purge p c (t.outQ.length + t.outQ.length)) s
    match s1.choose p with
    | (none, s2) => s2
    | (some c, s2) =>
      let r := s2.startClass p c
      if r.1 then r.2 else State.transmit r.2 p n

def State.busy (s : State) (p : Nat) : Bool := s.sending.any (fun x => x.port = p)

/-- Whether the block moves frames to its ports: forwarding, or a flush that is draining (R332). -/
def State.egressOn (s : State) : Bool := s.forwarding || s.pwr.phase = .flush

/-- The frame that waits to be sent again on T1S port `p` goes out anew (R125). DESIGN CHOICE (log 135): its capture record, if it has one,
is that of its first attempt, and the further attempts make none. -/
def State.resend (s : State) (p : Nat) : Option State :=
  (s.t1sP p).retry.map (fun x =>
    let s1 := s.setT1sP p { s.t1sP p with retry := none }
    { s1 with sending := s1.sending ++ [{ x with started := s1.raw }] })

/-- Whether a further frame of the transmit opportunity of T1S port `p` may start now: MAX_BC leaves one, and BURST_TIMER bit times have not
passed since the frame before ended, 12 bytes before `idleAt` (R123). -/
def State.bursts (s : State) (p : Nat) : Bool :=
  (s.t1sP p).burst > 0
    && s.raw + s.wireTime p 12 ≤ (s.egrP p).idleAt + 100 * s.fd (Rg.T1S_PLCA p) Fl.T1S_PLCA_BURST_TIMER

/-- Whether the transmitter of port `p` may choose a frame outside a transmit opportunity. A T1S port in PLCA sends only the further frames
of an opportunity. -/
def State.mayChoose (s : State) (p : Nat) : Bool :=
  s.egressOn && !s.busy p && !isCan p && p != 49 && (!(isT1s p && s.t1sOn p) || s.t1sFallen p || s.bursts p)

/-- Frames that may leave during a flush: those of the pre-reset emit templates, the couching bridge and the management cores
already queued; the scheduler runs as before. -/
def State.transmitStart (s : State) (p : Nat) : State :=
  if ¬ s.mayChoose p then s
  else
    let s1 := ((s.advanceRaw (s.egrP p).idleAt).gateReads p).shape p
    match if isT1s p then s1.resend p else none with
    | some t => t
    | none =>
      let s2 := s1.transmit p (s1.outQ.length + 1)
      if isT1s p ∧ s2.busy p then s2.setT1sP p { s2.t1sP p with burst := (s2.t1sP p).burst - 1 } else s2

/-- FRAME_TRANSMIT_START (R201). -/
def execFrameTransmitStart (lapse : Nat) (p : Fin 52) (s : State) : Host.Outcome State Fault Refusal :=
  .next ((s.advance lapse).transmitStart p.val)

/-- LAUNCH_TIME_REACHED (R213): LT reaches the launch time of the head frame of queue (p, c). -/
def State.launchReached (s : State) (p c : Nat) : State :=
  match s.headOf p c with
  | none => s
  | some f =>
    if s.launched f ∨ diff48 f.launch s.lt48 > 1073741824 then s else s.advanceTo (s.ltNs + diff48 f.launch s.lt48)

def execLaunchTimeReached (p : Fin 52) (c : Fin 8) (s : State) : Host.Outcome State Fault Refusal := .next (s.launchReached p.val c.val)

/-! ## The end of a frame (R96, R204) -/

/-- Counts a frame ended on the wire of an Ethernet port, of `n` bytes. -/
def State.txCount (s : State) (p : Nat) (d : Bytes) (n : Nat) (stomp : Bool) : State :=
  let s1 := (((s.count (ethC p 19) n).count (ethC p 20)).count (ethC p (21 + addrKind d))).count (ethC p (24 + lengthBin n))
  let s2 := if be d 12 2 = 0x8808 then (if be d 14 2 = 0x0001 then s1.count (ethC p 31) else if be d 14 2 = 0x0101 then s1.count (ethC p 32) else s1) else s1
  if stomp then s2.count (ethC p 33) else s2

/-- A frame that re-enters the parser on its second pass (R19). -/
def secondPass (f : Frame) : Frame :=
  { data := f.data, isCan := f.isCan, src := f.src, bank := f.bank, pass := true, cls := f.cls, ts := f.ts, sof := f.sof,
    tsHoop := f.tsHoop, tsTrust := f.tsTrust, filter := f.filter, tsCap := f.tsCap, tag := f.tag }

/-- What becomes of a frame that has ended on port `p`. An internal port takes no frame that ended stomped. -/
def State.delivered (s : State) (x : Sending) : State :=
  let p := x.port
  if isEth p then
    let s1 := if x.copy.eye = 7 then { s with pwr := { s.pwr with eyeReplied := true } } else s
    { s1.txCount p x.bytes x.slen x.stomp with sent := s.sent ++ [⟨p, x.bytes, x.stomp, fcsOf x.bytes x.stomp⟩] }
  else if isT1s p then { (s.count (t1sC p 6) x.slen).count (t1sC p 7) with sent := s.sent ++ [⟨p, x.bytes, x.stomp, fcsOf x.bytes x.stomp⟩] }
  else if x.stomp then s
  else if p = 48 then { s with spQ := s.spQ ++ [x.out] }
  else if p = 50 then { s with brgQ := s.brgQ ++ [x.out] }
  else { s with rxQ := s.rxQ ++ [secondPass x.out] }

/-- A T1S frame that met a collision waits to be sent again, as it was (R125). -/
def State.retryT1s (s : State) (x : Sending) : State := s.setT1sP x.port { s.t1sP x.port with retry := some { x with dead := false } }

/-- Ends the frame on the wire of port `p`: shapers are debited, and its cells return to the pool. -/
def State.endFrame (s : State) (x : Sending) : State :=
  let p := x.port
  let s1 : State := { s with sending := s.sending.erase x }
  let s2 := (s1.shape p).setEgrP p { (s1.shape p).egrP p with idleAt := s1.raw + s1.wireTime p 12 }
  if x.dead ∧ isT1s p ∧ s2.t1sOn p then s2.retryT1s x
  else
    let s3 := [x.copy.cls, 8].foldl (State.debit x.slen p) s2
    if x.dead then s3
    else if isT1s p then (s3.setT1sP p { s3.t1sP p with attempts := 0 }).delivered x
    else s3.delivered x

/-- FRAME_TRANSMIT_END (R204): the frame on the wire of port `p` ends, no sooner than its length takes. -/
def State.transmitEnd (s : State) (p : Nat) : State :=
  match s.sending.find? (fun x => x.port = p) with
  | none => s
  | some x => (s.advanceRaw (x.started + s.wireTime p (x.slen + 8))).endFrame x

def execFrameTransmitEnd (lapse : Nat) (p : Fin 52) (s : State) : Host.Outcome State Fault Refusal :=
  .next ((s.advance lapse).transmitEnd p.val)

/-- Bytes of a frame that have gone out on the wire of port `p`. -/
def State.gone (s : State) (p : Nat) (x : Sending) : Nat := (s.raw - x.started) * s.portRate p / 8000000000 - 8

/-- TX_UNDERRUN (R100): the transmitter runs dry in a cut-through frame that did not start whole, once the bytes in hand at its start have
gone: it ends there with a stomped FCS, and CURRENT rises by 64 up to the smallest multiple of 64 at or above MAX_FRAME. -/
def State.underrun (s0 : State) (p : Nat) : State :=
  match s0.sending.find? (fun x => x.port = p && x.copy.ct && !x.dead && x.thresh < x.slen && s0.gone p x < x.slen) with
  | none => s0
  | some x =>
    let s := s0.advanceRaw (x.started + s0.wireTime p (x.thresh + 8))
    let b := (x.bytes ++ fcsOf x.bytes x.stomp).take (Nat.max x.thresh (s.gone p x))
    let s1 := ({ s with sending := s.sending.map (fun y => if y = x then { x with bytes := b, slen := b.length + 4, stomp := true } else y) } : State)
    let s2 := (s1.endFrame { x with bytes := b, slen := b.length + 4, stomp := true }).count (ethC p 34)
    let r := Rg.ETH_TX_THRESH p
    let cur := s2.fd r Fl.ETH_TX_THRESH_CURRENT
    let top := cdiv (s2.maxFrame p) 64 * 64
    let new := if cur ≥ top then cur else Nat.min top (cur + 64)
    ((s2.sf r Fl.ETH_TX_THRESH_CURRENT new).setBit (Rg.ETH_INT_STATUS p) 3).raiseFirst 0x0403 p p new

def execTxUnderrun (lapse : Nat) (p : Fin 24) (s : State) : Host.Outcome State Fault Refusal :=
  .next ((s.advance lapse).underrun p.val)

/-! ## T1S transmit opportunities (R123, R127) -/

/-- Whether the gate test alone holds back a head frame of T1S port `p`. -/
def State.gateHeld (s : State) (p : Nat) : Bool :=
  (List.range 8).any (fun c => match s.headOf p c with
    | none => false
    | some f => s.launched f && s.shOk p c && s.shOk p 8 && !s.gateOk p f)

/-- A frame goes out in the opportunity of T1S port `p`, and MAX_BC further ones may follow (R123). -/
def State.furtherFrames (s : State) (p : Nat) : State :=
  s.setT1sP p { s.t1sP p with burst := s.fd (Rg.T1S_PLCA p) Fl.T1S_PLCA_MAX_BC }

/-- T1S_TX_OPPORTUNITY (R123, R127): the port's transmit opportunity opens. A frame that met a collision is sent again (R125), else the
scheduler's frame, if its gate test passes; further frames may follow it. A port whose frames only the gates hold yields, and sends none in
this opportunity. A follower's opportunity follows a BEACON. -/
def State.opportunity (s0 : State) (p : Nat) : State :=
  if ¬ s0.egressOn ∨ ¬ s0.t1sOn p ∨ s0.t1sFallen p ∨ s0.busy p then s0
  else
    let s := s0.setT1sP p { s0.t1sP p with beaconAt := s0.raw, burst := 0 }
    let s1 := (s.gateReads p).shape p
    match (s1.t1sP p).retry with
    | some x => if s1.gateOk p x.copy then ((s1.resend p).getD s1).furtherFrames p else s1.count (t1sC p 13)
    | none =>
      let s2 := s1.transmit p (s1.outQ.length + 1)
      if s2.busy p then s2.furtherFrames p else if s2.gateHeld p then s2.count (t1sC p 13) else s2

def execT1sTxOpportunity (lapse : Nat) (n : Fin 8) (s : State) : Host.Outcome State Fault Refusal :=
  .next ((s.advance lapse).opportunity (24 + n.val))

/-! ## Queue samples (R214, R215) -/

/-- The four words of the sample of queue `q` = 8p + c at the end of hoop `ix`. -/
def State.sampleOf (s : State) (ix q : Nat) : List Nat :=
  [ix, q + s.depth (q / 8) (q % 8) * 2 ^ 9, sget (s.egrP (q / 8)).sojourn (q % 8) 0, sget (s.egrP (q / 8)).dequeued (q % 8) 0]

/-- The sample records of a boundary, in queue order, of the hoop `ix` that ended. -/
def State.samples (s : State) (ix : Nat) : List Bytes :=
  (List.range 52).flatMap (fun p => if p = 49 then [] else (List.range 8).filterMap (fun c =>
    if s.flag (Rg.EGR_QCTRL p c) Fl.EGR_QCTRL_SAMPLE_EN then some ((s.sampleOf ix (8 * p + c)).flatMap (leBytes 4)) else none))

/-- Writes one sample record to the ring, or counts it lost. -/
def State.sampleWrite (s : State) (r : Bytes) : State :=
  let n := 2 ^ s.fd Rg.EGR_SAMPLE_SIZE Fl.EGR_SAMPLE_SIZE_LOG2
  let w := s.rd Rg.EGR_SAMPLE_WR % n
  if (w + 1) % n = s.rd Rg.EGR_SAMPLE_RD % n then
    let m := s.mark (0x0906 * 65536)
    let s1 := m.2.incr Rg.EGR_SAMPLE_LOST
    if m.1 = 1 then s1.raise 0x0906 noPort 1 else s1
  else
    let a := s.rd Rg.EGR_SAMPLE_BASE + 16 * w
    (if s.inMgmt a 16 then s.setMem a r else s).wr Rg.EGR_SAMPLE_WR ((w + 1) % n)

/-- Writes the latched sample records within HOOP_BUDGET[4], at 2 cycles each. -/
def State.sampleRun (s : State) : Nat → State
  | 0 => s
  | n + 1 =>
    match s.smp with
    | [] => s
    | r :: t => if s.mayWork 4 2 then State.sampleRun (({ (s.spend 4 2) with smp := t } : State).sampleWrite r) n else s.carry 4

/-- The samplers of port `p` begin the hoop's count, with the starts decided since the boundary fell due. -/
def State.sampleStart (s : State) (p : Nat) : State :=
  let e := s.egrP p
  s.setEgrP p { e with sojourn := e.sojNext, dequeued := e.deqNext, sojNext := [], deqNext := [] }

/-- The boundary's part of the queue samplers: the values are latched, and the samplers start again. -/
def State.sampleBoundary (s : State) (ix : Nat) : State :=
  let s1 : State := { s with smp := s.smp ++ s.samples ix }
  (List.range 52).foldl State.sampleStart s1

end Sys2Proof.Machine
end

