-- ==== Sys2Proof/Machine/CanTx.lean ====
section
/-! DEFINITION. Sending on CAN ports 32 to 47 (R114 to R120): datapath and management transmit buffers, arbitration, errors. -/

namespace Sys2Proof.Machine

/-! ## What the controller sends (R114, R119) -/

/-- The smallest length an FD message can have that holds `n` bytes, up to 64. -/
def fdLen (n : Nat) : Nat :=
  if n ≤ 8 then n else if n ≤ 12 then 12 else if n ≤ 16 then 16 else if n ≤ 20 then 20 else if n ≤ 24 then 24
  else if n ≤ 32 then 32 else if n ≤ 48 then 48 else 64

/-- Whether a CAN header is malformed (R114). -/
def canMalformed (d : Bytes) : Bool :=
  let b0 := byteAt d 0
  let fmt := b0 / 64
  let n := be d 12 2
  let dlc := byteAt d 1 % 16
  fmt = 3 || bitOf b0 0 || byteAt d 1 ≥ 16 || be d 2 4 ≥ 2 ^ 29 || byteAt d 15 != 0 || n > 2048 || d.length != 16 + n
    || (fmt = 0 && !bitOf b0 4 && n ≤ 8 && !(dlc = n || (dlc ≥ 9 && n = 8)))
    || (fmt = 0 && bitOf b0 4 && n != 0) || (fmt = 2 && dlc != 0)

/-- The counter under which a header that is not malformed cannot be sent (R119), or none. -/
def State.canRoute (s : State) (p : Nat) (d : Bytes) : Option Nat :=
  let b0 := byteAt d 0
  let fmt := b0 / 64
  let n := be d 12 2
  if fmt = 1 ∧ ¬ s.fmtOn p .fd ∨ fmt = 2 ∧ ¬ s.fmtOn p .xl then some 18
  else if fmt = 2 ∧ bitOf b0 5 then some 18
  else if fmt ≠ 0 ∧ bitOf b0 4 ∧ n = 0 then some 18
  else if fmt = 0 ∧ n > 8 then some 17
  else if fmt = 1 ∧ n > 64 then some 17
  else if fmt = 2 ∧ n = 0 then some 17
  else none

/-- The counter of a message that cannot be sent, or none. -/
def State.canRefusal (s : State) (p : Nat) (d : Bytes) : Option Nat := if canMalformed d then some 16 else s.canRoute p d

/-- The message as sent: FD padding, and the DLC of its length (R119); RRS is dominant (R105). -/
def State.canAsSent (s : State) (p : Nat) (d : Bytes) : Bytes :=
  let b0 := byteAt d 0
  let fmt := b0 / 64
  let n := be d 12 2
  if fmt = 1 then
    let m := fdLen n
    let e := patch (d ++ List.replicate (m - n) (BitVec.ofNat 8 (s.fd (Rg.CAN_CFG p) Fl.CAN_CFG_FD_PAD))) 0 (beBytes 1 (b0 / 32 * 32 + b0 % 16))
    patch (patch e 1 (beBytes 1 (dlcOf n))) 12 (beBytes 2 m)
  else if fmt = 0 then patch d 0 (beBytes 1 (b0 / 16 * 16 + b0 % 4))
  else patch d 0 (beBytes 1 (b0 / 32 * 32 + b0 % 16))

/-- The arbitration field of a message as a number: bit by bit as transmitted, the first bit the highest (R115). -/
def arbKey (d : Bytes) : Nat :=
  let b0 := byteAt d 0
  let rtr := if b0 / 64 = 0 then b2n (bitOf b0 4) else 0
  let id := be d 2 4
  if bitOf b0 5 then (id / 2 ^ 18 % 2 ^ 11) * 2 ^ 21 + 2 ^ 20 + 2 ^ 19 + id % 2 ^ 18 * 2 + rtr else id % 2 ^ 11 * 2 ^ 21 + rtr * 2 ^ 20

/-! ## Loading (R114, R116) -/

/-- The checks of a head frame as it leaves its queue for buffer `c`: it is loaded, or dropped and counted. -/
def State.canLoad (s : State) (p c : Nat) (f : Frame) : State :=
  if s.canMode p ≠ 1 then (s.count (canC p 15)).brgDrop f 9
  else if s.busOff p then (s.count (canC p 14)).brgDrop f 7
  else if f.cells.any s.cellBad then s.eccDrop f
  else
    let r := (s.cellsSbe f).rewriteCopy p (hopDown p f)
    match r.1 with
    | none => s.rewriteDrop p f
    | some g =>
      match r.2.canRefusal p g.data with
      | some k => (r.2.count (canC p k)).brgDrop f 8
      | none => r.2.setCanP p { r.2.canP p with txb := sset (r.2.canP p).txb c ⟨{ data := [] }, false, false⟩ ⟨{ g with data := r.2.canAsSent p g.data }, false, false⟩ }

/-- CAN_TXBUF_LOAD (R114, R213): the head frame of class `c` leaves its queue when buffer `c` is empty and its queue shaper
holds tokens; the late test is made at this move. -/
def State.txbufLoad (s : State) (p c : Nat) : State :=
  let s1 := s.shape p
  if ¬ s1.egressOn ∨ (s1.canP p).txb.any (fun b => b.1 = c) ∨ ¬ s1.shOk p c then s1
  else
    match s1.headOf p c with
    | none => s1
    | some f =>
      let s2 := s1.takeOut f
      if s1.late p f then
        let s3 := s2.lateSeen p f
        if s3.fd (Rg.EGR_LAUNCH p) Fl.EGR_LAUNCH_POLICY = 0 then s3.brgDrop f 9
        else
          let g := { f with lateDone := true }
          (s3.dequeued p g).canLoad p c g
      else (s2.dequeued p f).canLoad p c f

def execCanTxbufLoad (lapse : Nat) (n : Fin 16) (c : Fin 8) (s : State) : Host.Outcome State Fault Refusal :=
  .next ((s.advance lapse).txbufLoad (32 + n.val) c.val)

/-- CAN_MTX_LOAD (R116): CAN_MTX_CMD with OP 1. -/
def State.mtxLoad (s : State) (p b : Nat) : State :=
  let st := s.mtxState p b
  if st = 1 ∨ st = 2 then s.ignored (Rg.CAN_MTX_CMD p).addr (b + 16)
  else if s.canMode p ≠ 1 then s.setMtx p b 6
  else
    let img := s.rdBytes (Rg.CAN_MTX_STAGE p) 20
    let d := img.take (16 + be img 12 2)
    match s.canRefusal p d with
    | some k => (s.count (canC p k)).setMtx p b 6
    | none => (s.setCanP p { s.canP p with mtx := sset (s.canP p).mtx b [] (s.canAsSent p d) }).setMtx p b 1

def execCanMtxLoad (lapse : Nat) (n buf : Fin 16) (s : State) : Host.Outcome State Fault Refusal :=
  .next ((s.advance lapse).fw (·.mtxLoad (32 + n.val) buf.val))

/-- Buffer `b` of controller `p` in the records of the cycle. -/
def mtxKey (p b : Nat) : Fin 16 × Fin 16 := (Fin.ofNat 16 (p - 32), Fin.ofNat 16 b)

/-- Whether buffer `b` holds a message that was PENDING and was cancelled in this cycle. -/
def State.cancelledNow (s : State) (p b : Nat) : Bool := s.mtxState p b = 4 && s.cyc.cancels.contains (mtxKey p b)

/-- CAN_MTX_CANCEL (R117): CAN_MTX_CMD with OP 2. A PENDING message is CANCELLED at once; it is counted, and MTX_DONE is set, with the end
of the cycle, unless the controller commits to it in the same cycle. -/
def State.mtxCancel (s : State) (p b : Nat) : State :=
  match s.mtxState p b with
  | 1 => { s.wr (Rg.CAN_MTX_STATUS p b) 4 with cyc := { s.cyc with cancels := mtxKey p b :: s.cyc.cancels.erase (mtxKey p b) } }
  | 2 => s.sf (Rg.CAN_MTX_STATUS p b) Fl.CAN_MTX_STATUS_CANCEL_HELD 1
  | _ => s

def execCanMtxCancel (lapse : Nat) (n buf : Fin 16) (s : State) : Host.Outcome State Fault Refusal :=
  .next ((s.advance lapse).fw (·.mtxCancel (32 + n.val) buf.val))

/-! ## Transmission (R115, R117, R118) -/

/-- The loaded messages on offer, in the order that decides ties: datapath buffers from class 7 down, then management buffers
from 0 up, those cancelled in this very cycle among them; each with its arbitration field. -/
def State.onOffer (s : State) (p : Nat) : List (Nat × Nat) :=
  let c := s.canP p
  ((List.range 8).reverse.filterMap (fun k => match c.txb.find? (fun b => b.1 = k) with
    | some b => if s.launched b.2.copy then some (k, arbKey b.2.copy.data) else none
    | none => none))
  ++ ((List.range 16).filterMap (fun b => if s.mtxState p b = 1 ∨ s.cancelledNow p b then some (8 + b, arbKey (sget c.mtx b [])) else none))

/-- The buffer offered first: the lowest arbitration field, the first of those alike. -/
def firstOffer (l : List (Nat × Nat)) : Option Nat :=
  (l.foldl (fun (a : Option (Nat × Nat)) x => match a with
    | none => some x
    | some y => if x.2 < y.2 then some x else some y) none).map (·.1)

/-- Nanoseconds from the sample point of a nominal bit to its end, rounded up (R106): NTSEG2 quanta. -/
def State.afterSample (s : State) (p : Nat) : Nat :=
  let b := s.rd (Rg.CAN_NBT p)
  let t2 := fieldOf b Fl.CAN_NBT_NTSEG2
  cdiv (25 * fieldOf b Fl.CAN_NBT_NBRP * (if t2 = 0 then 128 else t2)) 2

/-- The capture record of the message in buffer `k` at the start of its SOF, which follows the sample point that the commit falls on by the
rest of a bit (R43, R117). DESIGN CHOICE (log 135): a message that is retried makes no second record. -/
def State.canStamp (s : State) (p k : Nat) : State :=
  match (s.canP p).txb.find? (fun b => b.1 = k) with
  | none => s
  | some b =>
    if ¬ b.2.copy.tsCap ∨ b.2.stamped then s
    else
      (s.setCanP p { s.canP p with txb := (s.canP p).txb.map (fun x => if x.1 = k then (k, { x.2 with stamped := true }) else x) }).tsCaptureAt p
        b.2.copy.tag (s.ltAfter (s.afterSample p))

/-- Management buffer `b` becomes ACTIVE; a cancellation written in the same cycle is held on it (R117). -/
def State.mtxCommit (s : State) (p b : Nat) : State :=
  if s.cancelledNow p b then
    ({ s.setMtx p b 2 with cyc := { s.cyc with cancels := s.cyc.cancels.erase (mtxKey p b) } } : State).sf (Rg.CAN_MTX_STATUS p b)
      Fl.CAN_MTX_STATUS_CANCEL_HELD 1
  else s.setMtx p b 2

/-- CAN_TX_COMMIT (R117): the controller commits to the SOF of the winning message; a timestamp record is made there (R43). -/
def State.canCommit (s : State) (p : Nat) : State :=
  let c := s.canP p
  if ¬ (s.pwr.phase = .run ∨ s.pwr.phase = .flush) ∨ s.canMode p ≠ 1 ∨ s.busOff p ∨ c.excState ∨ c.active.isSome then s
  else
    match firstOffer (s.onOffer p) with
    | none => s
    | some k =>
      let s1 := (s.setCanP p { c with active := some k }).canIdle p 0
      if k ≥ 8 then s1.mtxCommit p (k - 8) else s1.canStamp p k

def execCanTxCommit (lapse : Nat) (n : Fin 16) (s : State) : Host.Outcome State Fault Refusal :=
  .next ((s.advance lapse).canCommit (32 + n.val))

/-- Empties datapath buffer `k`. -/
def State.emptyTxb (s : State) (p k : Nat) : State :=
  s.setCanP p { s.canP p with txb := (s.canP p).txb.filter (fun b => b.1 ≠ k) }

/-- Whether a cancellation is held on the message in buffer `k`. -/
def State.cancelHeld (s : State) (p k : Nat) : Bool :=
  if k ≥ 8 then s.flag (Rg.CAN_MTX_STATUS p (k - 8)) Fl.CAN_MTX_STATUS_CANCEL_HELD else (s.canP p).txb.any (fun b => b.1 = k && b.2.cancel)

/-- The message in transmission stops short: it is retried, or removed where a cancellation is held. -/
def State.canStop (s : State) (p k : Nat) : State :=
  let s1 := s.setCanP p { s.canP p with active := none }
  if s.cancelHeld p k then
    if k ≥ 8 then (s1.count (canC p 11)).setMtx p (k - 8) 4 else (s1.emptyTxb p k).count (canC p 13)
  else if k ≥ 8 then s1.setMtx p (k - 8) 1 else s1

/-- CAN_ARB_LOST (R115, R117). -/
def State.arbLost (s : State) (p : Nat) : State :=
  match (s.canP p).active with
  | none => s
  | some k => (s.count (canC p 19)).canStop p k

def execCanArbLost (lapse : Nat) (n : Fin 16) (s : State) : Host.Outcome State Fault Refusal :=
  .next ((s.advance lapse).arbLost (32 + n.val))

/-- Transmitter delay compensation (R108): once an FD or XL message with its compensation on has passed its edge, TDCV shows the delay that
was measured, a free value (log 142). -/
def State.tdcShow (s : State) (p : Nat) (d : Bytes) : State :=
  let fmt := byteAt d 0 / 64
  if (fmt = 1 ∧ s.flag (Rg.CAN_TDC p) Fl.CAN_TDC_TDC_EN) ∨ (fmt = 2 ∧ s.flag (Rg.CAN_TDC p) Fl.CAN_TDC_XTDC_EN) then
    s.freeNat.2.sf (Rg.CAN_TDC p) Fl.CAN_TDC_TDCV s.freeNat.1
  else s

/-- The message in buffer `k`. -/
def State.bufData (s : State) (p k : Nat) : Bytes :=
  if k ≥ 8 then sget (s.canP p).mtx (k - 8) []
  else match (s.canP p).txb.find? (fun b => b.1 = k) with
    | some b => b.2.copy.data
    | none => []

/-- CAN_TX_COMPLETE (R117, R204): the message completes on the bus. -/
def State.canComplete (s : State) (p : Nat) : State :=
  let c := s.canP p
  match c.active with
  | none => s
  | some k =>
    let held := s.cancelHeld p k
    let d := s.bufData p k
    let s1 := (s.setCanP p { c with active := none }).tdcShow p d
    let s2 := ((s1.count (canC p 9)).count (canC p 10) (d.length - 16)).setTec p (s.tecCnt p - 1)
    let s3 := ({ s2 with sent := s2.sent ++ [⟨p, d, false, []⟩] } : State).canPassive p
    let s4 := if held then s3.count (canC p 12) else s3
    if k ≥ 8 then s4.setMtx p (k - 8) (if held then 5 else 3) else State.debit d.length p ((s4.emptyTxb p k).shape p) k

def execCanTxComplete (lapse : Nat) (n : Fin 16) (s : State) : Host.Outcome State Fault Refusal :=
  .next ((s.advance lapse).canComplete (32 + n.val))

/-- CAN_TX_WINDOW_EXPIRE (R118): the launch time of a loaded message plus LATE_MAX passes under the drop policy. -/
def State.windowExpire (s : State) (p k : Nat) : State :=
  match (s.canP p).txb.find? (fun b => b.1 = k) with
  | none => s
  | some b =>
    let f := b.2.copy
    if ¬ f.launchV ∨ f.lateDone ∨ s.fd (Rg.EGR_LAUNCH p) Fl.EGR_LAUNCH_POLICY ≠ 0 ∨ b.2.cancel then s
    else
      let due := diff48 f.launch s.lt48 + ((s.fd (Rg.EGR_LAUNCH p) Fl.EGR_LAUNCH_LATE_MAX + 1 : Nat) : Int)
      let s1 := if due ≤ 0 then s else s.advanceTo (s.ltNs + due)
      if (s1.canP p).active = some k then
        s1.setCanP p { s1.canP p with txb := (s1.canP p).txb.map (fun x => if x.1 = k then (k, { x.2 with cancel := true }) else x) }
      else ((s1.emptyTxb p k).count (canC p 13)).brgDrop f 9

def execCanTxWindowExpire (n : Fin 16) (c : Fin 8) (s : State) : Host.Outcome State Fault Refusal :=
  .next (s.windowExpire (32 + n.val) c.val)

/-! ## Errors (R120) -/

def errCode : CanErr → Nat
  | .bit => 0
  | .stuff => 1
  | .form => 2
  | .ack => 3
  | .crc => 4

/-- TEC rises by 8; above 255 the controller enters bus-off. -/
def State.tecUp (s : State) (p : Nat) : State :=
  if s.tecCnt p + 8 > 255 then s.enterBusOff p else (s.setTec p (s.tecCnt p + 8)).canPassive p

/-- The error counters after an error, by ISO 11898-1:2024. A transmitter adds 8, but not at an acknowledgement error while error-passive
without a dominant bit in its flag, nor at a stuff error of its arbitration field. A receiver adds 1, and 8 more when the first bit after
its flag is dominant; for a bit error in its own flag it adds 8 instead. Eight more dominant bits after a flag add 8 to either. -/
def State.errCounters (s : State) (p : Nat) (kind : CanErr) (place : CanErrAt) (tx dom : Bool) : State :=
  if tx then
    if (kind = .ack ∧ s.canState p = 1 ∧ ¬ dom) ∨ (kind = .stuff ∧ place = .arbitration) then s else s.tecUp p
  else
    match place with
    | .flag | .dominantRun => (s.setRec p (s.recCnt p + 8)).canPassive p
    | _ => (s.setRec p (s.recCnt p + 1 + (if dom then 8 else 0))).canPassive p

/-- CAN_ERROR (R120): the controller meets an error, sending or receiving; a message it was sending is retried. More dominant bits after a
flag are no error of their own. -/
def State.canError (s : State) (p : Nat) (kind : CanErr) (place : CanErrAt) (edge transmitting dom : Bool) : State :=
  if ¬ s.canPowered ∨ s.canMode p = 0 ∨ s.busOff p ∨ (s.canP p).excState then s
  else
    let s1 := (if place = .dominantRun then s else s.count (canC p (20 + errCode kind))).canIdle p 0
    let tx := transmitting && ((s1.canP p).active.isSome || place = .flag || place = .dominantRun)
    let s2 := match (s1.canP p).active with
      | some k => if tx then (if edge then s1.tdcShow p (s1.bufData p k) else s1).canStop p k else s1
      | none => s1
    if s2.canMode p = 1 ∧ ¬ s2.dozing then s2.errCounters p kind place tx dom else s2

def execCanError (lapse : Nat) (n : Fin 16) (e : CanFault) (transmitting dominantAfterFlag : Bool) (s : State) :
    Host.Outcome State Fault Refusal :=
  .next ((s.advance lapse).canError (32 + n.val) e.kind e.place e.edge transmitting dominantAfterFlag)

end Sys2Proof.Machine
end

