-- ==== Sys2Proof/Machine/SlowPath.lean ====
section
/-! DEFINITION. The slow path (R368 to R370), the event ring (R372, R373), and GPIO (R377). -/

namespace Sys2Proof.Machine

/-! ## Receive rings (R368) -/

/-- A time as the low 48 bits of its whole ns and its 16-bit fraction, in two little-endian words. -/
def timeWords (t : Int) : Bytes := leBytes 6 (unsigned 48 (t / 65536)) ++ leBytes 2 (unsigned 16 t)

/-- The slow-path descriptor of a frame. -/
def spDesc (f : Frame) (trunc : Bool) : Bytes :=
  leBytes 4 (f.L % 2 ^ 14 + f.src * 2 ^ 14 + f.cls * 2 ^ 20 + b2n f.pass * 2 ^ 23 + b2n trunc * 2 ^ 24 + f.reason * 2 ^ 25)
    ++ leBytes 4 ((if f.reason = 1 then f.cause else 0) + f.node * 2 ^ 4 + (if f.reason = 2 then f.filter % 32 else 0) * 2 ^ 10 + f.bank * 2 ^ 15)
    ++ leBytes 4 (f.action + b2n f.flowHit * 2 ^ 17 + b2n f.nodeValid * 2 ^ 18 + b2n f.fdbDa * 2 ^ 19 + b2n f.fdbSa * 2 ^ 20)
    ++ leBytes 4 (f.dest % 2 ^ 12 + f.kind * 2 ^ 12) ++ timeWords f.ts ++ (if f.isCan then zeros 8 else timeWords f.sof)
    ++ leBytes 4 f.tsHoop ++ zeros 28

/-- The receive ring of a copy. -/
def State.spRing (s : State) (f : Frame) : Nat := if f.reason = 2 then f.mq else bits (s.fd Rg.SYS_SP_MAP Fl.SYS_SP_MAP_RING) (2 * f.cls) 2

/-- Counts a copy that finds its ring full or not in use. -/
def State.spDrop (s : State) (r : Nat) : State :=
  let m := (s.count (spC 1)).mark (0x0102 * 65536)
  if m.1 = 1 then m.2.raise 0x0102 noPort (r + m.1 * 2 ^ 16) else m.2

/-- Writes a copy into the next slot of ring `r`. -/
def State.spSlot (s : State) (r : Nat) (f : Frame) : State :=
  let cfg := Rg.SYS_SP_RX_CFG r
  let size := 2 ^ s.fd cfg Fl.SYS_SP_RX_CFG_LOG2
  let slot := 2048 * 2 ^ s.fd cfg Fl.SYS_SP_RX_CFG_SLOT
  let w := s.rd (Rg.SYS_SP_RX_WR r) % size
  if ¬ s.flag cfg Fl.SYS_SP_RX_CFG_EN ∨ (w + 1) % size = s.rd (Rg.SYS_SP_RX_RD r) % size then s.spDrop r
  else
    let trunc := decide (64 + f.data.length > slot)
    let s1 := s.setMem (s.rd (Rg.SYS_SP_RX_BASE r) + slot * w) ((spDesc f trunc ++ f.data).take slot)
    let s2 := (s1.wr (Rg.SYS_SP_RX_WR r) ((w + 1) % size)).count (spC 0)
    if trunc then s2.count (spC 2) else s2

/-- SP_RX_WRITE (R368): the slow-path unit writes the oldest copy that has left the queues of port 48. -/
def State.spRxWrite (s : State) : State :=
  match s.spQ with
  | [] => s
  | f :: q => if s.egressOn then ({ s with spQ := q } : State).spSlot (s.spRing f) f else s

def execSpRxWrite (s : State) : Host.Outcome State Fault Refusal := .next s.spRxWrite

/-! ## The transmit ring (R369) -/

/-- A transmit descriptor. -/
structure TxDesc where
  addr   : Nat
  len    : Nat
  lookup : Bool
  tsCap  : Bool
  port   : Nat
  cls    : Nat
  launchV : Bool
  irq    : Bool
  tag    : Nat
  launch : Nat
  clean  : Bool
  deriving DecidableEq, Repr

def State.txDesc (s : State) (a : Nat) : TxDesc :=
  let w1 := s.memLe (a + 4) 4
  let w2 := s.memLe (a + 8) 4
  ⟨s.memLe a 4, w1 % 2 ^ 14, bitOf w1 14, bitOf w1 15, bits w1 16 6, bits w1 22 3, bitOf w1 25, bitOf w1 26, w2 % 2 ^ 16, s.memLe (a + 12) 6,
   decide (w1 < 2 ^ 27 ∧ w2 < 2 ^ 24 ∧ s.memLe (a + 18) 14 = 0)⟩

/-- Whether the fields of a descriptor keep to their table; the CAN header is looked at apart. -/
def State.txOk (s : State) (d : TxDesc) : Bool :=
  d.clean && (if d.lookup then d.port = 0 && 14 ≤ d.len && d.len ≤ 9212
    else d.port ≤ 47 && (if isCan d.port then 16 ≤ d.len else 14 ≤ d.len && d.len ≤ s.maxFrame d.port - 4))

/-- The frame of a descriptor. -/
def State.txFrame (s : State) (d : TxDesc) : Frame :=
  { data := s.mem d.addr d.len, isCan := !d.lookup && isCan d.port, src := 48, cls := d.cls, launchV := d.launchV, launch := d.launch,
    tsCap := d.tsCap, tag := if d.tsCap then d.tag else 0, ts := s.lt, sof := s.lt, tsHoop := s.hoopOf s.ltNs,
    tsTrust := s.trustAt s.ltNs, rxAt := s.raw }

/-- Executes the descriptor at `a`: its STATUS, 0 while that is open: a frame in lookup mode has yet to meet admission. Its frame waits for its
turn at port 48 (R13). -/
def State.txRun (s0 : State) (a : Nat) (d : TxDesc) : Nat × State :=
  if ¬ s0.txOk d then (3, s0)
  else if ¬ s0.inMgmt d.addr d.len then (4, s0)
  else if isCan d.port ∧ ¬ d.lookup ∧ canMalformed (s0.mem d.addr d.len) then (3, s0)
  else
    let s := (s0.advanceRaw (s0.injFree 48)).injectDue
    let f := s.txFrame d
    let s1 := s.paced 48 f.L s.raw
    if d.lookup then (0, { s1 with rxQ := s1.rxQ ++ [{ f with txDesc := a + 1 }] })
    else
      let r := (State.admitBefore s1.raw s1.admQ.length s1).admitDirect f d.port
      (if r.1 then 1 else 2, r.2)

/-- Slots of the transmit ring, and the one at TAIL. -/
def State.txSize (s : State) : Nat := 2 ^ s.fd Rg.SYS_SP_TX_SIZE Fl.SYS_SP_TX_SIZE_LOG2
def State.txTail (s : State) : Nat := s.rd Rg.SYS_SP_TX_TAIL % s.txSize

/-- The descriptor at `a`, which is at TAIL, ends with status `c`: it is counted, STATUS is written, and TAIL advances. -/
def State.txEnd (s : State) (a c : Nat) (irq : Bool) : State :=
  let s1 := s.count (spC (if c = 1 then 3 else if c = 2 then 4 else 5))
  let s2 := (s1.setMem (a + 10) (leBytes 1 c)).wr Rg.SYS_SP_TX_TAIL ((s.txTail + 1) % s.txSize)
  if irq then s2.setBit Rg.SYS_SP_INT_STATUS 1 else s2

/-- The frame of the descriptor in progress: one in lookup mode that has not met admission. -/
def State.txOpen (s : State) : Option Nat := ((s.rxQ ++ s.admQ).find? (fun f => f.txDesc != 0)).map (·.txDesc)

/-- After a step from `was`, the descriptor in progress ends where its frame has met admission: with status 1 where a copy was admitted, else 2.
DESIGN CHOICE (log 93): a frame that the parser, the tables or its meter dropped before admission is not enqueued and ends with 2 too. -/
def State.txSettled (s was : State) : State :=
  match was.txOpen with
  | none => s
  | some d =>
    let n (t : State) : Nat := (t.copies.filter (fun f => f.txDesc = d)).length
    if s.txOpen.isSome then s else s.txEnd (d - 1) (if n was < n s then 1 else 2) (s.txDesc (d - 1)).irq

/-- The descriptor at TAIL executes, when it is of the given MODE and no other is in progress. -/
def State.spTx (s : State) (lookup : Bool) : State :=
  let a := s.rd Rg.SYS_SP_TX_BASE + 32 * s.txTail
  let d := s.txDesc a
  if ¬ s.forwarding ∨ s.txTail = s.rd Rg.SYS_SP_TX_HEAD % s.txSize ∨ s.txOpen.isSome ∨ d.lookup ≠ lookup then s
  else
    let r := s.txRun a d
    if r.1 = 0 then r.2 else r.2.txEnd a r.1 d.irq

def execSpTxDirect (s : State) : Host.Outcome State Fault Refusal := .next (s.spTx false)
def execSpTxLookup (s : State) : Host.Outcome State Fault Refusal := .next (s.spTx true)

/-! ## The event ring (R371 to R373) -/

/-- An event record in management memory, and on the wire. -/
def Ev.le (e : Ev) : Bytes := leBytes 4 (e.code + e.code / 256 * 2 ^ 16 + e.port * 2 ^ 24) ++ leBytes 4 e.hoop.toNat ++ leBytes 8 e.detail.toNat
def Ev.wire (e : Ev) : Bytes := beBytes 2 e.code ++ beBytes 1 (e.code / 256) ++ beBytes 1 e.port ++ beBytes 4 e.hoop.toNat ++ beBytes 8 e.detail.toNat

def State.evtSize (s : State) : Nat := 2 ^ s.fd Rg.SYS_EVT_SIZE Fl.SYS_EVT_SIZE_LOG2

/-- Whether the event ring is full. -/
def State.evtFull (s : State) : Bool := (s.rd Rg.SYS_EVT_WR + 1) % s.evtSize = s.rd Rg.SYS_EVT_RD % s.evtSize

/-- Puts a record into the ring, which takes 4 cycles (R373). -/
def State.evtPut (s : State) (e : Ev) : State :=
  let w := s.rd Rg.SYS_EVT_WR % s.evtSize
  let a := s.rd Rg.SYS_EVT_BASE + 16 * w
  let t := (if s.inMgmt a 16 then s.setMem a e.le else s).wr Rg.SYS_EVT_WR ((w + 1) % s.evtSize)
  { t with ev := { t.ev with freeAt := Nat.max s.raw s.ev.freeAt + 4 } }

/-- Writes a record, preceded by the loss record where records were lost, which is offered to the eyelet like every event (R362); one that finds
the ring full is lost. -/
def State.evtWrite (s : State) (e : Ev) : State :=
  if s.evtFull then s.loseEv
  else if s.ev.lost = 0 then s.evtPut e
  else
    let l : Ev := ⟨0x0101, noPort, s.rdw Rg.HOOP_INDEX, BitVec.ofNat 64 s.ev.lost, s.raw⟩
    let s1 := (({ s with ev := { s.ev with lost := 0 } } : State).evtPut l).eyeCopy l
    if s1.evtFull then s1.loseEv else s1.evtPut e

/-- Puts a record into the holding queue of 64 (R372). -/
def State.evtHold (s : State) (e : Ev) : State :=
  if s.ev.holding.length < 64 then { s with ev := { s.ev with holding := s.ev.holding ++ [e] } } else s.loseEv

/-- EVENT_RECORD_WRITE (R373): the next record moves: to the ring while it runs, once that accepts one, the held ones first; else to the
holding queue. -/
def State.evtNext (s0 : State) : State :=
  let s := if s0.flag Rg.SYS_EVT_CTRL Fl.SYS_EVT_CTRL_EN && !(s0.ev.holding ++ s0.ev.queue).isEmpty then s0.advanceRaw s0.ev.freeAt else s0
  if s.flag Rg.SYS_EVT_CTRL Fl.SYS_EVT_CTRL_EN then
    match s.ev.holding with
    | e :: h => ({ s with ev := { s.ev with holding := h } } : State).evtWrite e
    | [] =>
      match s.ev.queue with
      | e :: q => ({ s with ev := { s.ev with queue := q } } : State).evtWrite e
      | [] => s
  else
    match s.ev.queue with
    | e :: q => ({ s with ev := { s.ev with queue := q } } : State).evtHold e
    | [] => s

def execEventRecordWrite (s : State) : Host.Outcome State Fault Refusal := .next s.evtNext

/-- EVT_RING_ENABLE (R372): a write of SYS_EVT_CTRL. -/
def execEvtRingEnable (value : Word) (s : State) : Host.Outcome State Fault Refusal :=
  .next (s.fw (·.wr Rg.SYS_EVT_CTRL (value.toNat % 2)))

/-! ## GPIO (R377) -/

/-- The outputs under a boundary update: the masked ones take its levels. -/
def gpioUpdate (out : Word) (u : Word × Word) : Word := (out &&& ~~~ u.1) ||| (u.2 &&& u.1)

/-- GPIO_OUT as a write leaves it: in a boundary cycle the write acts first and the boundary update follows. -/
def State.gpioOut (s : State) (v : Word) : Word := s.cyc.gpio.elim v (gpioUpdate v)

/-- A write of GPIO_OUT (R377): the outputs follow at once. -/
def State.gpioWrite (s : State) (v : Word) : State := s.wr Rg.GPIO_OUT (s.gpioOut v).toNat

def execGpioOutWrite (value : Word) (s : State) : Host.Outcome State Fault Refusal := .next (s.fw (·.gpioWrite value))

/-- GPIO_IN as it reads: the levels of the pins, outputs included. -/
def State.gpioIn (s : State) : Nat :=
  let oe := if s.pins.gpioDriven then s.rdw Rg.GPIO_OE else 0
  ((s.rdw Rg.GPIO_OUT &&& oe) ||| (s.pins.gpioIn &&& ~~~ oe)).toNat

/-- The boundary's part of GPIO (R49, R377): the levels are sampled and changes noted, then the boundary update of the
outputs. -/
def State.gpioBoundary (s : State) (pins : Word) : State :=
  let s0 : State := { s with pins := { s.pins with gpioIn := pins } }
  let now := s0.gpioIn
  let chg := now ^^^ s0.rd Rg.GPIO_SAMPLE
  let s1 := ((s0.wr Rg.GPIO_SAMPLE now).wr Rg.GPIO_CHG (s0.rd Rg.GPIO_CHG ||| chg)).noteSet Rg.GPIO_CHG.addr chg
  let u := (s1.rdw Rg.GPIO_OUT_MASK, s1.rdw Rg.GPIO_OUT_NEXT)
  let s2 := (s1.wr Rg.GPIO_OUT (gpioUpdate (s1.rdw Rg.GPIO_OUT) u).toNat).wr Rg.GPIO_OUT_MASK 0
  { s2 with cyc := { s2.cyc with gpio := some u } }

end Sys2Proof.Machine
end

