-- ==== Sys2Proof/Machine/Signals.lean ====
section
/-! DEFINITION. Signal memory, the capture unit and firmware signal writes (R216 to R226, R243), and firmware access to private
memory (R246). -/

namespace Sys2Proof.Machine

/-! ## Signal memory (R220 to R223) -/

/-- Stamp `x` is no later than `y` (R220). -/
def stampLe (x y : Word) : Bool := decide ((y - x).toNat < 2 ^ 31)

/-- The entry of index `i` in bank `n`. -/
def SigMem.at (m : SigMem) (n i : Nat) : SigEntry := sget m.ents (65536 * n + i) (sigZero m.stamp)

/-- Puts the entry of index `i` in bank `n`. -/
def SigMem.put (m : SigMem) (n i : Nat) (e : SigEntry) : SigMem :=
  { m with ents := sset m.ents (65536 * n + i) (sigZero m.stamp) e }

def SigEntry.valid (e : SigEntry) : Bool := bitOf e.flags 0

/-- FLAGS of a written entry. -/
def sigFlags (valid eccBad remote firmware peerStale : Bool) : Nat :=
  b2n valid + b2n eccBad * 2 + b2n remote * 8 + b2n firmware * 16 + b2n peerStale * 32

/-- Whether the entry of index `i` in bank `n` holds a double-bit error (R224, memory 4). -/
def State.sigBad (s : State) (n i : Nat) : Bool := s.isBad 4 (65536 * n + i)

/-- An access to both entries of index `i`: single-bit errors are corrected and counted (R347). -/
def State.sigSbe (s : State) (i : Nat) : State := (s.sbeAt 4 i).sbeAt 4 (65536 + i)

/-- One write of the capture unit, bound to hoop `h` (R220, R224). -/
def State.sigWrite (s0 : State) (i : Nat) (h : Word) (value : BitVec 64) (flags : Nat) : State :=
  let s := s0.sigSbe i
  let n := h.toNat % 2
  let o := 1 - n
  let was := if s.sigBad n i then sigZero h else s.sig.at n i
  let other := if s.sigBad o i then sigZero h else s.sig.at o i
  let newer := !stampLe was.stamp other.stamp
  let m1 := if s.sigBad o i then s.sig.put o i (sigZero h)
    else if was.stamp ≠ h ∧ was.valid ∧ newer then s.sig.put o i was else s.sig
  let c := if was.stamp = h then Nat.min (was.count + 1) 65535 else 1
  let s1 : State := { s with
    sig := m1.put n i ⟨value, h, c, flags⟩
    cyc := { s.cyc with sigOld := (65536 * n + i, s.sig.at n i) :: (65536 * o + i, s.sig.at o i) :: s.cyc.sigOld } }
  ((s1.mended 4 (65536 * n + i)).mended 4 (65536 * o + i)).count (bobC 0)

/-- FIRMWARE in the FLAGS of an entry: the write came from R226. -/
def sigFirm (flags : Nat) : Bool := bitOf flags 4

/-- A capture that waited for its cycle is written. A firmware write is complete with it (R226). What bobbins read in the cycle in progress
was there before only where the write falls into that cycle (R225). -/
def State.sigLand (s : State) (w : Nat × Nat × Word × BitVec 64 × Nat) : State :=
  let t := s.sigWrite w.2.1 w.2.2.1 w.2.2.2.1 w.2.2.2.2
  let t1 : State := if w.1 < s.raw then { t with cyc := s.cyc } else t
  if sigFirm w.2.2.2.2 then (t1.sf Rg.BOB_SIGW_STATUS Fl.BOB_SIGW_STATUS_BUSY 0).setBit Rg.BOB_SIGW_STATUS 1 else t1

/-- The captures that wait and whose cycle has come are written. -/
def State.sigDrain (s : State) : State :=
  (s.sig.wait.filter (fun w => w.1 ≤ s.raw)).foldl State.sigLand
    { s with sig := { s.sig with wait := s.sig.wait.filter (fun w => !decide (w.1 ≤ s.raw)) } }

/-- TIME_RAW of the coming boundary's cycle. -/
def State.nextDue (s : State) : Nat := if s.boundDue then s.dueRaw else s.raw + s.cyclesTo s.nextB

/-- The first cycle free for a capture from TIME_RAW `r` on: the coming boundary's cycle and the 15 after it are the refresh's (R222). -/
def State.sigSlot (s : State) (r : Nat) : Nat :=
  let a := Nat.max r s.sig.free
  if s.hoopsRun ∧ s.ltAfter (a - s.raw) ≥ s.nextB * 65536 then Nat.max a (s.nextDue + 16) else a

/-- Time passes to the next cycle that is free for a capture, which the caller's write then takes. -/
def State.sigTake (s : State) : State :=
  let s1 := (s.advanceRaw (s.sigSlot s.raw)).sigDrain
  { s1 with sig := { s1.sig with free := s1.raw + 1 } }

/-- A capture is to be written in cycle `a`, which is free. -/
def State.sigWait (s : State) (a i : Nat) (h : Word) (value : BitVec 64) (flags : Nat) : State :=
  { s with sig := { s.sig with free := a + 1, wait := s.sig.wait ++ [(a, i, h, value, flags)] } }

/-- A capture of one of the part's own units: it is written in the next cycle that is free for a capture. -/
def State.sigPost (s : State) (i : Nat) (h : Word) (value : BitVec 64) (flags : Nat) : State :=
  let s1 := s.sigDrain
  let a := s1.sigSlot s1.raw
  if a ≤ s1.raw then ({ s1 with sig := { s1.sig with free := s1.raw + 1 } } : State).sigWrite i h value flags
  else s1.sigWait a i h value flags

/-- Signal memory as a bobbin's read sees it: as before the captures of the cycle in progress (R225). -/
def State.sigBefore (s : State) : State :=
  { s with sig := s.cyc.sigOld.foldl (fun m w => { m with ents := sset m.ents w.1 (sigZero m.stamp) w.2 }) s.sig }

/-- What a read serves from the view of hoop `v` (R221, R224): VALUE, STAMP, COUNT and FLAGS; and the bank of a bad entry that
stands in its way. DESIGN CHOICE (log 159): where both entries are bad and neither would qualify, BOB_SIG_ECC names bank 0. -/
def State.sigRead (s : State) (v : Word) (i : Nat) : SigEntry × Option Nat :=
  let ok (n : Nat) : Bool := (s.sig.at n i).valid && stampLe (s.sig.at n i).stamp v
  let best (l : List Nat) : Option Nat := l.foldl (fun a n => match a with
    | none => some n
    | some b => if stampLe (s.sig.at n i).stamp (s.sig.at b i).stamp then some b else some n) none
  let all := best ([0, 1].filter ok)
  match all with
  | some n =>
    if s.sigBad n i then (⟨0, 0, 0, 2⟩, some n)
    else
      let e := s.sig.at n i
      ({ e with flags := (e.flags - e.flags / 4 % 2 * 4) + (if e.stamp = v then 0 else 4) }, none)
  | none => if s.sigBad 0 i ∧ s.sigBad 1 i then (⟨0, 0, 0, 2⟩, some 0) else (⟨0, 0, 0, 0⟩, none)

/-- A read that meets a bad entry is counted and reported (R224). -/
def State.sigSeen (s0 : State) (i : Nat) (bad : Option Nat) : State :=
  let s := s0.sigSbe i
  match bad with
  | none => s
  | some n => ((s.dbeSeen 4 (65536 * n + i)).count (bobC 6)).raise 0x0A05 noPort (i + n * 2 ^ 16)

/-! ### Refresh (R222) -/

/-- Whether a stamp lies more than 2^30 hoops before hoop `k`. -/
def stampOld (k st : Word) : Bool := decide ((k - st).toNat > 2 ^ 30 ∧ (k - st).toNat < 2 ^ 31)

/-- Refreshes index `i`. -/
def refreshOne (k : Word) (m : SigMem) (i : Nat) : SigMem :=
  let a := m.at 0 i
  let b := m.at 1 i
  if stampOld k a.stamp ∧ stampOld k b.stamp then
    (m.put 0 i { a with stamp := k - 0x40000000 }).put 1 i { b with stamp := k - 0x40000000 }
  else m

/-- The boundary's refresh of the next 16 indices: it takes the boundary cycle and the 15 after it. A capture that was to be written in one of
them is written after them, and those behind it as much later; a firmware write among them belongs to the hoop that has begun (R226). -/
def State.refresh (s0 : State) : State :=
  let s := s0.sigDrain
  let k := s.rdw Rg.HOOP_INDEX
  let m := (List.range 16).foldl (fun m j => refreshOne k m ((s.sig.pos + j) % 65536)) s.sig
  let until_ := s.dueRaw + 16
  let by_ := match s.sig.wait with
    | [] => 0
    | w :: _ => until_ - w.1
  { s with sig := { m with
      pos := (s.sig.pos + 16) % 65536
      free := Nat.max (s.sig.free + by_) until_
      wait := s.sig.wait.map (fun w => (w.1 + by_, w.2.1, if sigFirm w.2.2.2.2 then k else w.2.2.1, w.2.2.2.1, w.2.2.2.2)) } }

/-- The refresh of all indices at DOZE exit (R223): the indices with a listed entry one by one, the others, whose two entries are
alike, by the stamp they share. -/
def State.refreshAll (s : State) : State :=
  let k := s.rdw Rg.HOOP_INDEX
  let m := s.sig
  let ix := (m.ents.map (fun e => e.1 % 65536)).eraseDups
  if ¬ stampOld k m.stamp then { s with sig := ix.foldl (refreshOne k) m }
  else
    let new := k - 0x40000000
    let pairs := ix.flatMap (fun i =>
      let r := refreshOne k m i
      [(i, r.at 0 i), (65536 + i, r.at 1 i)])
    { s with sig := { m with ents := pairs.foldl (fun l e => sset l e.1 (sigZero new) e.2) [], stamp := new } }

/-! ### At a start (R223) -/

/-- The loader writes region 10 to both banks, with the hoop index at the lock minus 2 as the stamp. -/
def State.sigStart (s : State) : State :=
  let st := s.rdw Rg.HOOP_INDEX - 2
  let ix := ((s.sram.filter (fun c => Mm.sigInit ≤ c.1 && c.1 < Mm.sigInit + 0x100000)).map (fun c => (c.1 - Mm.sigInit) / 16)).eraseDups
  let m0 : SigMem := ⟨[], st, 0, 0, []⟩
  { s with sig := ix.foldl (fun m i =>
      let b := s.ram (Mm.sigInit + 16 * i) 16
      let e : SigEntry := ⟨BitVec.ofNat 64 (be b 0 8), st, 0, be b 14 2 % 2⟩
      (m.put 0 i e).put 1 i e) m0 }

/-- An entry as the debug window shows it. -/
def SigEntry.raw (e : SigEntry) : Bytes := beBytes 8 e.value.toNat ++ beBytes 4 e.stamp.toNat ++ beBytes 2 e.count ++ beBytes 2 e.flags

/-! ## Capture (R216 to R219, R243) -/

/-- A capture map slot. -/
def State.cmap (s : State) (m f : Nat) : Nat := s.rd64 (Rg.BOB_CMAP m f)

/-- The `n` bytes at `o` of a string, unless they reach beyond its end. -/
def within (d : Bytes) (o n : Nat) : Option Bytes := if o + n ≤ d.length then some (slice d o n) else none

/-- The value of a field slot (FORMAT 0 to 5), or none when it reaches too far. -/
def captureValue (f : Frame) (c : Nat) : Option (BitVec 64) :=
  let off := bits c 16 11
  let w := bits c 27 4
  match bits c 32 3 with
  | 4 => some (BitVec.ofNat 64 (unsigned 48 (f.ts / 65536)))
  | 5 => some (BitVec.ofNat 64 f.L)
  | fmt =>
    let b := match bits c 35 2 with
      | 0 => within f.data off w
      | 1 => within f.data (f.hdrEnd + off) w
      | _ => within (slice f.pv 0 72) off w
    b.map (fun x =>
      let v := if fmt ≥ 2 then ofLe x else ofBe x
      if fmt % 2 = 1 then BitVec.ofInt 64 (signed (8 * w) v) else BitVec.ofNat 64 v)

/-- Nanoseconds within which a capture must be written (R219). -/
def captureFlight : Int := 300

/-- One capture at its turn: written in the next cycle that is free for one, or discarded when its 300 ns have passed by then. -/
def State.captureOne (s : State) (f : Frame) (i : Nat) (v : BitVec 64) (flags : Nat) : State :=
  if s.ltAfter (s.sigSlot s.raw - s.raw) - f.ts > captureFlight * 65536 then
    let m := s.mark (0x0A04 * 65536)
    let s1 := (m.2.count (bobC 2)).setBit Rg.BOB_INT_STATUS 6
    if m.1 = 1 then s1.raise 0x0A04 f.src m.1 else s1
  else s.sigTake.sigWrite (i % 65536) (BitVec.ofNat 32 f.tsHoop) v flags

/-- The captures of a map's slots with FORMAT 0 to 5. -/
def State.captureSlot (f : Frame) (s : State) (k : Nat) : State :=
  let c := s.cmap f.capMap k
  if ¬ bitOf c 63 ∨ bits c 32 3 ≥ 6 then s
  else
    match captureValue f c with
    | none => s.count (bobC 1)
    | some v => s.captureOne f (c % 65536 + (if bitOf c 37 then f.src else 0)) v 1

/-- A rejected signal update: malformed, or of another hoop. -/
def State.updateReject (s : State) (f : Frame) (late : Bool) (srcNode hoop : Nat) : State :=
  ((s.count (bobC (if late then 5 else 4))).setBit Rg.BOB_INT_STATUS 7).raise 0x0A06 f.src (b2n late + srcNode * 2 ^ 16 + hoop * 2 ^ 32)

/-- A signal update (FORMAT 6): checked whole, then each entry is one capture (R243). -/
def State.captureUpdate (s : State) (f : Frame) (off : Nat) : State :=
  let d := f.data
  let o := f.hdrEnd + off
  let h := f.lastAkz - 1
  let node := if f.lastAkz = 0 then 0 else be d (h + 2) 2
  let hoop := if f.lastAkz = 0 then 0 else be d (h + 8) 4
  let n := byteAt d (o + 1)
  if f.lastAkz = 0 ∨ byteAt d h % 16 ≠ 6 ∨ o + 8 + 12 * n > d.length ∨ byteAt d o / 16 ≠ 1 ∨ n = 0 ∨ n > 64 ∨ be d (h + 12) 2 ≠ 8 + 12 * n then
    s.updateReject f false node hoop
  else if bitOf (byteAt d (h + 1)) 1 ∧ hoop ≠ f.tsHoop then s.updateReject f true node hoop
  else
    (List.range n).foldl (fun t k =>
      let e := o + 8 + 12 * k
      let fl := be d (e + 2) 2
      let v := bitOf fl 0
      t.captureOne f (be d e 2) (if v then BitVec.ofNat 64 (be d (e + 4) 8) else 0) (sigFlags v (bitOf fl 1) true false (bitOf fl 5))) s

/-- FRAME_CAPTURE (R216 to R219): the oldest frame marked for capture. The capture unit stops in DOZE. -/
def State.frameCapture (s : State) : State :=
  match s.capQ with
  | [] => s
  | f :: q =>
    if ¬ s.egressOn then s
    else
      let s1 : State := { s with capQ := q }
      let c := s1.cmap f.capMap 0
      let m := (Rg.BOB_CMAP f.capMap 0).addr
      match s.badIn 3 m 64 with
      | some x => s1.fatalDbe 3 x
      | none =>
        let s2 := s1.sbeIn 3 m 64
        if bitOf c 63 ∧ bits c 32 3 = 6 then s2.captureUpdate f (bits c 16 11) else (List.range 8).foldl (State.captureSlot f) s2

/-! ## Firmware signal writes (R226) -/

/-- The hoop index in the cycle `n` cycles from now. -/
def State.hoopIn (s : State) (n : Nat) : Word :=
  if s.ltAfter n ≥ s.nextB * 65536 then BitVec.ofNat 32 (s.hoopOf (s.ltAfter n / 65536)) else s.rdw Rg.HOOP_INDEX

/-- SIGNAL_WRITE_GO: a write of BOB_SIGW_CMD. The signal is written in the first later cycle that is free for a capture, for the hoop of that
cycle. -/
def State.sigwGo (s0 : State) (v : Nat) : State :=
  let s := s0.sigDrain
  if ¬ bitOf v 0 then s
  else if s.flag Rg.BOB_SIGW_STATUS Fl.BOB_SIGW_STATUS_BUSY then (s.setBit Rg.BOB_SIGW_STATUS 2).ignored Rg.BOB_SIGW_CMD.addr v
  else
    let r := s.rd Rg.BOB_SIGW_INDEX
    let inv := bitOf r 16
    let a := s.sigSlot (s.raw + 1)
    (s.sf Rg.BOB_SIGW_STATUS Fl.BOB_SIGW_STATUS_BUSY 1).sigWait a (r % 65536) (s.hoopIn (a - s.raw))
      (if inv then 0 else BitVec.ofNat 64 (s.rd64 Rg.BOB_SIGW_VALUE)) (sigFlags (!inv) false false true false)

def execSignalWriteGo (lapse : Nat) (value : Word) (s : State) : Host.Outcome State Fault Refusal :=
  .next ((s.advance lapse).fw (·.sigwGo value.toNat))

/-- SIGNAL_WRITE_DONE: time passes to the cycle of the firmware write that waits, and it is complete. -/
def State.sigwDone (s : State) : State :=
  match s.sig.wait.find? (fun w => sigFirm w.2.2.2.2) with
  | none => s
  | some w => (s.advanceRaw w.1).sigDrain

def execSignalWriteDone (s : State) : Host.Outcome State Fault Refusal := .next s.sigwDone

/-! ## Private memory (R246) -/

/-- The 64-bit private word of bobbin `b` at byte offset `o`. -/
def State.priv (s : State) (b o : Nat) : BitVec 64 := BitVec.ofNat 64 (s.ramBe (Mm.priv + 0x10000 * b + o) 8)

def State.setPriv (s : State) (b o : Nat) (v : BitVec 64) : State := s.setRam (Mm.priv + 0x10000 * b + o) (beBytes 8 v.toNat)

/-- The 64-bit private word, none where it holds a double-bit error. -/
def State.privNow (s : State) (b o : Nat) : Option (BitVec 64) := if s.isBad 6 (8192 * b + o / 8) then none else some (s.priv b o)

/-- The bobbin and the word that BOB_PRIV_ADDR names; OFFSET is taken to the multiple of 8 below it. -/
def State.privAddr (s : State) : Nat × Nat := (s.fd Rg.BOB_PRIV_ADDR Fl.BOB_PRIV_ADDR_BOBBIN, s.fd Rg.BOB_PRIV_ADDR Fl.BOB_PRIV_ADDR_OFFSET / 8 * 8)

/-- PRIV_READ: BOB_PRIV_CMD with OP 1. A word with a double-bit error is counted as a bobbin's read of it is, and stays bad (R233, R347);
what BOB_PRIV_DATA then holds is open. -/
def State.privRead (s : State) : State :=
  let a := s.privAddr
  let n := 8192 * a.1 + a.2 / 8
  let done (t : State) (v : Nat) : State := (t.wr64 Rg.BOB_PRIV_DATA v).setBit Rg.BOB_PRIV_STATUS 1
  if s.isBad 6 n then
    let r := ((s.count (bobC 7)).dbeSeen 6 n).freeBytes 8
    done r.2 (be r.1 0 8)
  else done (s.sbeAt 6 n) (s.priv a.1 a.2).toNat

def execPrivRead (s : State) : Host.Outcome State Fault Refusal := .next (s.fw (·.privRead))

/-- PRIV_WRITE: BOB_PRIV_CMD with OP 2; a bad word is mended. A word that the bobbin has stored in the same cycle keeps the bobbin's value
(R246), and a bobbin's read of the cycle gets the word as it was before. -/
def State.privWrite (s : State) : State :=
  let a := s.privAddr
  if s.cyc.stores.contains a then s.setBit Rg.BOB_PRIV_STATUS 1
  else
    let s1 : State := { s with cyc := { s.cyc with privOld := (a, s.privNow a.1 a.2) :: s.cyc.privOld } }
    ((s1.setPriv a.1 a.2 (BitVec.ofNat 64 (s.rd64 Rg.BOB_PRIV_DATA))).mended 6 (8192 * a.1 + a.2 / 8)).setBit Rg.BOB_PRIV_STATUS 1

/-- A private word as a bobbin's read of this cycle sees it; none where it is bad. -/
def State.privSeen (s : State) (b o : Nat) : Option (BitVec 64) :=
  match s.cyc.privOld.reverse.find? (fun e => e.1 = (b, o)) with
  | none => s.privNow b o
  | some e => if s.cyc.stores.contains (b, o) then s.privNow b o else e.2

def execPrivWrite (s : State) : Host.Outcome State Fault Refusal := .next (s.fw (·.privWrite))

/-! ## Debug windows (R375) -/

/-- A debug window: address, size, and the number of its memory in R347. -/
structure Window where
  base : Nat
  size : Nat
  mem  : Nat

/-- The windows of the memories that are held at their window addresses. -/
def debugWindows : List Window :=
  [⟨Mm.flow, 0xC00000, 1⟩, ⟨Mm.fdb, 0x100000, 1⟩, ⟨Mm.bmap, 0x80000, 1⟩, ⟨Mm.node, 0x80000, 1⟩, ⟨Mm.act, 0x200000, 2⟩,
   ⟨Mm.pol, 0x80000, 2⟩, ⟨Mm.mc, 0x8000, 2⟩, ⟨Mm.parse, 0x40000, 3⟩, ⟨Mm.reg8, 0x40000, 3⟩]

def Window.holds (w : Window) (a : Nat) : Bool := w.base ≤ a && a < w.base + w.size

/-- A word of the packet buffer: the descriptor and the frame bytes of the copy that holds the cell. Free values (log 18): a cell in no use,
and the bytes behind the end of the frame. -/
def State.cellRead (s : State) (a : Nat) : State :=
  let r := s.freeBytes 4
  let b := match s.cellAt ((a - Mm.cells) / 128) with
    | none => r.1
    | some b => (slice b (a % 128) 4).zip r.1 |>.zipIdx |>.map (fun x => if a % 128 + x.2 < b.length then x.1.1 else x.1.2)
  { r.2 with readPort := ⟨BitVec.ofNat 32 (ofLe b), false⟩ }

/-- A debug window shows a word, or takes an access fault (R375). -/
def State.shown (s : State) (v : Nat) : State := { s with readPort := ⟨BitVec.ofNat 32 v, false⟩ }
def State.notShown (s : State) : State := { s with readPort := ⟨0, true⟩ }

/-- DEBUG_WINDOW_READ (R375): an aligned word of a memory as stored. A word with a double-bit error takes an access fault: the error is counted
and raised (R347), and nothing of its handling begins. -/
def State.debugRead (s : State) (a : Nat) : State :=
  if a % 4 ≠ 0 then s.notShown
  else if Mm.cells ≤ a ∧ a < Mm.cells + 0x800000 then
    match s.badIn 0 a 4 with
    | some x => (s.dbeSeen 0 x).notShown
    | none => (s.sbeIn 0 a 4).cellRead a
  else if Mm.sig ≤ a ∧ a < Mm.sig + 0x200000 then
    let s := s.sigDrain
    let i := (a - Mm.sig) / 16
    if s.isBad 4 i then (s.dbeSeen 4 i).notShown
    else (s.sbeAt 4 i).shown (ofLe (slice (s.sig.at (i / 65536) (i % 65536)).raw (a % 16) 4))
  else
    match debugWindows.find? (·.holds a) with
    | none => s.notShown
    | some w =>
      match s.badIn w.mem a 4 with
      | some x => (s.dbeSeen w.mem x).notShown
      | none => (s.sbeIn w.mem a 4).shown (ofLe (s.ram a 4))

def execDebugWindowRead (addr : Word) (s : State) : Host.Outcome State Fault Refusal := .next (s.fw (·.debugRead addr.toNat))

end Sys2Proof.Machine
end

