-- ==== Sys2Proof/Machine/Bobbin.lean ====
section
/-! DEFINITION. The bobbins (R227 to R235, R245 to R259): issue and timing of a run, the end of a run, and the meaning of every
instruction. A bobbin command issues that instruction on its bobbin, in the earliest cycle R251 allows. -/

namespace Sys2Proof.Machine

abbrev W64 := BitVec 64

def State.lane (s : State) (b : Nat) : Lane := sget s.lanes b laneInit
def State.setLane (s : State) (b : Nat) (l : Lane) : State := { s with lanes := sset s.lanes b laneInit l }

def State.bobState (s : State) (b : Nat) : Nat := s.fd (Rg.BOB_STATUS b) Fl.BOB_STATUS_STATE
def State.bobBudget (s : State) (b : Nat) : Nat := s.fd (Rg.BOB_BUDGET b) Fl.BOB_BUDGET_CYCLES
def State.running (s : State) (b : Nat) : Bool := s.bobState b = 2

/-- A register: w0 reads zero (R248). -/
def Lane.w (l : Lane) (r : Nat) : W64 := if r = 0 then 0 else sget l.wregs r 0
def Lane.setW (l : Lane) (r : Nat) (v : W64) : Lane := if r = 0 then l else { l with wregs := sset l.wregs r 0 v }

/-- A predicate: p0 reads 1 and cannot be written (R227). -/
def Lane.p (l : Lane) (k : Nat) : Bool := k = 0 || l.preds.getLsbD k
def Lane.setP (l : Lane) (k : Nat) (v : Bool) : Lane :=
  if k = 0 then l else { l with preds := (l.preds &&& ~~~((1 : BitVec 8) <<< k)) ||| (if v then (1 : BitVec 8) <<< k else 0) }

/-- Whether an instruction executes (R247). -/
def Lane.holds (l : Lane) (q : Pq) : Bool := l.p q.pred.val != q.neg

/-! ## The end of a run (R231, R232) -/

/-- The records of a bobbin's safe table; they carry hoop `k`. -/
def State.storedRecords (s : State) (at_ cnt k : Nat) : List EmitRec :=
  (List.range cnt).map (fun i =>
    let a := at_ + 8 + 72 * i
    ⟨s.ramBe a 2 % 4096, (List.range 8).map (fun j => BitVec.ofNat 64 (s.ramBe (a + 8 + 8 * j) 8)), k⟩)

def State.safeTable (s : State) (b : Nat) : List EmitRec :=
  let a := Mm.reg8 + 0x4000 + 0x400 * b
  s.storedRecords a (Nat.min (s.ramBe a 2) 14) s.hoopIx

/-- Sets CONSEC and MODE of a bobbin; a change of MODE raises BOB_MODE. -/
def State.setMode (s : State) (b consec mode : Nat) : State :=
  let old := s.fd (Rg.BOB_STATUS b) Fl.BOB_STATUS_MODE
  let s1 := (s.sf (Rg.BOB_STATUS b) Fl.BOB_STATUS_CONSEC consec).sf (Rg.BOB_STATUS b) Fl.BOB_STATUS_MODE mode
  if old = mode then s1 else (s1.setBit Rg.BOB_INT_STATUS 1).raise 0x0A02 noPort (b + mode * 16)

/-- Ends a run: IDLE, with its cycles. -/
def State.bobStop (s : State) (b cycles : Nat) : State :=
  (s.sf (Rg.BOB_STATUS b) Fl.BOB_STATUS_STATE 1).wr (Rg.BOB_CYCLES_LAST b) (cycles % 2 ^ 24)

/-- A clean run commits its records and emits them. -/
def State.bobClean (s : State) (b cycles : Nat) : State :=
  let l := s.lane b
  let s1 := (s.bobStop b cycles).setLane b { l with committed := some l.records, out := l.records, records := [] }
  let s2 := if s1.rd (Rg.BOB_CYCLES_MAX b) < cycles then s1.wr (Rg.BOB_CYCLES_MAX b) (cycles % 2 ^ 24) else s1
  s2.setMode b 0 0

/-- An overrun stops the bobbin (R231) and decides its emission (R232). -/
def State.bobOver (s : State) (b cause fault cycles : Nat) : State :=
  let l := s.lane b
  let consec := Nat.min (s.fd (Rg.BOB_STATUS b) Fl.BOB_STATUS_CONSEC + 1) 255
  let s1 := (s.bobStop b cycles).count (bcntC b 0)
  let s2 := if cause = 1 then s1.count (bcntC b 1) else s1
  let s3 := (s2.setBit Rg.BOB_INT_STATUS 0).raise 0x0A01 noPort (b + cause * 16 + fault * 2 ^ 8 + l.pc % 16384 * 2 ^ 16 + consec * 2 ^ 32)
  let safe (t : State) : State := ((t.count (bcntC b 3)).setLane b { l with records := [], out := t.safeTable b }).setMode b consec 2
  match l.committed with
  | none => safe s3
  | some c =>
    if consec ≥ s3.fd Rg.BOB_CFG Fl.BOB_CFG_SAFE_AFTER then safe s3
    else ((s3.count (bcntC b 2)).setLane b { l with records := [], out := c }).setMode b consec 1

/-- A double-bit error in the program memory of bobbin `b`, at word `x` of memory 5, halts it (R233). -/
def State.bobHalt (s : State) (b x : Nat) : State :=
  let l := s.lane b
  let s1 := (s.sf (Rg.BOB_STATUS b) Fl.BOB_STATUS_STATE 3).setLane b { l with records := [], sld := [] }
  ((s1.dbeSeen 5 x).setBit Rg.BOB_INT_STATUS 2).raise 0x0A03 noPort (b + l.pc % 16384 * 2 ^ 16)

/-- LT, whole ns, at which the runs of this hoop end: B_next − EMIT_LEAD. -/
def State.leadAt (s : State) : Int := s.nextB - ((s.fd Rg.BOB_EMIT_LEAD Fl.BOB_EMIT_LEAD_LEAD : Nat) : Int)

/-- The run of bobbin `b` reaches its budget or the emit lead, whichever comes first; a tie has cause 0. -/
def State.bobExpire (s : State) (b : Nat) : State :=
  let l := s.lane b
  let n := (l.started + s.bobBudget b) - s.raw
  if s.ltAfter n < s.leadAt * 65536 ∨ n ≤ s.cyclesTo s.leadAt then (s.advance n).bobOver b 0 0 (s.bobBudget b)
  else
    let s1 := s.advanceTo s.leadAt
    s1.bobOver b 2 0 (s1.raw - l.started)

/-- BOBBIN_BUDGET_EXPIRY (R231). -/
def State.bobBudgetExpiry (s : State) (b : Nat) : State := if s.running b then s.bobExpire b else s

def execBobbinBudgetExpiry (b : Fin 16) (s : State) : Host.Outcome State Fault Refusal := .next (s.bobBudgetExpiry b.val)

/-! ## Start of the runs (R227) -/

/-- Starts bobbin `b` at program address 0. -/
def State.bobStart (s : State) (b : Nat) : State :=
  if s.bobBudget b = 0 ∨ s.bobState b = 3 then s
  else
    let w : List (Nat × W64) := [(1, (s.rdw Rg.HOOP_INDEX).setWidth 64), (2, BitVec.ofNat 64 b), (3, BitVec.ofInt 64 s.lastB),
      (4, BitVec.ofNat 64 (s.fd Rg.TIME_STATUS Fl.TIME_STATUS_TRUST))]
    let l := s.lane b
    (s.sf (Rg.BOB_STATUS b) Fl.BOB_STATUS_STATE 2).setLane b
      { l with started := s.raw, wregs := w.foldl (fun a e => sset a e.1 0 e.2) [], preds := 1, pc := 0, cyc := 0, ready := [], slices := [],
               stDone := 0, loops := [], sld := [], records := [] }

/-! ## Issue (R228, R251) -/

/-- Results of signal reads that are ready by cycle `c` are written into their registers. -/
def Lane.land (l : Lane) (c : Nat) : Lane :=
  let l1 := (l.sld.filter (fun x => x.due ≤ c)).foldl (fun a x => (a.setW x.reg x.value).setW (x.reg + 1) x.info) l
  { l1 with sld := l.sld.filter (fun x => ¬ x.due ≤ c) }

/-- SLD_RESULT (R256): the oldest outstanding signal read of bobbin `b` completes. -/
def State.sldResult (s : State) (b : Nat) : State :=
  match (s.lane b).sld with
  | [] => s
  | x :: _ =>
    let s1 := s.advanceRaw ((s.lane b).started + x.due)
    s1.setLane b { (s1.lane b).land x.due with cyc := (s1.lane b).cyc }

def execSldResult (b : Fin 16) (s : State) : Host.Outcome State Fault Refusal := .next (s.sldResult b.val)

/-- Where issue continues after the word before `next`: ends of REP bodies are ends of iterations (R252, R253). -/
def loopBack (next : Nat) : List RepLoop → Nat × List RepLoop
  | [] => (next, [])
  | r :: t => if next = r.stop then (if r.left > 1 then (r.start, { r with left := r.left - 1 } :: t) else loopBack next t) else (next, r :: t)

/-- What an instruction does when it executes: the lane's fields that follow from it, or a fault code; fault 2 with 16 times the
word of private memory at fault. -/
abbrev Effect := State → Lane → Except Nat (State × Lane)

/-- The timing of an instruction: keys it reads, keys it writes, the latency, cycles to the next issue, and the least cycle any
further rule allows. Keys 1 to 31 are registers, 33 to 39 predicates; w0 and p0 are always ready. -/
structure Timing where
  reads  : List Nat
  writes : List Nat
  lat    : Nat
  gap    : Nat := 1
  least  : Nat := 0

def pkey (k : Nat) : Nat := 32 + k

/-- The cycle in which an instruction issues. -/
def Lane.issueAt (l : Lane) (q : Pq) (t : Timing) : Nat :=
  (pkey q.pred.val :: (t.reads ++ t.writes)).foldl (fun c k => if k = 0 ∨ k = 32 then c else Nat.max c (sget l.ready k 0)) (Nat.max l.cyc t.least)

/-- The lane after an issue at cycle `c`: timing, and the word address that follows. -/
def Lane.issued (l : Lane) (c : Nat) (t : Timing) : Lane :=
  let lb := loopBack (l.pc + 1) l.loops
  { l with cyc := c + t.gap, ready := t.writes.foldl (fun a k => if k = 0 ∨ k = 32 then a else sset a k 0 (c + t.lat)) l.ready
           pc := lb.1, loops := lb.2 }

/-- Issues an instruction on bobbin `b`: its run must have reached neither its budget nor the emit lead. When it executes and
meets a fault, the run stops as an overrun with cause 1 (R258); a private word with a double-bit error is counted PRIV_ECC (R233,
R347). -/
def State.bobIssue (s : State) (b : Nat) (q : Pq) (t : Lane → Timing) (e : Nat → Effect) : State :=
  if ¬ s.running b then s
  else
    let l := s.lane b
    let c := l.issueAt q (t l)
    let n := l.started + c - s.raw
    if c ≥ s.bobBudget b ∨ s.ltAfter n ≥ s.leadAt * 65536 then s.bobExpire b
    else
      let s1 := s.advance n
      let l1 := l.land c
      let l2 := l1.issued c (t l)
      if ¬ l1.holds q then s1.setLane b l2
      else
        match e c s1 { l2 with pc := l.pc, loops := l.loops } with
        | .ok (s2, l3) => s2.setLane b { l3 with pc := if l3.pc = l.pc ∧ l3.loops = l.loops then l2.pc else l3.pc
                                                 loops := if l3.pc = l.pc ∧ l3.loops = l.loops then l2.loops else l3.loops }
        | .error f =>
          let s2 := if f % 16 = 2 then (s1.count (bobC 7)).dbeSeen 6 (f / 16) else s1
          (s2.setLane b l1).bobOver b 1 (f % 16) (c + 1)

/-! ## Control (R252 to R254) -/

/-- END (R254): issues when every earlier result is ready and every earlier ST has been done; its issue ends the run. -/
def State.bobEnd (s : State) (b : Nat) (q : Pq) : State :=
  if ¬ s.running b then s
  else
    let l := s.lane b
    let c := l.issueAt q ⟨[], [], 1, 1, Nat.max l.stDone (l.ready.foldl (fun a e => Nat.max a e.2) 0)⟩
    let n := l.started + c - s.raw
    if c ≥ s.bobBudget b ∨ s.ltAfter n ≥ s.leadAt * 65536 then s.bobExpire b
    else
      let s1 := s.advance n
      let l1 := l.land c
      if l1.holds q then (s1.setLane b l1).bobClean b (c + 1) else s1.setLane b (l1.issued c ⟨[], [], 1, 1, 0⟩)

def execEnd (b : Fin 16) (q : Pq) (s : State) : Host.Outcome State Fault Refusal := .next (s.bobEnd b.val q)

/-- SKIP (R253): issue continues at its own address + 1 + n. -/
def State.bobSkip (s : State) (b : Nat) (q : Pq) (n : Nat) : State :=
  s.bobIssue b q (fun _ => ⟨[], [], 1, 1, 0⟩) (fun _ t l =>
    let lb := loopBack (l.pc + 1 + n) l.loops
    .ok (t, { l with pc := lb.1, loops := lb.2 }))

def execSkip (b : Fin 16) (q : Pq) (n : BitVec 14) (s : State) : Host.Outcome State Fault Refusal := .next (s.bobSkip b.val q n.toNat)

/-- REP (R252): the next LEN words COUNT times; the operands are LEN − 1 and COUNT − 1. -/
def State.bobRep (s : State) (b : Nat) (q : Pq) (len count : Nat) : State :=
  s.bobIssue b q (fun _ => ⟨[], [], 1, 1, 0⟩) (fun _ t l =>
    .ok (t, { l with pc := l.pc + 1, loops := ⟨l.pc + 1, l.pc + 2 + len, count + 1⟩ :: l.loops }))

def execRep (b : Fin 16) (q : Pq) (len : BitVec 8) (count : BitVec 14) (s : State) : Host.Outcome State Fault Refusal :=
  .next (s.bobRep b.val q len.toNat count.toNat)

def State.bobNop (s : State) (b : Nat) (q : Pq) : State := s.bobIssue b q (fun _ => ⟨[], [], 1, 1, 0⟩) (fun _ t l => .ok (t, l))

def execNop (b : Fin 16) (q : Pq) (s : State) : Host.Outcome State Fault Refusal := .next (s.bobNop b.val q)

/-! ## Computation on registers (R248 to R250) -/

/-- An instruction that writes register `d` with a value of the old d and the operands. -/
def State.bobReg (s : State) (b : Nat) (q : Pq) (d : RegIx) (reads : List Nat) (lat : Nat) (f : Lane → W64) : State :=
  s.bobIssue b q (fun _ => ⟨reads, [d.val], lat, 1, 0⟩) (fun _ t l => .ok (t, l.setW d.val (f l)))

/-- An instruction with two register operands. -/
def State.bobR (s : State) (b : Nat) (q : Pq) (d x y : RegIx) (lat : Nat) (f : W64 → W64 → W64) : State :=
  s.bobReg b q d [x.val, y.val] lat (fun l => f (l.w x.val) (l.w y.val))

/-- An instruction with one register operand and an immediate taken into `f`. -/
def State.bobI (s : State) (b : Nat) (q : Pq) (d x : RegIx) (lat : Nat) (f : W64 → W64) : State :=
  s.bobReg b q d [x.val] lat (fun l => f (l.w x.val))

/-- The immediate of ADDI, LD, ST and SLD, sign-extended. -/
def simm (imm : BitVec 12) : W64 := imm.signExtend 64

/-! ### The functions of the integer instructions -/

def Op.sll (x y : W64) : W64 := x <<< (y.toNat % 64)
def Op.srl (x y : W64) : W64 := x >>> (y.toNat % 64)
def Op.sra (x y : W64) : W64 := x.sshiftRight (y.toNat % 64)
def Op.min (x y : W64) : W64 := if x.slt y then x else y
def Op.max (x y : W64) : W64 := if x.slt y then y else x
def Op.minu (x y : W64) : W64 := if x.ult y then x else y
def Op.maxu (x y : W64) : W64 := if x.ult y then y else x
def Op.extu (x : W64) (pos len : Nat) : W64 := BitVec.ofNat 64 (x.toNat / 2 ^ pos % 2 ^ len)
def Op.exts (x : W64) (pos len : Nat) : W64 := BitVec.ofInt 64 (signed len (x.toNat / 2 ^ pos % 2 ^ len))
def Op.ins (d x : W64) (pos len : Nat) : W64 :=
  BitVec.ofNat 64 (d.toNat / 2 ^ (pos + len) * 2 ^ (pos + len) + x.toNat % 2 ^ len * 2 ^ pos + d.toNat % 2 ^ pos)
def Op.lsh (d : W64) (imm : BitVec 16) : W64 := (d <<< 16) ||| imm.setWidth 64
def Op.mulh (x y : W64) : W64 := BitVec.ofInt 64 (x.toInt * y.toInt / 2 ^ 64)
def Op.mulhu (x y : W64) : W64 := BitVec.ofNat 64 (x.toNat * y.toNat / 2 ^ 64)
def Op.mulq (sh : Nat) (x y : W64) : W64 := BitVec.ofInt 64 (x.toInt * y.toInt / 2 ^ sh)
def Op.div (x y : W64) : W64 := if y = 0 then BitVec.allOnes 64 else BitVec.ofInt 64 (x.toInt.tdiv y.toInt)
def Op.divu (x y : W64) : W64 := if y = 0 then BitVec.allOnes 64 else BitVec.ofNat 64 (x.toNat / y.toNat)
def Op.rem (x y : W64) : W64 := if y = 0 then x else BitVec.ofInt 64 (x.toInt.tmod y.toInt)
def Op.remu (x y : W64) : W64 := if y = 0 then x else BitVec.ofNat 64 (x.toNat % y.toNat)

/-- A binary32 operation of two operands. -/
def Op.fp (f : Fp → Fp → BitVec 64) (x y : W64) : W64 := f (Fp.ofBits x) (Fp.ofBits y)

def execAdd (b : Fin 16) (q : Pq) (d x y : RegIx) (s : State) : Host.Outcome State Fault Refusal := .next (s.bobR b.val q d x y 1 (· + ·))
def execSub (b : Fin 16) (q : Pq) (d x y : RegIx) (s : State) : Host.Outcome State Fault Refusal := .next (s.bobR b.val q d x y 1 (· - ·))
def execAnd (b : Fin 16) (q : Pq) (d x y : RegIx) (s : State) : Host.Outcome State Fault Refusal := .next (s.bobR b.val q d x y 1 (· &&& ·))
def execOr (b : Fin 16) (q : Pq) (d x y : RegIx) (s : State) : Host.Outcome State Fault Refusal := .next (s.bobR b.val q d x y 1 (· ||| ·))
def execXor (b : Fin 16) (q : Pq) (d x y : RegIx) (s : State) : Host.Outcome State Fault Refusal := .next (s.bobR b.val q d x y 1 (· ^^^ ·))
def execSll (b : Fin 16) (q : Pq) (d x y : RegIx) (s : State) : Host.Outcome State Fault Refusal := .next (s.bobR b.val q d x y 1 Op.sll)
def execSrl (b : Fin 16) (q : Pq) (d x y : RegIx) (s : State) : Host.Outcome State Fault Refusal := .next (s.bobR b.val q d x y 1 Op.srl)
def execSra (b : Fin 16) (q : Pq) (d x y : RegIx) (s : State) : Host.Outcome State Fault Refusal := .next (s.bobR b.val q d x y 1 Op.sra)
def execMin (b : Fin 16) (q : Pq) (d x y : RegIx) (s : State) : Host.Outcome State Fault Refusal := .next (s.bobR b.val q d x y 1 Op.min)
def execMax (b : Fin 16) (q : Pq) (d x y : RegIx) (s : State) : Host.Outcome State Fault Refusal := .next (s.bobR b.val q d x y 1 Op.max)
def execMinu (b : Fin 16) (q : Pq) (d x y : RegIx) (s : State) : Host.Outcome State Fault Refusal := .next (s.bobR b.val q d x y 1 Op.minu)
def execMaxu (b : Fin 16) (q : Pq) (d x y : RegIx) (s : State) : Host.Outcome State Fault Refusal := .next (s.bobR b.val q d x y 1 Op.maxu)

def execAddi (b : Fin 16) (q : Pq) (d x : RegIx) (imm : BitVec 12) (s : State) : Host.Outcome State Fault Refusal :=
  .next (s.bobI b.val q d x 1 (· + simm imm))
def execAndi (b : Fin 16) (q : Pq) (d x : RegIx) (imm : BitVec 12) (s : State) : Host.Outcome State Fault Refusal :=
  .next (s.bobI b.val q d x 1 (· &&& imm.setWidth 64))
def execOri (b : Fin 16) (q : Pq) (d x : RegIx) (imm : BitVec 12) (s : State) : Host.Outcome State Fault Refusal :=
  .next (s.bobI b.val q d x 1 (· ||| imm.setWidth 64))
def execXori (b : Fin 16) (q : Pq) (d x : RegIx) (imm : BitVec 12) (s : State) : Host.Outcome State Fault Refusal :=
  .next (s.bobI b.val q d x 1 (· ^^^ imm.setWidth 64))
def execSlli (b : Fin 16) (q : Pq) (d x : RegIx) (sh : BitVec 6) (s : State) : Host.Outcome State Fault Refusal :=
  .next (s.bobI b.val q d x 1 (fun v => Op.sll v (sh.setWidth 64)))
def execSrli (b : Fin 16) (q : Pq) (d x : RegIx) (sh : BitVec 6) (s : State) : Host.Outcome State Fault Refusal :=
  .next (s.bobI b.val q d x 1 (fun v => Op.srl v (sh.setWidth 64)))
def execSrai (b : Fin 16) (q : Pq) (d x : RegIx) (sh : BitVec 6) (s : State) : Host.Outcome State Fault Refusal :=
  .next (s.bobI b.val q d x 1 (fun v => Op.sra v (sh.setWidth 64)))
def execLi (b : Fin 16) (q : Pq) (d : RegIx) (imm : BitVec 17) (s : State) : Host.Outcome State Fault Refusal :=
  .next (s.bobReg b.val q d [] 1 (fun _ => imm.signExtend 64))
def execLsh (b : Fin 16) (q : Pq) (d : RegIx) (imm : BitVec 16) (s : State) : Host.Outcome State Fault Refusal :=
  .next (s.bobReg b.val q d [d.val] 1 (fun l => Op.lsh (l.w d.val) imm))
def execExtu (b : Fin 16) (q : Pq) (d x : RegIx) (pos lenM1 : BitVec 6) (s : State) : Host.Outcome State Fault Refusal :=
  .next (s.bobI b.val q d x 1 (fun v => Op.extu v pos.toNat (lenM1.toNat + 1)))
def execExts (b : Fin 16) (q : Pq) (d x : RegIx) (pos lenM1 : BitVec 6) (s : State) : Host.Outcome State Fault Refusal :=
  .next (s.bobI b.val q d x 1 (fun v => Op.exts v pos.toNat (lenM1.toNat + 1)))
def execIns (b : Fin 16) (q : Pq) (d x : RegIx) (pos lenM1 : BitVec 6) (s : State) : Host.Outcome State Fault Refusal :=
  .next (s.bobReg b.val q d [x.val, d.val] 1 (fun l => Op.ins (l.w d.val) (l.w x.val) pos.toNat (lenM1.toNat + 1)))

def execMul (b : Fin 16) (q : Pq) (d x y : RegIx) (s : State) : Host.Outcome State Fault Refusal := .next (s.bobR b.val q d x y 3 (· * ·))
def execMulh (b : Fin 16) (q : Pq) (d x y : RegIx) (s : State) : Host.Outcome State Fault Refusal := .next (s.bobR b.val q d x y 3 Op.mulh)
def execMulhu (b : Fin 16) (q : Pq) (d x y : RegIx) (s : State) : Host.Outcome State Fault Refusal := .next (s.bobR b.val q d x y 3 Op.mulhu)
def execMulq (b : Fin 16) (q : Pq) (d x y : RegIx) (sh : BitVec 6) (s : State) : Host.Outcome State Fault Refusal :=
  .next (s.bobR b.val q d x y 3 (Op.mulq sh.toNat))
def execDiv (b : Fin 16) (q : Pq) (d x y : RegIx) (s : State) : Host.Outcome State Fault Refusal := .next (s.bobR b.val q d x y 12 Op.div)
def execDivu (b : Fin 16) (q : Pq) (d x y : RegIx) (s : State) : Host.Outcome State Fault Refusal := .next (s.bobR b.val q d x y 12 Op.divu)
def execRem (b : Fin 16) (q : Pq) (d x y : RegIx) (s : State) : Host.Outcome State Fault Refusal := .next (s.bobR b.val q d x y 12 Op.rem)
def execRemu (b : Fin 16) (q : Pq) (d x y : RegIx) (s : State) : Host.Outcome State Fault Refusal := .next (s.bobR b.val q d x y 12 Op.remu)

def execFadd (b : Fin 16) (q : Pq) (d x y : RegIx) (s : State) : Host.Outcome State Fault Refusal := .next (s.bobR b.val q d x y 4 (Op.fp Fp.add))
def execFsub (b : Fin 16) (q : Pq) (d x y : RegIx) (s : State) : Host.Outcome State Fault Refusal := .next (s.bobR b.val q d x y 4 (Op.fp Fp.sub))
def execFmul (b : Fin 16) (q : Pq) (d x y : RegIx) (s : State) : Host.Outcome State Fault Refusal := .next (s.bobR b.val q d x y 4 (Op.fp Fp.mul))
def execFdiv (b : Fin 16) (q : Pq) (d x y : RegIx) (s : State) : Host.Outcome State Fault Refusal := .next (s.bobR b.val q d x y 12 (Op.fp Fp.div))
def execFsqrt (b : Fin 16) (q : Pq) (d x : RegIx) (s : State) : Host.Outcome State Fault Refusal :=
  .next (s.bobI b.val q d x 12 (fun v => Fp.sqrt (Fp.ofBits v)))
def execFmin (b : Fin 16) (q : Pq) (d x y : RegIx) (s : State) : Host.Outcome State Fault Refusal := .next (s.bobR b.val q d x y 1 (Op.fp (Fp.minmax false)))
def execFmax (b : Fin 16) (q : Pq) (d x y : RegIx) (s : State) : Host.Outcome State Fault Refusal := .next (s.bobR b.val q d x y 1 (Op.fp (Fp.minmax true)))
def execFcvtf (b : Fin 16) (q : Pq) (d x : RegIx) (s : State) : Host.Outcome State Fault Refusal := .next (s.bobI b.val q d x 4 Fp.ofInt)
def execFcvti (b : Fin 16) (q : Pq) (d x : RegIx) (s : State) : Host.Outcome State Fault Refusal :=
  .next (s.bobI b.val q d x 4 (fun v => Fp.toInt (Fp.ofBits v)))

/-! ## Predicates -/

def Op.cond (c : Cond) (x y : W64) : Bool :=
  match c with
  | .eq => x == y
  | .ne => x != y
  | .lt => x.slt y
  | .ge => !x.slt y
  | .ltu => x.ult y
  | .geu => !x.ult y

def Op.fcond (c : FCond) (x y : Fp) : Bool :=
  match c with
  | .eq => Fp.eq x y
  | .lt => Fp.lt x y
  | .le => x != .nan && y != .nan && !Fp.lt y x
  | .un => x == .nan || y == .nan

def Op.plog (o : PlogOp) (x y : Bool) : Bool :=
  match o with
  | .and => x && y
  | .or => x || y
  | .xor => x != y
  | .andn => x && !y

/-- An instruction that writes predicate `pd`. -/
def State.bobP (s : State) (b : Nat) (q : Pq) (pd : PredIx) (reads : List Nat) (f : Lane → Bool) : State :=
  s.bobIssue b q (fun _ => ⟨reads, [pkey pd.val], 1, 1, 0⟩) (fun _ t l => .ok (t, l.setP pd.val (f l)))

def execCmp (b : Fin 16) (q : Pq) (pd : PredIx) (cond : Cond) (x y : RegIx) (s : State) : Host.Outcome State Fault Refusal :=
  .next (s.bobP b.val q pd [x.val, y.val] (fun l => Op.cond cond (l.w x.val) (l.w y.val)))
def execCmpi (b : Fin 16) (q : Pq) (pd : PredIx) (cond : Cond) (x : RegIx) (imm : BitVec 11) (s : State) : Host.Outcome State Fault Refusal :=
  .next (s.bobP b.val q pd [x.val] (fun l => Op.cond cond (l.w x.val) (imm.signExtend 64)))
def execFcmp (b : Fin 16) (q : Pq) (pd : PredIx) (cond : FCond) (x y : RegIx) (s : State) : Host.Outcome State Fault Refusal :=
  .next (s.bobP b.val q pd [x.val, y.val] (fun l => Op.fcond cond (Fp.ofBits (l.w x.val)) (Fp.ofBits (l.w y.val))))
def execPlog (b : Fin 16) (q : Pq) (pd : PredIx) (op : PlogOp) (pa pb : PredIx) (s : State) : Host.Outcome State Fault Refusal :=
  .next (s.bobP b.val q pd [pkey pa.val, pkey pb.val] (fun l => Op.plog op (l.p pa.val) (l.p pb.val)))

/-! ## Memory (R255, R256) -/

/-- The private byte address a + 8 × IMM, when it is a multiple of 8 and no greater than 65,528. -/
def privAt (a : W64) (imm : BitVec 12) : Option Nat :=
  let v := (a + 8 * simm imm).toNat
  if v % 8 = 0 ∧ v ≤ 65528 then some v else none

def State.bobLd (s : State) (b : Nat) (q : Pq) (d x : RegIx) (imm : BitVec 12) : State :=
  s.bobIssue b q (fun _ => ⟨[x.val], [d.val], 2, 1, 0⟩) (fun _ t l =>
    match privAt (l.w x.val) imm with
    | none => .error 1
    | some a =>
      match t.privSeen b a with
      | none => .error (2 + 16 * (8192 * b + a / 8))
      | some v => .ok (t.sbeAt 6 (8192 * b + a / 8), l.setW d.val v))

def execLd (b : Fin 16) (q : Pq) (d x : RegIx) (imm : BitVec 12) (s : State) : Host.Outcome State Fault Refusal :=
  .next (s.bobLd b.val q d x imm)

def State.bobSt (s : State) (b : Nat) (q : Pq) (d x : RegIx) (imm : BitVec 12) : State :=
  let s1 := s.bobIssue b q (fun _ => ⟨[x.val, d.val], [], 2, 1, 0⟩) (fun _ t l =>
    match privAt (l.w x.val) imm with
    | none => .error 1
    | some a =>
      let t1 : State := { t with cyc := { t.cyc with stores := (b, a) :: t.cyc.stores } }
      .ok ((t1.setPriv b a (l.w d.val)).mended 6 (8192 * b + a / 8), l))
  if s1.running b ∧ s.running b then s1.setLane b { s1.lane b with stDone := (s1.lane b).cyc + 1 } else s1

def execSt (b : Fin 16) (q : Pq) (d x : RegIx) (imm : BitVec 12) (s : State) : Host.Outcome State Fault Refusal :=
  .next (s.bobSt b.val q d x imm)

/-- The metadata of a signal read. -/
def sldInfo (e : SigEntry) : W64 := BitVec.ofNat 64 (e.stamp.toNat + e.count * 2 ^ 32 + e.flags * 2 ^ 48)

/-- SLD (R229, R256): the read of signal a + IMM in the view of the hoop before; its result comes 20 cycles after its issue. -/
def State.bobSld (s : State) (b : Nat) (q : Pq) (d x : RegIx) (imm : BitVec 12) : State :=
  let slice (l : Lane) : Nat := (l.w x.val + simm imm).toNat % 16
  let s1 := s.bobIssue b q
    (fun l =>
      let l1 := l.land (l.issueAt q ⟨[x.val], [d.val, d.val + 1], 20, 1, 0⟩)
      ⟨[x.val], [d.val, d.val + 1], 20, 1, sget l.slices (slice l1) 0⟩)
    (fun c t l =>
      let i := (l.w x.val + simm imm).toNat
      if i > 65535 then .error 3
      else
        let u := t.sigDrain
        let r := u.sigBefore.sigRead (u.rdw Rg.HOOP_INDEX - 1) i
        .ok (u.sigSeen i r.2, { l with sld := l.sld ++ [⟨c + 20, d.val, r.1.value, sldInfo r.1⟩] }))
  if s1.running b ∧ s.running b then
    let l := s1.lane b
    s1.setLane b { l with slices := sset l.slices (slice l) 0 (l.cyc + 19) }
  else s1

def execSld (b : Fin 16) (q : Pq) (d x : RegIx) (imm : BitVec 12) (s : State) : Host.Outcome State Fault Refusal :=
  .next (s.bobSld b.val q d x imm)

/-! ## Emission (R235, R257) -/

/-- The directory entry of a template: body address and length; none when absent. -/
def State.template (s : State) (n : Nat) : Option (Nat × Nat) :=
  let e := s.ramBe (Mm.reg8 + 4 * n) 4
  if e = 0 then none else some (Mm.reg8 + e / 2 ^ 16 * 4, e % 2 ^ 16)

def State.templateKind (s : State) (n : Nat) : Nat :=
  match s.template n with
  | none => 16
  | some a => byteAt (s.ram a.1 1) 0 % 16

/-- EMIT: an emit record from registers F to F + 7. -/
def State.bobEmit (s : State) (b : Nat) (q : Pq) (f x : RegIx) (tmp : BitVec 12) : State :=
  s.bobIssue b q (fun _ => ⟨x.val :: (List.range 8).map (fun i => f.val + i), [], 4, 4, 0⟩) (fun _ t l =>
    let n := (l.w x.val + tmp.setWidth 64).toNat
    if l.records.length ≥ t.fd (Rg.BOB_EMIT_MAX b) Fl.BOB_EMIT_MAX_RECORDS then .error 4
    else if n > 4095 ∨ t.templateKind n = 16 ∨ t.templateKind n = 3 then .error 5
    else .ok (t, { l with records := l.records ++ [⟨n, (List.range 8).map (fun i => l.w (f.val + i)), t.hoopIx⟩] }))

def execEmit (b : Fin 16) (q : Pq) (f x : RegIx) (t : BitVec 12) (s : State) : Host.Outcome State Fault Refusal :=
  .next (s.bobEmit b.val q f x t)

end Sys2Proof.Machine
end

