-- ==== Sys2Proof/Machine/Emit.lean ====
section
/-! DEFINITION. The emit unit (R235 to R242): templates, the emit build, relays, the pre-reset list, and the two instants of a
hoop that the tick engine acts at. -/

namespace Sys2Proof.Machine

/-! ## Templates (R238, R239) -/

/-- A template body: where it lies, and its fields by byte offset. -/
def State.tplByte (s : State) (a o : Nat) : Nat := byteAt (s.ram (a + o) 1) 0
def State.tplCls (s : State) (a : Nat) : Nat := s.tplByte a 2 / 32
def State.tplPort (s : State) (a : Nat) : Nat := s.tplByte a 1
def State.tplLen (s : State) (a : Nat) : Nat := s.ramBe (a + 8) 2
def State.tplFrame (s : State) (a : Nat) : Bytes := s.ram (a + 48) (s.tplLen a)

/-- Field i of a KIND 0 or 1 template written over the frame: the low WIDTH bytes of the value, in the slot's byte order. -/
def State.tplField (s : State) (a : Nat) (vals : List (BitVec 64)) (d : Bytes) (i : Nat) : Bytes :=
  let o := s.ramBe (a + 16 + 4 * i) 2
  let c := s.tplByte a (18 + 4 * i)
  let w := c / 16
  let v := (vals.getD i 0).toNat
  patch d o (if bitOf c 3 then leBytes w v else beBytes w v)

/-- The UDP checksum written into the datagram at `o` (R239): the one's complement of the one's complement sum of the pseudo
header and the UDP datagram, a zero result sent as all ones. -/
def udpSum (d : Bytes) (o : Nat) : Bytes :=
  let ver := byteAt d o / 16
  if ver ≠ 4 ∧ ver ≠ 6 then d
  else
    let u := if ver = 4 then o + 4 * (byteAt d o % 16) else o + 40
    let addrs := if ver = 4 then slice d (o + 12) 8 else slice d (o + 8) 32
    let len := be d (u + 4) 2
    let clear := patch d (u + 6) [0, 0]
    patch d (u + 6) (beBytes 2 (65535 - onesSum (addrs ++ beBytes 2 17 ++ beBytes 2 len ++ slice clear u len)))

/-- The frame bytes of a KIND 0 or 1 template with its fields applied. -/
def State.tplPlain (s : State) (a : Nat) (vals : List (BitVec 64)) : Bytes :=
  let d := (List.range (Nat.min (s.tplByte a 3) 8)).foldl (s.tplField a vals) (s.tplFrame a)
  if bitOf (s.tplByte a 2) 3 ∧ s.tplByte a 0 % 16 = 0 then udpSum d (s.ramBe (a + 10) 2) else d

/-- A signal-update entry. -/
def updEntry (index flags : Nat) (v : BitVec 64) : Bytes := beBytes 2 index ++ beBytes 2 flags ++ beBytes 8 v.toNat

/-- The Akzor header and the payload of a signal update (R241), behind the template's Ethernet header: `hoop` is the hoop of the
launch, `source` the hoop whose values the entries carry. -/
def State.tplUpdate (s : State) (a hoop source : Nat) (entries : List Bytes) : Bytes × State :=
  let n := entries.length
  let q := s.akzorNext (s.tplPort a)
  (s.tplFrame a ++ beBytes 1 (16 + 6) ++ beBytes 1 (s.tplCls a * 32 + 2) ++ beBytes 2 s.node ++ s.ram (a + 12) 2 ++ s.ram (a + 14) 1
    ++ beBytes 1 49 ++ beBytes 4 hoop ++ beBytes 2 (8 + 12 * n) ++ beBytes 2 q.1
    ++ [0x10] ++ beBytes 1 n ++ zeros 2 ++ beBytes 4 source ++ entries.flatten, q.2)

/-- The frame of an emit record, and the state after its sequence counter. `hoop` is the hoop of its launch. -/
def State.tplBuild (s : State) (a : Nat) (r : EmitRec) (hoop : Nat) : Bytes × State :=
  if s.tplByte a 0 % 16 < 2 then (s.tplPlain a r.vals, s)
  else s.tplUpdate a hoop r.hoop ((List.range (Nat.min (s.tplByte a 3) 8)).map (fun i => updEntry (s.ramBe (a + 16 + 4 * i) 2) 1 (r.vals.getD i 0)))

/-- A frame of the emit unit. -/
def State.emitFrame (s : State) (a : Nat) (d : Bytes) (launch : Option Int) (cap : Bool) (tag : Nat) : Frame :=
  { data := d, isCan := decide (s.tplByte a 0 % 16 = 1), src := 49, cls := s.tplCls a, launchV := launch.isSome,
    launch := unsigned 48 (launch.getD 0), tsCap := cap && bitOf (s.tplByte a 2) 4, tag := tag, ts := s.lt, sof := s.lt,
    tsHoop := s.hoopOf s.ltNs, tsTrust := s.trustAt s.ltNs }

/-- Offers a frame of template `n` at port 49 (R13, R238). -/
def State.emitPut (s : State) (n a : Nat) (f : Frame) (cnt : Nat) : State := s.offer f (s.tplPort a) (.emit n cnt)

/-- LT, whole ns, of the launch of a template's frames after boundary `b` (R236). -/
def State.launchAt (s : State) (b : Int) (a : Nat) : Int :=
  b + ((s.fd Rg.BOB_EMIT_OFFSET Fl.BOB_EMIT_OFFSET_OFFSET + s.ramBe (a + 4) 4 : Nat) : Int)

/-- The double-bit error that the read of a template meets: in its directory entry, or in its body (R347). -/
def State.tplBad (s : State) (n : Nat) (t : Nat × Nat) : Option Nat :=
  (s.badIn 3 (Mm.reg8 + 4 * n) 4).or (s.badIn 3 t.1 (Nat.max 1 t.2))

/-- A read of a template: single-bit errors in it are corrected and counted (R347). -/
def State.tplSbe (s : State) (n : Nat) (t : Nat × Nat) : State := (s.sbeIn 3 (Mm.reg8 + 4 * n) 4).sbeIn 3 t.1 (Nat.max 1 t.2)

/-- Builds one emit record with number `i` in its hoop. `live` is false for the pre-reset list: no LAUNCH_VALID, no TS_CAPTURE, and
the hoop in progress in place of the hoop of the launch (R240). -/
def State.emitOne (live : Bool) (s : State) (e : EmitRec × Nat) : State :=
  match s.template e.1.template with
  | none => s
  | some t =>
    match s.tplBad e.1.template t with
    | some x => s.fatalDbe 3 x
    | none =>
    let a := t.1
    let l := s.launchAt s.nextB a
    let hoop := if live then s.hoopOf l else s.hoopIx
    let r := (s.tplSbe e.1.template t).tplBuild a e.1 hoop
    r.2.emitPut e.1.template a (r.2.emitFrame a r.1 (if live then some l else none) live e.2) 8

/-! ## The emit build (R236) -/

/-- The set of bobbin `b` for the next launch; a halted bobbin emits its safe table (R233). -/
def State.setOf (s : State) (b : Nat) : List EmitRec × State :=
  if s.bobBudget b = 0 then ([], s)
  else if s.bobState b = 3 then (s.safeTable b, s.count (bcntC b 3))
  else ((s.lane b).out, s)

/-- Builds the set of bobbin `b`; `i` is the number of its first record. -/
def State.buildLane (r : Nat × State) (b : Nat) : Nat × State :=
  let q := r.2.setOf b
  let s1 := (q.2.sf (Rg.BOB_STATUS b) Fl.BOB_STATUS_RECORDS q.1.length).setLane b { q.2.lane b with out := [] }
  (r.1 + q.1.length, (q.1.zip (List.range' r.1 q.1.length)).foldl (State.emitOne true) s1)

/-- The emit build of the hoop in progress: every run still going ends, then the sets of bobbins 0 to 15 are built. -/
def State.emitBuild (s : State) : State :=
  let s1 := s.advanceTo s.leadAt
  let s2 := (List.range 16).foldl (fun t b => if t.running b then t.bobExpire b else t) s1
  let s3 : State := { s2 with clk := { s2.clk with built := true } }
  ((List.range 16).foldl State.buildLane (0, s3)).2

/-- EMIT_BUILD_START. -/
def State.emitStart (s : State) : State := if ¬ s.forwarding ∨ s.clk.built then s else s.emitBuild

/-- The pre-reset list (R240): the emit unit stops taking records and drops the sets not built. -/
def State.preReset (s : State) : State :=
  let s1 := (List.range 16).foldl (fun t b =>
    (if t.running b then t.sf (Rg.BOB_STATUS b) Fl.BOB_STATUS_STATE 1 else t).setLane b { t.lane b with out := [], records := [], sld := [] }) s
  let a := Mm.reg8 + 0x8000
  let l := s1.storedRecords a (Nat.min (s1.ramBe a 2) 64) (unsigned 32 ((s1.hoopIx : Int) - 1))
  (l.zip (List.range l.length)).foldl (State.emitOne false) { s1 with clk := { s1.clk with built := true } }

/-! ## Relays (R242) and the start of the runs (R50, R227) -/

/-- One entry of a relay, from the view of the hoop that ended. -/
def State.relayEntry (a : Nat) (r : List Bytes × State) (i : Nat) : List Bytes × State :=
  let o := a + 48 + (r.2.tplLen a + 3) / 4 * 4 + 4 * i
  let src := r.2.ramBe o 2
  let e := r.2.sigRead (r.2.rdw Rg.HOOP_INDEX - 1) src
  (r.1 ++ [updEntry (r.2.ramBe (o + 2) 2) (sigFlags (bitOf e.1.flags 0) (bitOf e.1.flags 1) false false (bitOf e.1.flags 2)) e.1.value],
    r.2.sigSeen src e.2)

/-- Builds a relay frame of template `n`. -/
def State.relayOne (s : State) (n : Nat) : State :=
  match s.template n with
  | none => s
  | some t =>
    match s.tplBad n t with
    | some x => s.fatalDbe 3 x
    | none =>
    let a := t.1
    let l := s.launchAt s.lastB a
    let q := (List.range (s.tplByte a 3)).foldl (State.relayEntry a) ([], s.tplSbe n t)
    let r := q.2.tplUpdate a (s.hoopOf l) (unsigned 32 ((s.hoopIx : Int) - 1)) q.1
    r.2.emitPut n a (r.2.emitFrame a r.1 (some l) false 0) 10

/-- The relay list. -/
def State.relays (s : State) : State :=
  let a := Mm.reg8 + 0xA000
  ((List.range (Nat.min (s.ramBe a 2) 64)).map (fun i => s.ramBe (a + 4 + 2 * i) 2 % 4096)).foldl State.relayOne s

/-- SWAP_DELAY_EXPIRY (R50, R227, R242): reads serve the view that ended, the relays are built, and every bobbin starts. -/
def State.swapDelay (s : State) : State :=
  if ¬ s.forwarding ∨ s.clk.swapped then s
  else
  let s1 := (s.advanceTo (s.lastB + ((s.fd Rg.HOOP_SWAP_DELAY Fl.HOOP_SWAP_DELAY_DELAY : Nat) : Int))).sigDrain
  (List.range 16).foldl State.bobStart { s1.relays with clk := { s1.relays.clk with swapped := true } }

end Sys2Proof.Machine
end

