-- ==== Sys2Proof/Machine/Bridge.lean ====
section
/-! DEFINITION. The couching bridge (R260 to R281): COP requests, far-side formats, dispatch, answers, collection, reports, events,
polls, and its part of resets. -/

namespace Sys2Proof.Machine

/-! ## Datagrams (R260, R261) -/

/-! COP types. -/
namespace Cop
def read : Nat := 1
def readData : Nat := 2
def retry : Nat := 3
def write : Nat := 4
def writePosted : Nat := 5
def errorReport : Nat := 6
def event : Nat := 7
def resetNotice : Nat := 8
end Cop

/-- Data bytes of a COP datagram of a type and a length. -/
def copData (type len : Nat) : Nat := if type = 2 ∨ type = 4 ∨ type = 6 ∨ type = 7 ∨ type = 8 then len else 0

/-- The tag of a COP datagram. -/
def copTag (key msg : Bytes) : Bytes := kmac256 key msg 16 (ascii "KD48-COP")

/-- The key of an initiator. -/
def State.copKey (s : State) (i : Nat) : Option Bytes × State :=
  s.workKey (s.fd (Rg.BRG_INIT i) Fl.BRG_INIT_KEY_SLOT) Master.bridge (ascii "COP" ++ beBytes 2 i)

/-- A COP datagram that the bridge sends. -/
def copBuild (key : Bytes) (type init tag addr len status : Nat) (data : Bytes) : Bytes :=
  let m := beBytes 1 (16 + type) ++ [0x80] ++ beBytes 2 init ++ beBytes 2 tag ++ beBytes 4 addr ++ beBytes 2 len ++ beBytes 2 status
    ++ zeros 2 ++ data
  m ++ copTag key m

/-- Sets the lengths and the checksums of the IP datagram at `o`, whose UDP datagram ends with the frame (R277). -/
def ipFinish (d : Bytes) (o : Nat) : Bytes :=
  let n := d.length - o
  let d1 :=
    if byteAt d o / 16 = 4 then
      let h := 4 * (byteAt d o % 16)
      let e := patch (patch (patch d (o + 2) (beBytes 2 n)) (o + 10) (zeros 2)) (o + h + 4) (beBytes 2 (n - h))
      patch e (o + 10) (beBytes 2 ((65535 - onesSum (slice e o h)) % 65535))
    else patch (patch d (o + 4) (beBytes 2 (n - 40))) (o + 44) (beBytes 2 (n - 40))
  udpSum d1 o

/-- A frame that the bridge sends in class `c`. -/
def State.brgFrame (s : State) (c : Nat) (d : Bytes) (can : Bool) (brg : Nat) : Frame :=
  { data := d, isCan := can, src := 50, cls := c, ts := s.lt, sof := s.lt, tsHoop := s.hoopOf s.ltNs,
    tsTrust := s.trustAt s.ltNs, brg := brg }

/-- Sends a datagram to the error-report address of initiator `i` (R277). One whose template holds a double-bit error is dropped (R347). -/
def State.copSend (s : State) (type i tag addr status : Nat) (data : Bytes) : State :=
  match s.template (s.fd (Rg.BRG_INIT i) Fl.BRG_INIT_ERR_TEMPLATE) with
  | none => s
  | some t =>
    match s.tplBad (s.fd (Rg.BRG_INIT i) Fl.BRG_INIT_ERR_TEMPLATE) t with
    | some x => s.fatalDbe 3 x
    | none =>
    match (s.tplSbe (s.fd (Rg.BRG_INIT i) Fl.BRG_INIT_ERR_TEMPLATE) t).copKey i with
    | (none, s1) => s1
    | (some key, s1) =>
      let d := ipFinish (s1.tplFrame t.1 ++ copBuild key type i tag addr data.length status data) (s1.ramBe (t.1 + 10) 2)
      s1.offer (s1.brgFrame (s1.tplCls t.1) d false 0) (s1.tplPort t.1) .none

/-- Sends an EVENT (R277). -/
def State.copEvent (s : State) (addr status new old : Nat) : State :=
  if ¬ s.flag Rg.BRG_EVENT Fl.BRG_EVENT_EN then s
  else
    let s1 := s.copSend Cop.event (s.fd Rg.BRG_EVENT Fl.BRG_EVENT_INIT) (s.brg.seq % 65536) addr status (beBytes 8 new ++ beBytes 8 old)
    (s1.setBrg (fun b => { b with seq := b.seq + 1 })).count (brgC 15)

/-- Carries out one item of what is still to be sent. -/
def State.brgPut (s : State) (o : BrgOut) : State :=
  if o.poll then s.sigPost (s.fd (Rg.BRG_POLL o.tag) Fl.BRG_POLL_SIG) (s.rdw Rg.HOOP_INDEX) 0 0
  else s.copSend Cop.errorReport o.init o.tag o.addr o.status o.data

/-- Carries out all that is still to be sent. -/
def State.brgFlush (s : State) : State := s.brg.out.foldl State.brgPut (s.setBrg (fun b => { b with out := [] }))

/-! ## What reaches port 50 -/

/-- A COP request as it stands in a frame: the IP datagram's and the UDP header's offset, the UDP length, the datagram. -/
structure CopReq where
  ip   : Nat
  udp  : Nat
  ulen : Nat
  body : Bytes
  deriving DecidableEq, Repr

def CopReq.type (q : CopReq) : Nat := byteAt q.body 0 % 16
def CopReq.init (q : CopReq) : Nat := be q.body 2 2
def CopReq.tag (q : CopReq) : Nat := be q.body 4 2
def CopReq.addr (q : CopReq) : Nat := be q.body 6 4
def CopReq.len (q : CopReq) : Nat := be q.body 10 2
def CopReq.d (q : CopReq) : Nat := copData q.type q.len

/-- The COP request of a frame, where it is of the form of R260. -/
def State.copOf (s : State) (f : Frame) : Option CopReq :=
  let t := tagBytes f.data 12 4
  if f.isCan ∨ t > 8 then none
  else
    match (udpAt false f.data).or (udpAt true f.data) with
    | none => none
    | some u =>
      let b := f.data.drop (u.udp + 8)
      if be f.data (u.udp + 2) 2 = s.fd Rg.BRG_CFG Fl.BRG_CFG_UDP_PORT ∧ b.length ≥ 16 ∧ byteAt b 0 / 16 = 1 ∧ byteAt b 1 = 0 ∧ be b 14 2 = 0
        then some ⟨14 + t, u.udp, be f.data (u.udp + 4) 2, b⟩ else none

/-- A far-side message: header and data (R264). -/
structure Far where
  type : Nat
  gen  : Nat
  tag  : Nat
  last : Bool
  seg  : Nat
  total : Nat
  data : Bytes
  deriving DecidableEq, Repr

def farOf (b : Bytes) : Option Far :=
  if b.length < 8 then none
  else some ⟨byteAt b 0 / 16, byteAt b 0 % 16, byteAt b 1, bitOf (byteAt b 2) 7, byteAt b 2 % 128, be b 6 2, b.drop 8⟩

/-- The far-side message of a frame: the data of a CAN message, or a COP-L2 frame to BRG_MAC (R265). -/
def State.farMsg (s : State) (f : Frame) : Option Far :=
  if f.isCan then farOf (f.data.drop 16)
  else if isT1s f.src ∧ be f.data 12 2 = s.fd Rg.BRG_L2 Fl.BRG_L2_ETYPE ∧ be f.data 0 6 = s.rd64 Rg.BRG_MAC % 2 ^ 48 then
    farOf (f.data.drop 14)
  else none

/-- What a frame at port 50 is. -/
inductive Head where
  | cop (q : CopReq)
  | far (m : Far)
  | bad
  deriving DecidableEq, Repr

def State.headOfBrg (s : State) (f : Frame) : Head :=
  if ¬ s.flag Rg.BRG_CFG Fl.BRG_CFG_ENABLE then .bad
  else
    match s.farMsg f with
    | some m => .far m
    | none => match s.copOf f with
      | some q => .cop q
      | none => .bad

/-- Drops leading frames that have no form the bridge takes, counted MALFORMED. -/
def State.brgClean (s : State) : Nat → State
  | 0 => s
  | n + 1 =>
    match s.brgQ with
    | [] => s
    | f :: q =>
      match s.headOfBrg f with
      | .bad => State.brgClean (({ s with brgQ := q } : State).count (brgC 2)) n
      | _ => s

/-! ## Requests (R267, R268, R276) -/

/-- The slot that (initiator, tag) finds. -/
def State.brgFind (s : State) (i tag : Nat) : Option Nat :=
  (s.brg.slots.find? (fun e => e.2.st != 0 && e.2.keyed && e.2.init = i && e.2.tag = tag)).map (·.1)

/-- The lowest FREE slot. -/
def State.brgFreeSlot (s : State) : Option Nat := (List.range 256).find? (fun n => (s.brgSlot n).st = 0)

/-- The route of an address: bytes 4 to 15 of its BMAP entry, which the hit sets ACTIVE (R167). -/
def State.brgRoute (s : State) (addr : Nat) : Option Bytes × State :=
  match s.search 3 (beBytes 2 (addr / 65536)) with
  | (none, s1) => (none, s1)
  | (some e, s1) => (some (e.drop 4), s1.hit 3 (beBytes 2 (addr / 65536)))

/-- The checks of R263 on a route: the status of the first that fails, 0 for none. -/
def routeCheck (r : Option Bytes) (addr len : Nat) (write : Bool) : Nat :=
  match r with
  | none => 1
  | some x => if addr % 65536 + len > 65536 ∨ len > rtMaxLen x then 2 else if write ∧ ¬ rtWrite x then 3 else 0

/-- Sends a reply to a request: the request's frame turned round, with a new datagram. -/
def State.copReply (s : State) (f : Frame) (q : CopReq) (key : Bytes) (type len status : Nat) (data : Bytes) : State :=
  let v4 := decide (byteAt f.data q.ip / 16 = 4)
  let h := f.data.take (q.udp + 8)
  let macs := patch h 0 (slice h 6 6 ++ slice h 0 6)
  let ips := if v4 then patch macs (q.ip + 12) (slice h (q.ip + 16) 4 ++ slice h (q.ip + 12) 4)
    else patch macs (q.ip + 8) (slice h (q.ip + 24) 16 ++ slice h (q.ip + 8) 16)
  let ports := patch ips q.udp (slice h (q.udp + 2) 2 ++ slice h q.udp 2)
  let d := ipFinish (ports ++ copBuild key type q.init q.tag q.addr len status data) q.ip
  s.offer (s.brgFrame (s.fd Rg.BRG_CFG Fl.BRG_CFG_REPLY_CLASS) d false 0) f.src .none

/-- A reply that carries a status: READ_DATA without data, or WRITE_POSTED. -/
def State.copStatus (s : State) (f : Frame) (q : CopReq) (key : Bytes) (status : Nat) : State :=
  if q.type = 4 then s.copReply f q key Cop.writePosted q.len status [] else s.copReply f q key Cop.readData 0 status []

/-- RETRY for slot `n` (R268). -/
def State.retryAfter (s : State) (n : Nat) : Nat :=
  let x := s.brgSlot n
  let p := rtPort x.route
  let a := (s.brg.slots.filter (fun e => (e.2.st = 1 || e.2.st = 2) && rtPort e.2.route = p && e.2.order < x.order)).length
  Nat.min 65535 ((s.fd (Rg.BRG_PORT_CFG (p - 24)) Fl.BRG_PORT_CFG_EST_M1 + 1) * (1 + a))

/-- The reply to a retry, by the state of the slot (R267). -/
def State.retryReply (s : State) (f : Frame) (q : CopReq) (key : Bytes) (n : Nat) : State :=
  let x := s.brgSlot n
  if x.write then s.copReply f q key Cop.writePosted q.len (if x.st = 5 then x.status else 0) []
  else if x.st = 3 ∨ x.st = 4 then
    let s1 := s.copReply f q key Cop.readData x.data.length x.status x.data
    if x.st = 4 then s1
    else if x.status = 0 ∧ rtSensitive x.route then s1.setBrgSlot n { x with st := 4, since := s.hoopCount }
    else s1.brgFree n
  else s.copReply f q key Cop.retry q.len (s.retryAfter n) []

/-- The discard of a READY or DELIVERED slot with a cause (R274): undelivered data of a read-sensitive region is reported. -/
def State.discard (s : State) (n cause : Nat) : State :=
  let x := s.brgSlot n
  let s1 := s.brgFree n
  if x.st = 3 ∧ x.status = 0 ∧ rtSensitive x.route then
    (((s1.count (brgC 8)).setBit Rg.BRG_INT_STATUS 1).raise 0x0B01 noPort (brgDetail x cause)).report x cause x.data
  else s1

/-- Supersession of slot `n` (R276). -/
def State.supersede (s : State) (n : Nat) : State :=
  let x := s.brgSlot n
  let s1 := s.count (brgC 6)
  if x.write then s1.setBrgSlot n { x with keyed := false }
  else if x.st = 1 then s1.brgFree n
  else if x.st = 2 then s1.setBrgSlot n { x with st := 6, keyed := false }
  else s1.discard n 11

/-- Takes a slot for a transaction (R267). -/
def State.takeSlot (s : State) (n i tag : Nat) (write : Bool) (addr len : Nat) (data route : Bytes) : State :=
  let s1 := s.setBrgSlot n ⟨1, i, tag, true, write, addr, len, data, route, 0, 0, s.brg.order, s.hoopCount, 0⟩
  s1.setBrg (fun b => { b with order := b.order + 1 })

/-- A new request, from the route check on (R267). -/
def State.copAccept (s : State) (f : Frame) (q : CopReq) (key : Bytes) : State :=
  let write := decide (q.type = 4)
  let r := s.brgRoute q.addr
  let c := routeCheck r.1 q.addr q.len write
  if c ≠ 0 then (r.2.count (brgC (if c = 1 then 3 else 4))).copStatus f q key c
  else
    match r.2.brgFreeSlot with
    | none => (r.2.count (brgC 5)).copReply f q key Cop.retry q.len 1 []
    | some n =>
      let s1 := r.2.takeSlot n q.init q.tag write q.addr q.len (if write then slice q.body 16 q.len else []) (r.1.getD [])
      if write then s1.copReply f q key Cop.writePosted q.len 0 [] else s1.copReply f q key Cop.retry q.len (s1.retryAfter n) []

/-- One request in the order of R267. -/
def State.copRequest (s : State) (f : Frame) (q : CopReq) : State :=
  let i := q.init
  if i > 63 ∨ ¬ s.flag (Rg.BRG_INIT i) Fl.BRG_INIT_VALID then s.count (brgC 2)
  else
    let fail (t : State) : State := ((t.count (brgC 1)).setBit Rg.BRG_INT_STATUS 2).raiseFirst 0x0B04 0 f.src i
    match s.copKey i with
    | (none, s1) => fail s1
    | (some key, s1) =>
      if copTag key (slice q.body 0 (16 + q.d)) ≠ slice q.body (16 + q.d) 16 then fail s1
      else if q.type ≠ 1 ∧ q.type ≠ 4 then s1.count (brgC 2)
      else
        let s2 := s1.count (brgC 0)
        if q.len > 1024 ∨ q.ulen ≠ 40 + q.d then (s2.count (brgC 4)).copStatus f q key 4
        else if q.len = 0 then s2.copStatus f q key 0
        else
          match s2.brgFind i q.tag with
          | none => s2.copAccept f q key
          | some n =>
            let s3 := s2.slotCheck n
            let x := s3.brgSlot n
            if x.write = decide (q.type = 4) ∧ x.addr = q.addr ∧ x.len = q.len then s3.retryReply f q key n
            else (s3.supersede n).copAccept f q key

/-- The bridge takes the oldest frame at its port when `mine` holds of what it is. -/
def State.brgTake (s : State) (run : State → Frame → Head → Option State) : State :=
  if ¬ s.forwarding then s
  else
    let s1 := s.brgClean s.brgQ.length
    match s1.brgQ with
    | [] => s1
    | f :: q => match run { s1 with brgQ := q } f (s1.headOfBrg f) with
      | some t => t.brgFlush
      | none => s1

/-! ## Dispatch (R264, R265, R269) -/

/-- The far-side header of segment `seg` of `last + 1` of slot `n`. -/
def State.farHead (s : State) (n : Nat) (x : BrgSlot) (seg last : Nat) : Bytes :=
  beBytes 1 ((if x.write then 3 else 1) * 16 + s.brgGen n) ++ beBytes 1 n ++ beBytes 1 ((if seg = last then 128 else 0) + seg)
    ++ beBytes 3 (x.addr % 2 ^ 20) ++ beBytes 2 x.len

/-- A far-side message on the wire of its format: a CAN header and the message, or a COP-L2 frame. `brs` is the BRS bit of an FD
header, which the manual leaves open. -/
def State.farWrap (s : State) (r m : Bytes) (brs : Bool) : Bytes :=
  match rtFmt r with
  | 0 => beBytes 1 (64 + b2n (rtIde r) * 32 + b2n brs * 8) ++ beBytes 1 (dlcOf (fdLen m.length)) ++ beBytes 4 (be r 4 4) ++ zeros 6
      ++ beBytes 2 m.length ++ zeros 2 ++ m
  | 1 =>
    let c := Rg.BRG_PORT_CFG (rtPort r - 24)
    [0x80, 0] ++ beBytes 4 (be r 8 2) ++ beBytes 1 (s.fd c Fl.BRG_PORT_CFG_SDT) ++ beBytes 1 (s.fd c Fl.BRG_PORT_CFG_VCID) ++ slice r 4 4
      ++ beBytes 2 m.length ++ zeros 2 ++ m
  | _ => slice r 4 6 ++ beBytes 6 (s.rd64 Rg.BRG_MAC) ++ beBytes 2 (s.fd Rg.BRG_L2 Fl.BRG_L2_ETYPE) ++ m

/-- Enqueues one segment of slot `n`; a slot that has failed sends no more. -/
def State.sendSeg (n last : Nat) (s : State) (seg : Nat) : State :=
  let x := s.brgSlot n
  if x.st ≠ 2 then s
  else
    let cap := rtCap x.route
    let m := s.farHead n x seg last ++ (if x.write then (x.data.drop (seg * cap)).take cap else [])
    let b := s.freeBit
    let d := b.2.farWrap x.route m b.1
    b.2.offer (b.2.brgFrame (s.fd Rg.BRG_CFG Fl.BRG_CFG_REQ_CLASS) d (decide (rtFmt x.route ≤ 1)) (1 + n + 256 * s.brgGen n))
      (rtPort x.route) .none

/-- Whether an earlier transaction to the same target still holds slot `n` back (R269). -/
def State.brgBlocked (s : State) (n : Nat) : Bool :=
  let x := s.brgSlot n
  s.brg.slots.any (fun e => (e.2.st = 1 || e.2.st = 2) && e.2.addr / 2 ^ 20 = x.addr / 2 ^ 20 && e.2.order < x.order
    && (x.write || e.2.write))

/-- BRG_DISPATCH of slot `n`. -/
def State.brgDispatch (s0 : State) (n : Nat) : State :=
  let s := if s0.forwarding then s0.slotCheck n else s0
  let x := s.brgSlot n
  if ¬ s.forwarding ∨ x.st ≠ 1 ∨ s.flag Rg.BRG_STATUS Fl.BRG_STATUS_STALL ∨ s.brgBlocked n then s
  else if isCan (rtPort x.route) ∧ s.busOff (rtPort x.route) then s.brgFail n 7 0
  else
    let s1 := (s.setBrgSlot n { x with st := 2, since := s.hoopCount, seg := 0 }).nextGen n
    let last := if x.write then cdiv x.len (rtCap x.route) - 1 else 0
    (List.range (last + 1)).foldl (State.sendSeg n last) s1

/-! ## Answers (R271, R273, R275) -/

/-- Whether a frame comes from the far side of a route (R271). -/
def farFrom (f : Frame) (r : Bytes) : Bool :=
  let d := f.data
  f.src = rtPort r && (match rtFmt r with
    | 0 => f.isCan && byteAt d 0 / 64 = 1 && bitOf (byteAt d 0) 5 = rtIde r && be d 2 4 = be r 8 4
    | 1 => f.isCan && byteAt d 0 / 64 = 2 && be d 2 4 = be r 10 2 && slice d 8 4 = slice r 4 4
    | _ => !f.isCan && slice d 6 6 = slice r 4 6)

/-- Whether an answer is accepted (R271). -/
def State.farMatch (s : State) (f : Frame) (m : Far) : Bool :=
  let x := s.brgSlot m.tag
  (x.st = 2 || x.st = 6) && s.brgGen m.tag = m.gen && farFrom f x.route

/-- An answer that is not accepted. -/
def State.farLate (s : State) (f : Frame) (m : Far) : State := (s.count (brgC 10)).raiseFirst 0x0B03 0 f.src (m.tag + 256 * m.gen)

/-- An OK answer completes slot `n`: a poll writes its signal and is freed (R279), an orphan is freed, a READ is READY. -/
def State.readDone (s : State) (n : Nat) (f : Frame) : State :=
  let x := s.brgSlot n
  if x.st = 6 then s.brgFree n
  else if x.init = 64 then
    let v := ofBe x.data
    let s1 := (s.brgFree n).sigPost (s.fd (Rg.BRG_POLL x.tag) Fl.BRG_POLL_SIG) (BitVec.ofNat 32 f.tsHoop) (BitVec.ofNat 64 v) 1
    let old := sget s.brg.polled x.tag 0
    let s2 := s1.setBrg (fun b => { b with polled := sset b.polled x.tag 0 (v + 1) })
    if old = 0 ∨ old = v + 1 then s2 else s2.copEvent x.addr (0x8000 + x.tag) v (old - 1)
  else s.setBrgSlot n { x with st := 3, status := 0, since := s.hoopCount }

/-- One READ_RSP segment that is accepted. -/
def State.readSeg (s : State) (f : Frame) (m : Far) : State :=
  let n := m.tag
  let x := s.brgSlot n
  let cap := rtCap x.route
  let need := if m.last then x.len - m.seg * cap else cap
  if x.write ∨ m.type ≠ 2 ∨ m.seg ≠ x.seg ∨ m.total ≠ x.len ∨ m.last ≠ decide (m.seg + 1 = cdiv x.len cap) ∨ m.data.length < need then
    s.brgFail n 10 0
  else
    let s1 := s.setBrgSlot n { x with data := x.data ++ m.data.take need, seg := x.seg + 1 }
    if m.last then s1.readDone n f else s1

/-- WRITE_ACK that is accepted. -/
def State.writeAck (s : State) (m : Far) : State :=
  let x := s.brgSlot m.tag
  if ¬ x.write ∨ m.seg ≠ 0 ∨ ¬ m.last ∨ m.total ≠ x.len then s.brgFail m.tag 10 0
  else s.setBrgSlot m.tag { x with st := 5, status := 0, since := s.hoopCount }

/-- NEG_RSP that is accepted. -/
def State.negRsp (s : State) (m : Far) : State :=
  if m.seg ≠ 0 ∨ ¬ m.last then s.brgFail m.tag 10 0 else (s.count (brgC 12)).brgFail m.tag 5 m.total

/-- The bridge takes an answer whose type `is` names. -/
def State.farTake (s : State) (is : Nat → Bool) (run : State → Frame → Far → State) : State :=
  s.brgTake (fun t f h => match h with
    | .far m =>
      if is m.type then
        let u := t.slotCheck m.tag
        some (if u.farMatch f m then run u f m else u.farLate f m)
      else none
    | _ => none)

/-! ## Timeouts (R270, R273) -/

/-- BRG_TRANSACTION_TIMEOUT: slot `n` is ACTIVE, or an orphan, at the T-th boundary after its dispatch. -/
def State.brgTimeout (s : State) (n : Nat) : State :=
  let x := s.brgSlot n
  if ¬ s.forwarding ∨ ¬ (x.st = 2 ∨ x.st = 6) ∨ s.hoopCount < x.since + rtTimeout x.route then s
  else (s.count (brgC 11)).brgFail n 6 0

/-- BRG_COLLECT_EXPIRY: the collection timer of slot `n` has run out. -/
def State.brgExpire (s : State) (n : Nat) : State :=
  let x := s.brgSlot n
  if ¬ s.forwarding ∨ ¬ (x.st = 3 ∨ x.st = 4 ∨ x.st = 5) ∨ s.hoopCount < x.since + s.fd Rg.BRG_COLLECT Fl.BRG_COLLECT_TIMEOUT then s
  else if x.st = 3 then (s.count (brgC 7)).discard n 12
  else s.brgFree n

/-! ### The start stall (R270) -/

/-- The routes of the valid BMAP entries. -/
def State.brgRoutes (s : State) : List Bytes :=
  let a := s.bktAt 3 (s.tblActive 3) 0
  ((s.sram.filter (fun c => a ≤ c.1 && c.1 < a + s.tblSize 3 * bktBytes 3 && (c.1 - a) % 16 = 0 && bitOf c.2.toNat 7)).map
    (fun c => s.ram (c.1 + 4) 12))

/-- The start stall begins: as many boundaries as the longest timeout among the valid routes. -/
def State.brgStart (s : State) : State :=
  let n := (s.brgRoutes.map rtTimeout).foldl Nat.max 0
  (s.setBrg (fun _ => { brgInit with stall := n })).sf Rg.BRG_STATUS Fl.BRG_STATUS_STALL (b2n (n != 0))

/-- BRG_START_STALL_END: those boundaries have passed. -/
def State.stallEnd (s : State) : State :=
  if s.flag Rg.BRG_STATUS Fl.BRG_STATUS_STALL ∧ s.brg.stall = 0 then s.sf Rg.BRG_STATUS Fl.BRG_STATUS_STALL 0 else s

def execBrgStartStallEnd (s : State) : Host.Outcome State Fault Refusal := .next s.stallEnd

/-! ## The boundary (R278 to R280) -/

/-- The GPIO sample of boundary B: a capture, and an EVENT on a change (R278). -/
def State.brgGpio (s : State) (v : Nat) : State :=
  if ¬ s.flag Rg.BRG_SB Fl.BRG_SB_GPIO_EN then s
  else
    let s1 := s.sigPost (s.fd Rg.BRG_SB Fl.BRG_SB_GPIO_SIG) (s.rdw Rg.HOOP_INDEX) (BitVec.ofNat 64 v) 1
    let s2 := s1.setBrg (fun b => { b with gpio := some v })
    match s.brg.gpio with
    | none => s2
    | some old => if old = v ∨ ¬ s.flag Rg.BRG_SB Fl.BRG_SB_GPIO_EVENT then s2 else s2.copEvent 0 0 v old

/-- Queues the READ of poll entry `n` (R279); one whose route is absent, too short or read-sensitive fails at once. -/
def State.pollOne (s : State) (n : Nat) : State :=
  let c := Rg.BRG_POLL n
  let addr := s.fd c Fl.BRG_POLL_ADDR
  let len := s.fd c Fl.BRG_POLL_LEN_M1 + 1
  if (s.brgFind 64 n).isSome then s
  else
    let r := s.brgRoute addr
    if routeCheck r.1 addr len false ≠ 0 ∨ r.1.any rtSensitive then
      (r.2.count (brgC 13)).sigPost (s.fd c Fl.BRG_POLL_SIG) (s.rdw Rg.HOOP_INDEX) 0 0
    else
      match r.2.brgFreeSlot with
      | none => r.2.count (brgC 14)
      | some k => r.2.takeSlot k 64 n false addr len [] (r.1.getD [])

/-- Goes on with the poll pass from its next entry within HOOP_BUDGET[5], at one cycle an entry. -/
def State.pollRun (s : State) : Nat → State
  | 0 => s
  | fuel + 1 =>
    match s.brg.pollAt with
    | none => s
    | some n =>
      if n > s.fd Rg.BRG_POLL_CFG Fl.BRG_POLL_CFG_LEN_M1 then s.setBrg (fun b => { b with pollAt := none })
      else if s.mayWork 5 1 then State.pollRun (((s.spend 5 1).pollOne n).setBrg (fun b => { b with pollAt := some (n + 1) })) fuel
      else s.carry 5

/-- The boundary's poll pass: begun at a multiple of the period, or carried over. -/
def State.pollBoundary (s : State) : State :=
  if ¬ s.flag Rg.BRG_POLL_CFG Fl.BRG_POLL_CFG_EN then s
  else
    let due := s.hoopCount % (s.fd Rg.BRG_POLL_CFG Fl.BRG_POLL_CFG_HOOPS_M1 + 1) = 0
    let s1 := if due ∧ s.brg.pollAt = none then s.setBrg (fun b => { b with pollAt := some 0 }) else s
    s1.pollRun 66

/-- The RESET_NOTICEs of R280. -/
def State.notices (s : State) : State :=
  match s.brg.notice with
  | none => s
  | some (st, hoop) =>
    ((List.range 64).filter (fun i => s.flag (Rg.BRG_INIT i) Fl.BRG_INIT_VALID)).foldl
      (fun t i => t.copSend Cop.resetNotice i 0 0 st (beBytes 4 hoop)) (s.setBrg (fun b => { b with notice := none }))

/-- The bridge's part of a boundary at which forwarding runs. -/
def State.brgBoundary (s : State) (gpio : Nat) : State :=
  ((((s.setBrg (fun b => { b with stall := b.stall - 1 })).brgFlush.notices).brgGpio gpio).pollBoundary).brgFlush

/-! ## Resets and DOZE (R280) -/

/-- What the bridge does with slot `n` at a warm reset or at DOZE entry. -/
def State.abortSlot (s : State) (n : Nat) : State :=
  let x := s.brgSlot n
  if x.write ∧ (x.st = 1 ∨ x.st = 2) then (s.report x 13 []).brgFree n
  else s.discard n 13

/-- The pre-reset part of the bridge: reports, then every slot FREE; polls and answers stop. -/
def State.brgAbort (s : State) : State :=
  let s1 := (s.brg.slots.map (·.1)).foldl State.abortSlot s
  ({ s1.setBrg (fun b => { b with pollAt := none }) with brgQ := [] } : State).brgFlush

end Sys2Proof.Machine
end

