-- ==== Sys2Proof/Machine/BobWord.lean ====
section
/-! DEFINITION. Program words of the bobbins: their encoding (R247, R248 and the instruction tables), and the structure a
program must have (R245, R252 to R254). -/

namespace Sys2Proof.Machine

/-! ## Fields -/

/-- A register and a predicate of a word, by the place of its low bit. -/
def wreg (w lo : Nat) : RegIx := Fin.ofNat 32 (bits w lo 5)
def wpred (w lo : Nat) : PredIx := Fin.ofNat 8 (bits w lo 3)

/-- The condition of a word: PRED and NEG. -/
def wpq (w : Nat) : Pq := ⟨wpred w 29, bitOf w 28⟩

/-- The opcode of a word. -/
def wop (w : Nat) : Nat := bits w 22 6

/-- COND of CMP and CMPI, COND of FCMP, OP of PLOG; none for a reserved code. -/
def condOf : Nat → Option Cond
  | 0 => some .eq | 1 => some .ne | 2 => some .lt | 3 => some .ge | 4 => some .ltu | 5 => some .geu | _ => none

def fcondOf : Nat → Option FCond
  | 0 => some .eq | 1 => some .lt | 2 => some .le | 3 => some .un | _ => none

def plogOf : Nat → Option PlogOp
  | 0 => some .and | 1 => some .or | 2 => some .xor | 3 => some .andn | _ => none

/-- The value when a condition holds. -/
def whenOk {α : Type} (c : Bool) (v : α) : Option α := if c then some v else none

/-! ## Formats -/

/-- Format R: D, A and B; bit 6 and SH are zero. -/
def fmtR (w : Nat) (k : RegIx → RegIx → RegIx → Instr) : Option Instr := whenOk (bits w 0 7 = 0) (k (wreg w 17) (wreg w 12) (wreg w 7))

/-- Format R of one operand: B zero too. -/
def fmtR1 (w : Nat) (k : RegIx → RegIx → Instr) : Option Instr := whenOk (bits w 0 12 = 0) (k (wreg w 17) (wreg w 12))

/-- Format I: D, A and IMM. -/
def fmtI (w : Nat) (k : RegIx → RegIx → BitVec 12 → Instr) : Option Instr := some (k (wreg w 17) (wreg w 12) (BitVec.ofNat 12 w))

/-- Format I of a shift: IMM[11:6] zero. -/
def fmtSh (w : Nat) (k : RegIx → RegIx → BitVec 6 → Instr) : Option Instr :=
  whenOk (bits w 6 6 = 0) (k (wreg w 17) (wreg w 12) (BitVec.ofNat 6 w))

/-- Format I of a bit field: POS in IMM[11:6], LEN − 1 in IMM[5:0], POS + LEN at most 64. -/
def fmtF (w : Nat) (k : RegIx → RegIx → BitVec 6 → BitVec 6 → Instr) : Option Instr :=
  whenOk (bits w 6 6 + bits w 0 6 < 64) (k (wreg w 17) (wreg w 12) (BitVec.ofNat 6 (w / 64)) (BitVec.ofNat 6 w))

/-- A word of format P whose COND is one of the table's and whose PD is not 0. -/
def fmtP {α : Type} (w : Nat) (c : Option α) (k : PredIx → α → RegIx → Instr) : Option Instr :=
  if bits w 19 3 = 0 then none else c.map (fun x => k (wpred w 19) x (wreg w 11))

/-! ## The instruction of a word (R247 to R257) -/

/-- The instruction a program word encodes, for bobbin `b`; none where the opcode is undefined, a reserved bit is set, or an operand
breaks a rule of the chapter. -/
def bobWord (b : Fin 16) (w : Nat) : Option Instr :=
  let q := wpq w
  if bits w 28 4 = 1 then none
  else
    match wop w with
    | 0x00 => whenOk (bits w 0 22 = 0) (.bEnd b q)
    | 0x01 => whenOk (bits w 14 8 = 0 && bits w 0 14 != 0) (.bSkip b q (BitVec.ofNat 14 w))
    | 0x02 => whenOk (bits w 28 4 = 0) (.bRep b q (BitVec.ofNat 8 (w / 2 ^ 14)) (BitVec.ofNat 14 w))
    | 0x03 => whenOk (bits w 0 22 = 0) (.bNop b q)
    | 0x04 => fmtR w (.bAdd b q)
    | 0x05 => fmtR w (.bSub b q)
    | 0x06 => fmtR w (.bAnd b q)
    | 0x07 => fmtR w (.bOr b q)
    | 0x08 => fmtR w (.bXor b q)
    | 0x09 => fmtR w (.bSll b q)
    | 0x0A => fmtR w (.bSrl b q)
    | 0x0B => fmtR w (.bSra b q)
    | 0x0C => fmtR w (.bMin b q)
    | 0x0D => fmtR w (.bMax b q)
    | 0x0E => fmtR w (.bMinu b q)
    | 0x0F => fmtR w (.bMaxu b q)
    | 0x10 => fmtI w (.bAddi b q)
    | 0x11 => fmtI w (.bAndi b q)
    | 0x12 => fmtI w (.bOri b q)
    | 0x13 => fmtI w (.bXori b q)
    | 0x14 => fmtSh w (.bSlli b q)
    | 0x15 => fmtSh w (.bSrli b q)
    | 0x16 => fmtSh w (.bSrai b q)
    | 0x17 => some (.bLi b q (wreg w 17) (BitVec.ofNat 17 w))
    | 0x18 => whenOk (!bitOf w 16) (.bLsh b q (wreg w 17) (BitVec.ofNat 16 w))
    | 0x19 => fmtF w (.bExtu b q)
    | 0x1A => fmtF w (.bExts b q)
    | 0x1B => fmtF w (.bIns b q)
    | 0x1C => fmtR w (.bMul b q)
    | 0x1D => fmtR w (.bMulh b q)
    | 0x1E => fmtR w (.bMulhu b q)
    | 0x1F => whenOk (!bitOf w 6) (.bMulq b q (wreg w 17) (wreg w 12) (wreg w 7) (BitVec.ofNat 6 w))
    | 0x20 => fmtR w (.bDiv b q)
    | 0x21 => fmtR w (.bDivu b q)
    | 0x22 => fmtR w (.bRem b q)
    | 0x23 => fmtR w (.bRemu b q)
    | 0x24 => fmtR w (.bFadd b q)
    | 0x25 => fmtR w (.bFsub b q)
    | 0x26 => fmtR w (.bFmul b q)
    | 0x27 => fmtR w (.bFdiv b q)
    | 0x28 => fmtR1 w (.bFsqrt b q)
    | 0x29 => fmtR w (.bFmin b q)
    | 0x2A => fmtR w (.bFmax b q)
    | 0x2B => fmtR1 w (.bFcvtf b q)
    | 0x2C => fmtR1 w (.bFcvti b q)
    | 0x30 => if bits w 0 6 = 0 then fmtP w (condOf (bits w 16 3)) (fun pd c x => .bCmp b q pd c x (wreg w 6)) else none
    | 0x31 => fmtP w (condOf (bits w 16 3)) (fun pd c x => .bCmpi b q pd c x (BitVec.ofNat 11 w))
    | 0x32 => if bits w 0 6 = 0 then fmtP w (fcondOf (bits w 16 3)) (fun pd c x => .bFcmp b q pd c x (wreg w 6)) else none
    | 0x33 =>
      if bits w 0 10 = 0 then fmtP w (plogOf (bits w 16 3)) (fun pd o _ => .bPlog b q pd o (wpred w 13) (wpred w 10)) else none
    | 0x34 => fmtI w (.bLd b q)
    | 0x35 => fmtI w (.bSt b q)
    | 0x36 => if bits w 17 5 % 2 = 0 ∧ bits w 17 5 ≠ 0 then fmtI w (.bSld b q) else none
    | 0x37 => whenOk (bits w 17 5 = 8 || bits w 17 5 = 16 || bits w 17 5 = 24) (.bEmit b q (wreg w 17) (wreg w 12) (BitVec.ofNat 12 w))
    | _ => none

/-! ## The word of an instruction -/

/-- Codes of the conditions and of the predicate operations. -/
def condCode : Cond → Nat
  | .eq => 0 | .ne => 1 | .lt => 2 | .ge => 3 | .ltu => 4 | .geu => 5

def fcondCode : FCond → Nat
  | .eq => 0 | .lt => 1 | .le => 2 | .un => 3

def plogCode : PlogOp → Nat
  | .and => 0 | .or => 1 | .xor => 2 | .andn => 3

/-- PRED, NEG and the opcode; then formats R, I and P. -/
def encOp (q : Pq) (op : Nat) : Nat := q.pred.val * 2 ^ 29 + (if q.neg then 2 ^ 28 else 0) + op * 2 ^ 22
def encR (q : Pq) (op : Nat) (d x y : RegIx) : Nat := encOp q op + d.val * 2 ^ 17 + x.val * 2 ^ 12 + y.val * 2 ^ 7
def encI (q : Pq) (op : Nat) (d x : RegIx) (imm : Nat) : Nat := encOp q op + d.val * 2 ^ 17 + x.val * 2 ^ 12 + imm
def encP (q : Pq) (op : Nat) (pd : PredIx) (c : Nat) (x : RegIx) : Nat := encOp q op + pd.val * 2 ^ 19 + c * 2 ^ 16 + x.val * 2 ^ 11

/-- The bobbin of an instruction and its program word, from the formats of R247 and the instruction tables; none for a command that is no
bobbin instruction. -/
def bobEnc (i : Instr) : Option (Fin 16 × Nat) :=
  match i with
  | .bEnd b q => some (b, encOp q 0x00)
  | .bSkip b q n => some (b, encOp q 0x01 + n.toNat)
  | .bRep b q len count => some (b, encOp q 0x02 + len.toNat * 2 ^ 14 + count.toNat)
  | .bNop b q => some (b, encOp q 0x03)
  | .bAdd b q d x y => some (b, encR q 0x04 d x y)
  | .bSub b q d x y => some (b, encR q 0x05 d x y)
  | .bAnd b q d x y => some (b, encR q 0x06 d x y)
  | .bOr b q d x y => some (b, encR q 0x07 d x y)
  | .bXor b q d x y => some (b, encR q 0x08 d x y)
  | .bSll b q d x y => some (b, encR q 0x09 d x y)
  | .bSrl b q d x y => some (b, encR q 0x0A d x y)
  | .bSra b q d x y => some (b, encR q 0x0B d x y)
  | .bMin b q d x y => some (b, encR q 0x0C d x y)
  | .bMax b q d x y => some (b, encR q 0x0D d x y)
  | .bMinu b q d x y => some (b, encR q 0x0E d x y)
  | .bMaxu b q d x y => some (b, encR q 0x0F d x y)
  | .bAddi b q d x imm => some (b, encI q 0x10 d x imm.toNat)
  | .bAndi b q d x imm => some (b, encI q 0x11 d x imm.toNat)
  | .bOri b q d x imm => some (b, encI q 0x12 d x imm.toNat)
  | .bXori b q d x imm => some (b, encI q 0x13 d x imm.toNat)
  | .bSlli b q d x sh => some (b, encI q 0x14 d x sh.toNat)
  | .bSrli b q d x sh => some (b, encI q 0x15 d x sh.toNat)
  | .bSrai b q d x sh => some (b, encI q 0x16 d x sh.toNat)
  | .bLi b q d imm => some (b, encOp q 0x17 + d.val * 2 ^ 17 + imm.toNat)
  | .bLsh b q d imm => some (b, encOp q 0x18 + d.val * 2 ^ 17 + imm.toNat)
  | .bExtu b q d x pos lenM1 => some (b, encI q 0x19 d x (pos.toNat * 2 ^ 6 + lenM1.toNat))
  | .bExts b q d x pos lenM1 => some (b, encI q 0x1A d x (pos.toNat * 2 ^ 6 + lenM1.toNat))
  | .bIns b q d x pos lenM1 => some (b, encI q 0x1B d x (pos.toNat * 2 ^ 6 + lenM1.toNat))
  | .bMul b q d x y => some (b, encR q 0x1C d x y)
  | .bMulh b q d x y => some (b, encR q 0x1D d x y)
  | .bMulhu b q d x y => some (b, encR q 0x1E d x y)
  | .bMulq b q d x y sh => some (b, encR q 0x1F d x y + sh.toNat)
  | .bDiv b q d x y => some (b, encR q 0x20 d x y)
  | .bDivu b q d x y => some (b, encR q 0x21 d x y)
  | .bRem b q d x y => some (b, encR q 0x22 d x y)
  | .bRemu b q d x y => some (b, encR q 0x23 d x y)
  | .bFadd b q d x y => some (b, encR q 0x24 d x y)
  | .bFsub b q d x y => some (b, encR q 0x25 d x y)
  | .bFmul b q d x y => some (b, encR q 0x26 d x y)
  | .bFdiv b q d x y => some (b, encR q 0x27 d x y)
  | .bFsqrt b q d x => some (b, encR q 0x28 d x 0)
  | .bFmin b q d x y => some (b, encR q 0x29 d x y)
  | .bFmax b q d x y => some (b, encR q 0x2A d x y)
  | .bFcvtf b q d x => some (b, encR q 0x2B d x 0)
  | .bFcvti b q d x => some (b, encR q 0x2C d x 0)
  | .bCmp b q pd c x y => some (b, encP q 0x30 pd (condCode c) x + y.val * 2 ^ 6)
  | .bCmpi b q pd c x imm => some (b, encP q 0x31 pd (condCode c) x + imm.toNat)
  | .bFcmp b q pd c x y => some (b, encP q 0x32 pd (fcondCode c) x + y.val * 2 ^ 6)
  | .bPlog b q pd o pa pb => some (b, encP q 0x33 pd (plogCode o) 0 + pa.val * 2 ^ 13 + pb.val * 2 ^ 10)
  | .bLd b q d x imm => some (b, encI q 0x34 d x imm.toNat)
  | .bSt b q d x imm => some (b, encI q 0x35 d x imm.toNat)
  | .bSld b q d x imm => some (b, encI q 0x36 d x imm.toNat)
  | .bEmit b q f x t => some (b, encI q 0x37 f x t.toNat)
  | _ => none

/-! ## Programs (R245, R252 to R254) -/

/-- A REP body: its first word and the word after it. -/
structure Body where
  first : Nat
  stop  : Nat
  deriving DecidableEq, Repr

/-- What is known of a program on the way to its terminating END: the bodies the word at hand lies in, innermost first; every body so
far; and the targets of the SKIPs, each with the innermost body of its SKIP. -/
structure Prog where
  inside : List Body
  bodies : List Body
  skips  : List (Nat × Option Body)
  deriving DecidableEq, Repr

/-- The innermost body a word lies in: of the bodies that hold it, the one that begins last. -/
def Prog.bodyOf (g : Prog) (t : Nat) : Option Body :=
  (g.bodies.filter (fun b => b.first ≤ t && t < b.stop)).foldl (fun a b =>
    match a with
    | none => some b
    | some c => if c.first < b.first then some b else a) none

/-- Whether the targets of a program whose terminating END is word `n` keep R253. -/
def Prog.skipsOk (g : Prog) (n : Nat) : Bool :=
  g.skips.all (fun k => targetOk g n k.1 k.2)
where
  targetOk (g : Prog) (n t : Nat) : Option Body → Bool
    | none => decide (t ≤ n) && decide (g.bodyOf t = none)
    | some b => decide (t = b.stop) || decide (g.bodyOf t = some b)

/-- Whether a program keeps R245 and R252 to R254, from word `a` on; `w` gives its words. -/
def progOk (w : Nat → Nat) : Nat → Nat → Prog → Bool
  | 0, _, _ => false
  | fuel + 1, a, g0 =>
    let g : Prog := { g0 with inside := g0.inside.filter (fun b => a < b.stop) }
    match bobWord 0 (w a) with
    | none => false
    | some (.bEnd _ q) =>
      if g.inside ≠ [] then false else if q.pred = 0 then g.skipsOk a else progOk w fuel (a + 1) g
    | some (.bRep _ _ len _) =>
      let b : Body := ⟨a + 1, a + 2 + len.toNat⟩
      if g.inside.length ≥ 2 ∨ g.inside.any (fun o => o.stop < b.stop) then false
      else progOk w fuel (a + 1) { g with inside := b :: g.inside, bodies := b :: g.bodies }
    | some (.bSkip _ _ n) => progOk w fuel (a + 1) { g with skips := (a + 1 + n.toNat, g.inside.head?) :: g.skips }
    | some _ => progOk w fuel (a + 1) g

end Sys2Proof.Machine
end

