-- ==== Sys2Proof/Machine/Seal.lean ====
section
/-! DEFINITION. The seal unit (R305 to R329): records, the chain, seals, the store, export acknowledgements, and the rebuild at a
start. -/

namespace Sys2Proof.Machine

/-! ## Names for the unit's registers -/

def State.nextSeq (s : State) : Nat := s.rd64 Rg.SEAL_NEXT_SEQ
def State.lastSealed (s : State) : Nat := s.rd64 Rg.SEAL_LAST_SEALED
def State.appendPage (s : State) : Nat := s.rd Rg.SEAL_APPEND
def State.appendSlot (s : State) : Nat := s.fd Rg.SEAL_APPEND_SLOT Fl.SEAL_APPEND_SLOT_SLOT
def State.ackPage (s : State) : Nat := s.rd Rg.SEAL_ACK_PAGE
def State.metroDigest (s : State) : Bytes := s.rdBytes (Rg.IMG_DIGEST 2) 16
def State.chainHead (s : State) : Bytes := s.rdBytes Rg.SEAL_HEAD 16
def State.deviceId (s : State) : Bytes := s.rdBytes Rg.IMG_UID 4

/-- Changes the part of the seal unit that no register shows. -/
def State.setChain (s : State) (f : Chain → Chain) : State := { s with chain := f s.chain }

/-- Pages of the store (R321). -/
def State.storePages (s : State) : Nat := 8192 * 2 ^ s.fd Rg.SEAL_STORE_CFG Fl.SEAL_STORE_CFG_SIZE

/-- The flash address of page number `n`, and its erase block. -/
def State.pageAt (s : State) (n : Nat) : Nat := n % s.storePages * 4096
def State.blockOf (s : State) (n : Nat) : Nat := n % s.storePages / 16

/-! ## Records (R307 to R313) -/

/-- The bytes a template field takes, and whether it fell short (R307, R308). -/
def evField (f : Frame) (anchor len off : Nat) : Bytes × Bool :=
  let src := if anchor = 2 then slice f.pv 0 72 else f.data
  let o := if anchor = 1 then f.hdrEnd + off else off
  (slice src o len, decide (o + len > src.length))

/-- The payload of a template. -/
def State.evPayload (s : State) (f : Frame) (t : Nat) : Bytes × Bool :=
  let a := Mm.evt + 256 * t
  (List.range (Nat.min (s.ramBe (a + 2) 1) 16)).foldl (fun r i =>
    let e := s.ram (a + 8 + 4 * i) 4
    let v := evField f (byteAt e 0 % 4) (byteAt e 1) (be e 2 2)
    (r.1 ++ v.1, r.2 || v.2)) ([], false)

/-- A record (R309). -/
def record (type node seq : Nat) (ns : Int) (flags port cls tpl : Nat) (payload : Bytes) : Bytes :=
  beBytes 1 type ++ [1] ++ beBytes 2 node ++ beBytes 6 seq ++ ieeeTime ns ++ beBytes 1 flags ++ beBytes 1 port ++ beBytes 1 cls ++ beBytes 1 tpl
    ++ beBytes 2 payload.length ++ zeros 6 ++ slice payload 0 96

/-- H_0 (R312). -/
def State.chainZero (s : State) : Bytes := shake512 (ascii "KARID-CHAIN" ++ beBytes 2 s.node ++ shake512 (s.keySlot 0).act.pub)

/-- Shows the level of the record buffer. -/
def State.showBuf (s : State) : State := s.wr Rg.SEAL_BUF_LEVEL s.bufUsed

/-- LEGAL_HALT is asserted when the buffer has fewer than 3 free slots (R324). -/
def State.bufFull (s : State) : State := if s.bufUsed + 3 > 16384 ∧ ¬ s.haltCause 3 then s.haltOn 3 else s

/-- Slot `n` of the record buffer and its chain value have been written with valid check bits. -/
def State.slotMended (s : State) (n : Nat) : State := (s.mended 7 n).mended 7 (16384 + n)

/-- Puts an item into the record buffer. -/
def State.bufAdd (s0 : State) (i : ChainItem) : State :=
  let w := s0.chain.wr
  let s := if i.isSeal then (s0.slotMended w).slotMended ((w + 1) % 16384) else s0.slotMended w
  (s.setChain (fun c => { c with buf := c.buf ++ [{ i with slot := w }], wr := (w + (if i.isSeal then 2 else 1)) % 16384 })).showBuf.bufFull

/-! ## The seal key (R290, R319) -/

/-- The slot of the seal key. -/
def State.sealSlot (s : State) : Nat := s.fd Rg.SEAL_CFG Fl.SEAL_CFG_KEY_SLOT

/-- Whether the use of the seal key is allowed (R319). -/
def State.sealKeyOk (s : State) : Bool := s.useCause s.sealSlot Master.sealUnit KeyOp.sign [3] = 0

/-- Cause 4 follows the key check (R319, R325), on a part that runs with metrology. -/
def State.sealKeyCheck (s : State) : State :=
  if ¬ s.flag Rg.IMG_STATUS Fl.IMG_STATUS_METRO_VALID then s
  else if s.sealKeyOk then s.haltOff 4
  else if s.haltCause 4 then s else s.haltOn 4

/-- A use of the seal key: cause 4 follows the check, and a refusal is counted and reported. -/
def State.sealKeyUse (s : State) : State :=
  let s1 := (s.slotRead s.sealSlot).sealKeyCheck
  if s1.sealKeyOk then s1 else (s1.useSlot s1.sealSlot Master.sealUnit KeyOp.sign [3]).2

/-! ## Seals (R315 to R318, R320) -/

/-- The 128 bytes of a seal before its signature. -/
def State.sealBytes (s : State) (first last flags : Nat) (head : Bytes) : Bytes :=
  [2, 1] ++ beBytes 2 s.node ++ beBytes 6 first ++ beBytes 6 last ++ beBytes 4 (last - first + 1) ++ ieeeTime s.ltNs
    ++ beBytes 1 (s.trust + flags + (if s.chain.lostSeqs.any (fun q => first ≤ q && q ≤ last) then 16 else 0)) ++ [0]
    ++ beBytes 4 (s.hoopOf s.ltNs) ++ beBytes 4 (s.rd Rg.SYS_BOOT_COUNT) ++ s.metroDigest.take 24 ++ slice head 0 64

/-- A signature is asked of the Ed448 engine (R296). -/
def State.sealAsk (s : State) : State := (s.sf Rg.SEAL_STATUS Fl.SEAL_STATUS_SIGNING 1).edPick

/-- Forms a seal over the given range: its signature begins, and later items wait behind it (R318). None is formed while the use of the key
is refused (R319). -/
def State.sealForm (s0 : State) (first last flags : Nat) (head : Bytes) (tail : Bool) : State :=
  let s := s0.sealKeyUse
  if ¬ s.sealKeyOk then s
  else
    let s1 := s.bufAdd ⟨s.sealBytes first last flags head, true, false, last, head, 0, tail⟩
    (s1.wr64 Rg.SEAL_LAST_SEALED last).sealAsk

/-- A seal falls due (R317): it is formed over every record since the previous one, or waits for a signature to end; the triggers
restart. -/
def State.sealDue (s : State) : State :=
  if s.signing then s.setChain (fun c => { c with due := true })
  else
    let s1 := s.setChain (fun c => { c with due := false, since := s.hoopCount })
    if s.nextSeq ≤ s.lastSealed + 1 then s1 else s1.sealForm (s.lastSealed + 1) (s.nextSeq - 1) 0 s.chainHead false

/-- Forms a chain record (R309 to R312): the next sequence number, the chain value, a buffer slot; the SEAL_COUNT trigger. -/
def State.formRecord (s : State) (type : Nat) (ns : Int) (flags port cls tpl : Nat) (payload : Bytes) : State :=
  let seq := s.nextSeq
  let r := record type s.node seq ns flags port cls tpl payload
  let h := shake512 (s.chainHead ++ r)
  let s1 := ((s.wr64 Rg.SEAL_NEXT_SEQ (seq + 1)).wrBytes Rg.SEAL_HEAD h).bufAdd ⟨r, false, true, seq, h, 0, false⟩
  let s2 := s1.sealCount 0
  let n := s2.fd Rg.SEAL_TIMING Fl.SEAL_TIMING_COUNT
  if n ≠ 0 ∧ s2.nextSeq - 1 - s2.lastSealed ≥ n then s2.sealDue else s2

/-- EVIDENCE_FORM (R306): the oldest frame of the formation queue. -/
def State.evidenceForm (s0 : State) : State :=
  match s0.evQ with
  | [] => s0
  | f :: q =>
    let s : State := ({ s0 with evQ := q } : State).sealKeyUse
    if s.haltCauses ≠ 0 then s.evRefuse f.src s.refusalCause
    else if s.bufUsed + 3 > 16384 then (s.haltOn 3).evRefuse f.src 0
    else
      let t := f.evTempl % 64
      match s.badIn 3 (Mm.evt + 256 * t) 256 with
      | some x => s.fatalDbe 3 x
      | none =>
      let p := s.evPayload f t
      let u := s.sbeIn 3 (Mm.evt + 256 * t) 256
      let s1 := if p.2 then u.sealCount 3 else u
      s1.formRecord 1 (f.ts / 65536) (f.tsTrust + (if p.2 then 4 else 0)) f.src (s.ramBe (Mm.evt + 256 * t + 1) 1) t p.1

/-- The mirror frame of a seal (R320). -/
def State.mirror (s : State) (b : Bytes) : State :=
  if ¬ s.flag Rg.SEAL_MIRROR Fl.SEAL_MIRROR_EN then s
  else
    let p := s.fd Rg.SEAL_MIRROR Fl.SEAL_MIRROR_PORT
    let cls := s.fd Rg.SEAL_MIRROR Fl.SEAL_MIRROR_CLASS
    let q := s.akzorNext p
    let head := q.2.akzorHead 4 cls 0 (s.fd Rg.SEAL_MIRROR Fl.SEAL_MIRROR_NODE) 48 (s.hoopOf s.ltNs) b.length q.1
    let d := beBytes 6 (s.rd64 Rg.SEAL_MIRROR_DA) ++ beBytes 6 (s.rd64 Rg.SEAL_MIRROR_SA) ++ head.drop 12 ++ b
    q.2.offer { data := d, src := 48, cls := cls, ts := s.lt, sof := s.lt, tsHoop := s.hoopOf s.ltNs, tsTrust := s.trust } p .none

/-- The first item that waits for its signature, with it. -/
def signFirst (b : Bytes) : List ChainItem → List ChainItem
  | [] => []
  | i :: t => if i.signed then i :: signFirst b t else { i with bytes := b, signed := true } :: t

/-- The signature of the first seal that waits for one is ready (R316): the seal is complete and mirrored. A seal that has waited to fall due
is formed when no other is being signed (R317). -/
def State.sealSign (s : State) : State :=
  match s.chain.buf.find? (fun i => !i.signed) with
  | none => s.sf Rg.SEAL_STATUS Fl.SEAL_STATUS_SIGNING 0
  | some i =>
    let sig := Ed.sign (s.keySlot s.sealSlot).act.mat (i.bytes ++ s.metroDigest) (ascii "KD48-SEAL")
    let b := i.bytes ++ sig ++ zeros 14
    let s1 := (s.setChain (fun c => { c with buf := signFirst b c.buf })).sealCount 1
    let s2 := ((s1.sf Rg.SEAL_STATUS Fl.SEAL_STATUS_SIGNING (b2n (s1.chain.buf.any (fun x => !x.signed)))).edPick).mirror b
    if s2.chain.due ∧ ¬ s2.signing then s2.sealDue else s2

/-- SEAL_SIGNED (R316, R318): the seal being signed is complete, once the Ed448 engine has taken it (R296). -/
def State.sealSigned (s : State) : State := if s.signing ∧ s.edServes .sealing then s.sealSign else s

def execSealSigned (s : State) : Host.Outcome State Fault Refusal := .next s.sealSigned

/-! ## The store (R321, R322, R324) -/

/-- The 64-byte page header. -/
def State.pageHeader (s : State) (n : Nat) : Bytes :=
  beBytes 4 0x4B525047 ++ beBytes 2 1 ++ beBytes 2 s.node ++ beBytes 4 n ++ beBytes 4 (s.rd Rg.SYS_BOOT_COUNT) ++ s.deviceId ++ zeros 32

/-- Whether the append page may take items: it is open, or lies in an erased block, the earlier pages of which are its own. -/
def State.pageReady (s : State) : Bool :=
  s.chain.opened || s.appendPage % 16 ≠ 0 || s.chain.erased.contains (s.blockOf s.appendPage)

/-- The store is full when the append page lies in a block that is not erased (R324). A block that is only being erased again after POR does
not fill it. -/
def State.storeFull (s : State) : State :=
  if s.pageReady ∨ s.chain.again.contains (s.blockOf s.appendPage) ∨ s.flag Rg.SEAL_STATUS Fl.SEAL_STATUS_STORE_FULL then s
  else (s.sf Rg.SEAL_STATUS Fl.SEAL_STATUS_STORE_FULL 1).raise 0x0D01 noPort s.appendPage

/-- The next page becomes the append page; where it lies in a block that is not erased, the store is full (R324). -/
def State.nextPage (s : State) : State :=
  (((s.wr Rg.SEAL_APPEND (s.appendPage + 1)).wr Rg.SEAL_APPEND_SLOT 0).setChain (fun c => { c with opened := false })).storeFull

/-- Closes the append page: its digest is programmed. -/
def State.closePage (s : State) : State :=
  let a := s.pageAt s.appendPage
  ((s.setFlash1 (a + 4032) (shake512 (s.flash1 a 4032))).sealCount 7).nextPage

/-- Opens the append page with its header. -/
def State.openPage (s : State) : State :=
  if s.chain.opened then s
  else
    let k := s.blockOf s.appendPage
    (s.setFlash1 (s.pageAt s.appendPage) (s.pageHeader s.appendPage)).setChain (fun c => { c with opened := true, erased := c.erased.filter (· ≠ k) })

/-- A seal that is to be signed again, with a new timestamp and trust (R314); `broken` sets BROKEN. -/
def State.sealAgain (s : State) (i : ChainItem) (broken : Bool) : ChainItem :=
  let b := i.bytes.take 128
  let fl := byteAt b 30 / 4 * 4
  { i with
    bytes := b.take 20 ++ ieeeTime s.ltNs ++ beBytes 1 ((if broken ∧ ¬ bitOf fl 4 then fl + 16 else fl) + s.trust) ++ [0]
      ++ beBytes 4 (s.hoopOf s.ltNs) ++ b.drop 36
    signed := false }

/-- Sequence `q` is lost to the chain (R314): each seal of the buffer whose range holds it becomes BROKEN and is signed again (R316), a use of
the key like any other (R290); one that is refused leaves the seal out, as in `State.sealReread`. -/
def State.chainLost (s : State) (q : Nat) : State :=
  let covers (i : ChainItem) : Bool := i.isSeal && be i.bytes 4 6 ≤ q && q ≤ i.seq
  let s1 := (s.sealCount 6).setChain (fun c => { c with lostSeqs := c.lostSeqs ++ [q] })
  if ¬ s.chain.buf.any covers then s1
  else
    let s2 := s1.sealKeyUse
    if s2.sealKeyOk then (s2.setChain (fun c => { c with buf := c.buf.map (fun i => if covers i then s2.sealAgain i true else i) })).sealAsk
    else (s2.setChain (fun c => { c with buf := c.buf.filter (fun i => !covers i) })).showBuf

/-- What is programmed for an item: a record that cannot be read back is replaced by a DAMAGED record (R314). -/
def State.itemBytes (s : State) (i : ChainItem) : Bytes × State :=
  if i.isSeal ∨ ¬ s.isBad 7 i.slot then (i.bytes, if i.isSeal then (s.sbeAt 7 i.slot).sbeAt 7 ((i.slot + 1) % 16384) else s.sbeAt 7 i.slot)
  else
    let lost := s.isBad 7 (16384 + i.slot)
    let s1 := ((((s.dbeSeen 7 i.slot).mended 7 i.slot).mended 7 (16384 + i.slot)).sealCount 5).raise 0x0D04 noPort (i.seq + b2n lost * 2 ^ 48)
    let r := record 4 s.node i.seq s.ltNs (s.trust + b2n lost * 8) 0xFF 0 0 (if lost then [] else i.head)
    (r, if lost then s1.chainLost i.seq else s1)

/-- Whether an item is a tail or an emergency seal, which closes its page (R322). -/
def ChainItem.closes (i : ChainItem) : Bool := i.isSeal && byteAt i.bytes 30 / 4 % 4 != 0

/-- The item has been programmed: it leaves the buffer. -/
def State.programmed (s : State) (i : ChainItem) : State :=
  let s1 := (s.setChain (fun c =>
    let d : Chain := { c with buf := c.buf.drop 1 }
    if i.isSeal then { d with stored := i.seq, lostSeqs := c.lostSeqs.filter (fun q => q > i.seq) } else { d with prog := i.seq, progHead := i.head })).showBuf
  let slot := s.appendSlot + (if i.isSeal then 2 else 1)
  let s2 := s1.wr Rg.SEAL_APPEND_SLOT slot
  let s3 := if slot ≥ 31 ∨ i.closes then s2.closePage else s2
  if i.tail then { (s3.setChain (fun c => { c with stopped := true })) with pwr := { s3.pwr with tailDone := true } } else s3

/-- A failed program closes the page without a digest; the item is written again in the next one (R322). What the failed program
left in the flash is open. -/
def State.programFailed (s : State) (i : ChainItem) : State :=
  let r := s.freeBytes (if i.isSeal then 256 else 128)
  let s1 := r.2.setFlash1 (s.pageAt s.appendPage + 64 + 128 * s.appendSlot) r.1
  ((s1.sealCount 9).raise 0x0D07 noPort (s.appendPage * 2 ^ 32)).nextPage

/-- The seal at the front of the buffer has a double-bit error in one of its slots: it is signed again over the same range (R314). While the
use of the key is refused it cannot be, and is left out (DESIGN CHOICE, log entry 148). -/
def State.sealReread (s : State) (i : ChainItem) : State :=
  let n := if s.isBad 7 i.slot then i.slot else (i.slot + 1) % 16384
  let s1 := (((s.dbeSeen 7 n).mended 7 i.slot).mended 7 ((i.slot + 1) % 16384)).sealKeyUse
  if ¬ s1.sealKeyOk then (s1.setChain (fun c => { c with buf := c.buf.drop 1 })).showBuf
  else (s1.setChain (fun c => { c with buf := s.sealAgain i false :: c.buf.drop 1 })).sealAsk

/-- Programs the oldest item of the buffer. While the use of the seal key is refused no record is formed (R319), and so no DAMAGED record: a
bad slot then waits (DESIGN CHOICE, log entry 148). -/
def State.program (s : State) (ok : Bool) : State :=
  match s.chain.buf with
  | [] => s
  | i :: _ =>
    if ¬ i.signed ∨ s.chain.stopped ∨ s.chain.foreign then s
    else if i.isSeal ∧ (s.isBad 7 i.slot ∨ s.isBad 7 ((i.slot + 1) % 16384)) then s.sealReread i
    else if ¬ i.isSeal ∧ s.isBad 7 i.slot ∧ ¬ s.sealKeyOk then s
    else
      let need := if i.isSeal then 2 else 1
      let s1 := if s.chain.opened ∧ s.appendSlot + need > 31 then s.closePage else s
      if ¬ s1.pageReady then s1.storeFull
      else
        let s2 := s1.openPage
        if ¬ ok then s2.programFailed i
        else
          let r := s2.itemBytes i
          ((r.2.setFlash1 (s2.pageAt s2.appendPage + 64 + 128 * s2.appendSlot) r.1)).programmed i

/-- Programming goes on while the part runs and during a flush; it is stopped from DOZE entry to DOZE exit, and by every hold. -/
def State.storeOn (s : State) : Bool := s.pwr.phase = .run || (s.pwr.phase = .flush && s.pwr.flush ≠ .doze)

/-- FLASH_PROGRAM_COMPLETE (R322). -/
def execFlashProgramComplete (ok : Bool) (s : State) : Host.Outcome State Fault Refusal := .next (if s.storeOn then s.program ok else s)

/-! ## Reclaim (R323) -/

/-- Whether page number `n`, which has been written, lies in the ring: until the append page is opened the page it will replace still does. -/
def State.inRing (s : State) (n : Nat) : Bool := s.appendPage < n + s.storePages || (s.appendPage = n + s.storePages && !s.chain.opened)

/-- The greatest page number up to the append page that lies in block `k`, if any has been reached. While the store is full the append
page is not yet in its block, which holds the pages of the lap before. -/
def State.lastPageIn (s : State) (k : Nat) : Option Nat :=
  let np := s.storePages
  let top := 16 * k + 15
  let a := s.appendPage
  if a % np / 16 = k ∧ s.pageReady then some a
  else if a % np ≥ top then some (a / np * np + top)
  else if a / np = 0 then none
  else some ((a / np - 1) * np + top)

/-- The blocks that acknowledged pages alone fill. -/
def State.acked (s : State) : List Nat :=
  (List.range (s.storePages / 16)).filter (fun k =>
    !(k = s.blockOf s.appendPage && s.pageReady) && !s.chain.erased.contains k && match s.lastPageIn k with
      | some n => decide (n ≤ s.ackPage)
      | none => false)

/-- BLOCK_ERASE_COMPLETE (R323): the erase of a reclaimable block, or of one to be erased again, ends. -/
def State.eraseComplete (s : State) (k : Nat) (ok : Bool) : State :=
  let waits := s.chain.again.contains k || s.chain.reclaim.contains k
  if ¬ waits ∨ s.chain.buf.length ≥ 256 ∨ s.chain.foreign ∨ ¬ s.storeOn then s
  else if ¬ ok then (s.sealCount 9).raise 0x0D07 noPort (1 + 16 * k * 2 ^ 32)
  else
    let s1 : State := { s with ospi1 := s.ospi1.filter (fun c => c.1 / 65536 ≠ k) }
    let s2 := (s1.setChain (fun c => { c with erased := c.erased ++ [k], again := c.again.filter (· ≠ k), reclaim := c.reclaim.filter (· ≠ k) })).sealCount 8
    if s2.blockOf s2.appendPage = k then s2.sf Rg.SEAL_STATUS Fl.SEAL_STATUS_STORE_FULL 0 else s2

def execBlockEraseComplete (block : Fin 4096) (ok : Bool) (s : State) : Host.Outcome State Fault Refusal := .next (s.eraseComplete block.val ok)

/-- An export acknowledgement of 212 bytes (R323): whether it is accepted. -/
def State.sealAck (s : State) (a : Bytes) : Bool × State :=
  let page := be a 24 4
  let written := page < s.appendPage ∨ (page = s.appendPage ∧ s.chain.opened)
  let ok := a.length = 212 ∧ be a 0 4 = 0x4541434B ∧ be a 4 2 = 1 ∧ be a 6 2 = s.node ∧ slice a 8 16 = s.deviceId ∧ be a 28 4 = 0 ∧ be a 210 2 = 0
    ∧ written ∧ s.inRing page ∧ be (s.flash1 (s.pageAt page) 12) 8 4 = page
    ∧ shake512 (s.flash1 (s.pageAt page) 4032) = slice a 32 64
  let u := if ok then s.useSlot 2 Master.sealUnit KeyOp.verify [4] else (none, s)
  let good : Bool := match u.1 with
    | some k => Ed.verify k.act.pub (a.take 96) (ascii "KD48-EXPORT-ACK") (slice a 96 114)
    | none => false
  if ¬ good then (false, (u.2.sealCount 11).raise 0x0D06 noPort (page * 2 ^ 32))
  else
    let s1 := (s.sealCount 10).raise 0x0D06 noPort (1 + page * 2 ^ 32)
    if page ≤ s.ackPage then (true, s1)
    else
      let s2 := s1.wr Rg.SEAL_ACK_PAGE page
      (true, s2.setChain (fun c => { c with reclaim := s2.acked }))

/-! ## Boundaries (R317, R325) -/

/-- The seal unit's part of a boundary. -/
def State.sealBoundary (s0 : State) : State :=
  let s := if s0.pwr.phase = .run then (s0.slotRead s0.sealSlot).sealKeyCheck else s0
  let n := s.fd Rg.SEAL_TIMING Fl.SEAL_TIMING_INTERVAL
  let s1 := if n ≠ 0 ∧ s.hoopCount ≥ s.chain.since + n ∧ s.pwr.phase = .run ∧ s.flag Rg.SEAL_STATUS Fl.SEAL_STATUS_READY then s.sealDue else s
  let s2 := if s1.haltCause 3 ∧ s1.bufUsed ≤ 12288 then s1.haltOff 3 else s1
  let s3 := if s2.haltCauses = 0 ∧ s2.flag Rg.IMG_STATUS Fl.IMG_STATUS_LOCKED then s2.driveHalt false else s2
  if s3.flag Rg.SEAL_CFG Fl.SEAL_CFG_HALT_SIG_EN ∧ s3.pwr.phase = .run then
    s3.sigPost (s3.fd Rg.SEAL_CFG Fl.SEAL_CFG_HALT_SIG) (s3.rdw Rg.HOOP_INDEX) (BitVec.ofNat 64 s3.haltCauses) 1
  else s3

/-! ## Tail and emergency seals (R326 to R328) -/

/-- A flush begins: formation stops, and the hoop index is kept for the next RESTART record. -/
def State.sealFlush (s : State) : State := (s.haltOn 5).setChain (fun c => { c with lastHoop := s.hoopIx, due := false })

/-- The seal over the last chain record programmed; what the buffer still holds is lost. Where no seal is formed, none is programmed: the
flush then lasts its whole time (R332, log 117). -/
def State.sealStored (s : State) (flags : Nat) : State :=
  let s1 := ((s.setChain (fun c => { c with buf := [], due := false, stopped := false })).showBuf).sf Rg.SEAL_STATUS Fl.SEAL_STATUS_SIGNING 0
  let s2 := if s.chain.prog ≤ s.chain.stored then s1 else s1.sealKeyUse
  if s.chain.prog ≤ s.chain.stored ∨ s.chain.foreign ∨ ¬ s.flag Rg.SEAL_STATUS Fl.SEAL_STATUS_READY ∨ ¬ s2.sealKeyOk then
    s2.setChain (fun c => { c with stopped := true })
  else s1.sealForm (s.chain.stored + 1) s.chain.prog flags s.chain.progHead true

/-- TAIL_SEAL (R326): 4.0 ms into a flush. -/
def State.tailSeal (s : State) : State :=
  if s.pwr.phase ≠ .flush ∨ s.pwr.flush = .doze ∨ s.pwr.flush = .pfail ∨ s.pwr.tailDone ∨ s.chain.stopped ∨ s.chain.buf.any (fun i => i.tail) then s
  else (s.advanceRaw (s.pwr.flushAt + us 4000)).sealStored 8

def execTailSeal (s : State) : Host.Outcome State Fault Refusal := .next s.tailSeal

/-- The seal that opens DOZE (R327): a signature in progress ends, and the tail seal covers every record formed since, up to the latest; a
seal that had waited for that signature is part of it. Both triggers restart (R317). -/
def State.dozeSeal (s : State) : State :=
  let s1 := s.setChain (fun c => { c with due := false })
  let s2 := (if s1.signing then s1.sealSign else s1).setChain (fun c => { c with since := s.hoopCount })
  if s2.nextSeq ≤ s2.lastSealed + 1 ∨ ¬ s2.flag Rg.SEAL_STATUS Fl.SEAL_STATUS_READY then s2
  else s2.sealForm (s2.lastSealed + 1) (s2.nextSeq - 1) 8 s2.chainHead false

/-- The emergency seal (R328) is formed; its signature and its programming follow, within 1.1 ms, and a reset abandons them (R386). -/
def State.emergencySeal (s : State) : State := s.sealStored 4

/-! ## The rebuild at a start (R329) -/

/-- The pages of the store that carry a header, as (page number, flash address). -/
def State.storeScan (s : State) : List (Nat × Nat) :=
  let ix := (s.ospi1.map (fun c => c.1 / 4096)).eraseDups
  ((ix.filter (fun i => i < s.storePages && be (s.flash1 (4096 * i) 4) 0 4 = 0x4B525047)).map (fun i => (be (s.flash1 (4096 * i + 8) 4) 0 4, 4096 * i))).mergeSort
    (fun x y => x.1 ≤ y.1)

/-- The items of a page: seals of two slots, and chain records. -/
def pageItems (b : Bytes) : Nat → Nat → List Bytes
  | 0, _ => []
  | fuel + 1, k =>
    let o := 64 + 128 * k
    if k ≥ 31 then []
    else if byteAt b o = 2 ∧ k + 1 < 31 then slice b o 256 :: pageItems b fuel (k + 2)
    else if byteAt b o = 1 ∨ byteAt b o = 3 ∨ byteAt b o = 4 then slice b o 128 :: pageItems b fuel (k + 1)
    else pageItems b fuel (k + 1)

/-- Hashes the records after sequence `n`: the next sequence number and the chain value; the copy in the page of the higher number
counts, and a DAMAGED record carries its chain value. -/
def rehash (recs : List Bytes) : Nat → Nat → Bytes → Nat × Bytes
  | 0, seq, h => (seq, h)
  | fuel + 1, seq, h =>
    match (recs.filter (fun r => be r 4 6 = seq)).getLast? with
    | none => (seq, h)
    | some r => rehash recs fuel (seq + 1) (if byteAt r 0 = 4 then slice r 32 64 else shake512 (h ++ r))

/-- Where appending goes on: in a new page after the last one opened. -/
def State.startPage (s : State) (pages : List (Nat × Nat)) : Nat :=
  if s.chain.kept then s.appendPage + (if s.chain.opened ∨ s.appendSlot ≠ 0 then 1 else 0)
  else match pages.getLast? with
    | some p => p.1 + 1
    | none => 0

/-- RESTART_RECORD_FORM (R329). No record is formed while the use of the seal key is refused (R319). The CHAIN_LOST records read back after the
last seal are noted for the next seal's BROKEN (R316). -/
def State.restartForm (s : State) : State :=
  if s.pwr.phase ≠ .run ∨ s.flag Rg.SEAL_STATUS Fl.SEAL_STATUS_READY ∨ s.chain.foreign ∨ ¬ s.flag Rg.IMG_STATUS Fl.IMG_STATUS_METRO_VALID then s
  else
    let pages := s.storeScan
    let foreign := match pages.getLast? with
      | some p => be (s.flash1 (p.2 + 6) 2) 0 2 ≠ s.node || s.flash1 (p.2 + 16) 16 ≠ s.deviceId
      | none => false
    if foreign then s.setChain (fun c => { c with foreign := true, stopped := true })
    else if ¬ s.sealKeyOk then s.sealKeyUse
    else
      let items := pages.flatMap (fun p => pageItems (s.flash1 p.2 4096) 31 0)
      let seals := items.filter (fun b => byteAt b 0 = 2)
      let recs := items.filter (fun b => byteAt b 0 ≠ 2)
      let base := match seals.getLast? with
        | some b => (be b 10 6, slice b 64 64)
        | none => (0, s.chainZero)
      let r := rehash recs recs.length (base.1 + 1) base.2
      let gone := (recs.filter (fun b => byteAt b 0 = 4 && bitOf (byteAt b 20) 3)).map (fun b => be b 4 6)
      let kept := s.chain.kept
      let rebuilt := !kept || s.chainHead ≠ r.2
      let lost := if kept then s.nextSeq - r.1 else 0
      let page := s.startPage pages
      let again := if kept then s.chain.again else
        (List.range (s.storePages / 16)).filter (fun k => s.flash1 (65536 * k) 64 = List.replicate 64 erased)
      let s1 := ((s.wr Rg.SEAL_APPEND page).wr Rg.SEAL_APPEND_SLOT 0).wr64 Rg.SEAL_LAST_SEALED base.1
      let s2 := (s1.wr64 Rg.SEAL_NEXT_SEQ r.1).wrBytes Rg.SEAL_HEAD r.2
      let s3 := s2.setChain (fun c => { c with stored := base.1, prog := r.1 - 1, progHead := r.2, opened := false, kept := true, again := again, since := s.hoopCount })
      let s4 := s3.setChain (fun c => { c with
        reclaim := if kept then s3.acked else []
        lostSeqs := (gone.filter (fun q => base.1 < q && q < r.1)).eraseDups })
      let payload := s.metroDigest ++ beBytes 6 base.1 ++ beBytes 4 (s.rd Rg.SYS_BOOT_COUNT) ++ beBytes 1 (s.fd Rg.SYS_RESET_CAUSE Fl.SYS_RESET_CAUSE_CAUSE)
        ++ beBytes 1 (b2n rebuilt + b2n (!kept) * 2) ++ beBytes 4 s.lastIndex ++ beBytes 4 lost
        ++ (shake512 (s.keySlot s.sealSlot).act.pub).take 12
      let s5 := s4.storeFull.formRecord 3 s.ltNs s.trust 0xFF 0 0 payload
      let s6 := (s5.sealCount 12 lost).sf Rg.SEAL_STATUS Fl.SEAL_STATUS_REBUILT (b2n rebuilt)
      let s7 := (s6.sf Rg.SEAL_STATUS Fl.SEAL_STATUS_READY 1).raise 0x0D05 noPort (r.1 + b2n rebuilt * 2 ^ 48 + Nat.min lost 0x7FFF * 2 ^ 49)
      s7.haltOff 2

def execRestartRecordForm (s : State) : Host.Outcome State Fault Refusal := .next s.restartForm

end Sys2Proof.Machine
end

