-- ==== Sys2Proof/Machine/RegRead.lean ====
section
/-! DEFINITION. What a read of the management cores brings (R4, R6, R57, R374 to R376): the registers that are computed where they
are read, the latches of 64-bit registers, and the interrupt lines. -/

namespace Sys2Proof.Machine

/-- A number with bit `b` set to `on`. -/
def putBit (v b : Nat) (on : Bool) : Nat := withField v ⟨b, 1⟩ (b2n on)

/-- Whether any of `n` words from a register on is non-zero. -/
def State.anyWord (s : State) (r : Reg) (n : Nat) : Bool := (List.range n).any (fun i => s.rd (regWord r i) != 0)

/-! ## Interrupt status and lines (R97, R376) -/

/-- INT_STATUS of port block `p`. -/
def State.portStatus (s : State) (p : Nat) : Nat :=
  if isEth p then
    putBit (putBit (s.rd (Rg.ETH_INT_STATUS p)) 1 (s.anyWord (Rg.ETH_CNT_HALF p) 2)) 5 (s.flag (Rg.ETH_MDIO_DATA p) Fl.ETH_MDIO_DATA_DONE)
  else if isT1s p then putBit (s.rd (Rg.T1S_INT_STATUS p)) 3 (s.anyWord (Rg.T1S_CNT_HALF p) 1)
  else
    let v := putBit (putBit (s.rd (Rg.CAN_INT_STATUS p)) 3 (!(s.canP p).mfifo.isEmpty)) 6 (s.anyWord (Rg.CAN_CNT_HALF p) 1)
    (List.range 4).foldl (fun v k => putBit v (8 + k) (s.flag (Rg.CAN_PRIO_CTRL p k) Fl.CAN_PRIO_CTRL_NEW)) v

def State.portEnable (s : State) (p : Nat) : Nat :=
  s.rd (if isEth p then Rg.ETH_INT_EN p else if isT1s p then Rg.T1S_INT_EN p else Rg.CAN_INT_EN p)

def State.parseStatus (s : State) : Nat := putBit (s.rd Rg.PARSE_INT_STATUS) 2 ((List.range 52).any (fun p => s.anyWord (Rg.PARSE_CNT_HALF p) 1))
def State.tableStatus (s : State) : Nat := putBit (s.rd Rg.TBL_INT_STATUS) 4 (s.anyWord Rg.TBL_CNT_HALF 1)
def State.bufStatus (s : State) : Nat :=
  putBit (putBit (s.rd Rg.BUF_INT_STATUS) 2 (s.anyWord Rg.GND_CNT_HALF 1 || (List.range 52).any (fun p => s.anyWord (Rg.BUF_QCNT_HALF p) 2)))
    4 (s.flag Rg.BUF_MC_STATUS Fl.BUF_MC_STATUS_DONE)
def State.bobStatusInt (s : State) : Nat :=
  putBit (putBit (s.rd Rg.BOB_INT_STATUS) 4 (s.anyWord Rg.BOB_CNT_HALF 1 || (List.range 16).any (fun b => s.anyWord (Rg.BOB_BCNT_HALF b) 1)))
    3 (s.flag Rg.BOB_SIGW_STATUS Fl.BOB_SIGW_STATUS_DONE)
def State.brgStatusInt (s : State) : Nat := putBit (s.rd Rg.BRG_INT_STATUS) 3 (s.anyWord Rg.BRG_CNT_HALF 1)
def State.keyStatusInt (s : State) : Nat :=
  putBit (putBit (putBit (s.rd Rg.KEY_INT_STATUS) 0 (s.flag Rg.KEY_CMD_STATUS Fl.KEY_CMD_STATUS_DONE)) 1
    (s.flag Rg.KEY_SVC_STATUS Fl.KEY_SVC_STATUS_DONE)) 3 (s.anyWord Rg.KEY_CNT_HALF 1)
def State.eyeStatusInt (s : State) : Nat := putBit (s.rd Rg.EYE_INT_STATUS) 3 (s.anyWord Rg.EYE_CNT_HALF 1)
def State.fltStatusInt (s : State) : Nat := putBit (s.rd Rg.FLT_INT_STATUS) 3 (s.anyWord Rg.FLT_CNT_HALF 1)
def State.gpioStatusInt (s : State) : Nat := b2n (s.rd Rg.GPIO_CHG != 0)
def State.egrStatusInt (s : State) (p : Nat) : Nat := putBit (s.rd (Rg.EGR_INT_STATUS p)) 3 (s.anyWord (Rg.EGR_CNT_HALF p) 1)
def State.spStatusInt (s : State) : Nat :=
  let ready (r : Nat) : Bool := s.flag (Rg.SYS_SP_RX_CFG r) Fl.SYS_SP_RX_CFG_EN && s.rd (Rg.SYS_SP_RX_WR r) != s.rd (Rg.SYS_SP_RX_RD r)
  putBit (putBit (s.rd Rg.SYS_SP_INT_STATUS) 0 ((List.range 4).any ready)) 2 (s.anyWord Rg.SYS_SP_CNT_HALF 1)

/-- SYS_IRQ_EGR. -/
def State.irqEgr (s : State) : Nat :=
  ((List.range 52).filter (fun p => p ≠ 49 && s.egrStatusInt p &&& s.rd (Rg.EGR_INT_EN p) != 0)).foldl (fun v p => v + 2 ^ p) 0

/-- Whether interrupt line `n` is active (R376). -/
def State.irqLine (s : State) (n : Nat) : Bool :=
  match n with
  | 0 => s.rd Rg.SYS_EVT_WR != s.rd Rg.SYS_EVT_RD
  | 1 => s.flag Rg.SYS_IRQ_HOOP Fl.SYS_IRQ_HOOP_PEND
  | 2 => s.flag Rg.IMG_STAGE_STATUS Fl.IMG_STAGE_STATUS_CHECK_DONE
  | 3 => s.parseStatus &&& s.rd Rg.PARSE_INT_EN != 0
  | 4 => s.tableStatus &&& s.rd Rg.TBL_INT_EN != 0
  | 5 => s.bufStatus &&& s.rd Rg.BUF_INT_EN != 0
  | 6 => s.bobStatusInt &&& s.rd Rg.BOB_INT_EN != 0
  | 7 => s.brgStatusInt &&& s.rd Rg.BRG_INT_EN != 0
  | 8 => s.keyStatusInt &&& s.rd Rg.KEY_INT_EN != 0
  | 9 => s.eyeStatusInt &&& s.rd Rg.EYE_INT_EN != 0
  | 10 => s.fltStatusInt &&& s.rd Rg.FLT_INT_EN != 0
  | 11 => s.gpioStatusInt &&& s.rd Rg.GPIO_INT_EN != 0
  | 12 => s.irqEgr != 0
  | 13 => s.spStatusInt &&& s.rd Rg.SYS_SP_INT_EN != 0
  | 14 => false
  | 15 => false
  | k => k < 64 && s.portStatus (k - 16) &&& s.portEnable (k - 16) != 0

/-- SYS_IRQ_STATUS. -/
def State.irqStatus (s : State) : Nat := ((List.range 64).filter s.irqLine).foldl (fun v n => v + 2 ^ n) 0

/-- Whether core `c` sees its external interrupt pending (R376). -/
def State.irqPending (s : State) (c : Nat) : Bool := s.irqStatus &&& s.rd64 (Rg.SYS_IRQ_ROUTE c) != 0

/-! ## Registers computed where they are read -/

/-- Word `w` of a number. -/
def wordOf (v w : Nat) : Nat := v / 2 ^ (32 * w) % 2 ^ 32

/-- Word `w` of bytes in the word layout of R403. -/
def byteWord (b : Bytes) (w : Nat) : Nat := ofLe (slice b (4 * w) 4)

/-- GPIO levels: driven outputs, and what the board drives on the others (R377). -/
def State.gpioLevels (s : State) : Nat :=
  let oe := if s.pins.gpioDriven then s.rd Rg.GPIO_OE else 0
  ((s.pins.gpioIn.toNat ^^^ (s.pins.gpioIn.toNat &&& oe)) ||| (s.rd Rg.GPIO_OUT &&& oe))

/-- KEY_STATUS. -/
def State.keyStatus (s : State) : Nat :=
  let orphans := (s.keys.slots.filter (fun e => (s.keySlot e.1).st = 2 || (s.keySlot e.1).st = 3)).length
  b2n (decide (s.lifecycle = 0)) + 2 * b2n ((s.keySlot 0).st != 0) + 4 * b2n s.metroBlocked + 8 * (orphans % 256)

/-- The selected key slot. -/
def State.selSlot (s : State) : KeySlot := s.keySlot (s.fd Rg.KEY_SLOT_SEL Fl.KEY_SLOT_SEL_SLOT)

/-- The recovery eyelet is open (R80): safe hold after image failure, with a recovery port fused. -/
def State.recoveryOpen (s : State) : Bool := s.pwr.phase = .safeHold && s.otp.recovery != 0 && s.lifecycle != 4

/-- EYE_STATUS: KEY_OK says that the use check of R290 allows the eyelet key. -/
def State.eyeStatus (s : State) : Nat :=
  let ok := s.useCause (s.fd Rg.EYE_CFG Fl.EYE_CFG_KEY_SLOT) Master.eyelet KeyOp.derive [2]
  b2n s.recoveryOpen + 2 * b2n (decide (ok = 0)) + 4 * s.eye.queue.length + 64 * b2n s.eye.stage

/-- The words of the port blocks that are computed; `v` is what is stored. -/
def State.livePort (s : State) (p o v : Nat) : Nat :=
  if isEth p then
    if o = 0x20 then s.fcStatus p else if o = 0x38 then s.portStatus p else v
  else if isT1s p then if o = 0x1C then s.portStatus p else v
  else
    let c := s.canP p
    if o = 0x24 then s.portStatus p
    else if o = 0x40 then c.mfifo.length
    else if 0x400 ≤ o ∧ o < 0x450 then byteWord (c.mfifo.headD []) ((o - 0x400) / 4)
    else v

/-- The words of GROUND/BUF that are computed. -/
def State.liveBuf (s : State) (o v : Nat) : Nat :=
  if o = 4 then s.poolFree
  else if o = 0xC then s.bufStatus
  else if 0x100 ≤ o ∧ o < 0x200 then s.iqLevel ((o - 0x100) / 32) (o / 4 % 8)
  else if 0x3000 ≤ o ∧ o < 0x3D00 ∧ o % 8 = 0 then s.occ ((o - 0x3000) / 64) (o / 8 % 8)
  else v

/-- The words of an egress block that are computed. -/
def State.liveEgr (s : State) (p o v : Nat) : Nat :=
  if o = 0x24 then s.egrStatusInt p
  else if o = 0x1C then (s.shape p).rd (Rg.EGR_PSHAPE_TOKENS p)
  else if 0x40 ≤ o ∧ o < 0x140 ∧ o % 32 = 0x14 then (s.shape p).rd (Rg.EGR_QSHAPE_TOKENS p ((o - 0x40) / 32))
  else v

/-- The words of TABLE that are computed. -/
def State.liveTable (s : State) (o v : Nat) : Nat :=
  if o = 0x10 then s.tbl.learnQ.length + s.locksHeld * 2 ^ 10 + b2n (decide (s.rd Rg.TBL_DMA_TAIL = s.rd Rg.TBL_DMA_HEAD)) * 2 ^ 17
  else if o = 0x18 then s.tableStatus
  else if o = 0xA8 ∨ o = 0xE8 ∨ o = 0x128 then s.tblEntries ((o - 0x68) / 0x40)
  else v

/-- The words of KEY/CIPHER that are computed. -/
def State.liveKey (s : State) (o v : Nat) : Nat :=
  if o = 0x04 then s.keyStatus
  else if o = 0x0C then s.selSlot.st + 8 * b2n (s.selSlot.st != 0 && decide (ksType s.selSlot.attr ≥ 3))
  else if o = 0x28 then s.keyStatusInt
  else if 0x80 ≤ o ∧ o < 0x94 then byteWord s.selSlot.attr ((o - 0x80) / 4)
  else if 0xA0 ≤ o ∧ o < 0xC0 then if s.lifecycle = 0 then byteWord s.transportKey ((o - 0xA0) / 4) else 0
  else if 0xC0 ≤ o ∧ o < 0xFC then byteWord s.selSlot.act.pub ((o - 0xC0) / 4)
  else v

/-- The words of TIME/HOOP that are computed. -/
def State.liveTime (s : State) (o v : Nat) : Nat :=
  if o = 0x20 then wordOf (unsigned 64 s.ltNs) 0
  else if o = 0x24 then wordOf (unsigned 64 s.ltNs) 1
  else if o = 0x48 then s.holdoverMs
  else if 0x100 ≤ o ∧ o < 0x200 then
    let g := (o - 0x100) / 32
    if o % 32 < 16 then wordOf ((s.tsqOf g).headD 0).toNat (o % 32 / 4) else if o % 32 = 16 then (s.tsqOf g).length else v
  else v

/-- The words of SYS that are computed. -/
def State.liveSys (s : State) (o v : Nat) : Nat :=
  if o = 0x40 ∨ o = 0x44 then wordOf s.irqStatus (o / 4 % 2)
  else if o = 0x70 ∨ o = 0x74 then wordOf s.irqEgr (o / 4 % 2)
  else if o = 0x264 then s.spStatusInt
  else v

/-- What the register word at address `a` holds, computed or stored (`v`). -/
def State.live (s : State) (a v : Nat) : Nat :=
  let o := a % 0x10000
  match a / 0x10000 with
  | 0x1000 => s.liveSys o v
  | 0x1001 => s.liveTime o v
  | 0x1020 =>
    if o = 8 then withField v Fl.PARSE_BANK_STATUS_DRAIN_LEFT (if s.swapState = 2 then Nat.min 255 (s.tagged51 s.standbyBank).length else 0)
    else if o = 0x18 then s.parseStatus else v
  | 0x1030 => s.liveTable o v
  | 0x1040 => s.liveBuf o v
  | 0x1060 => if o = 0x10 then s.bobStatusInt else v
  | 0x1070 =>
    if o = 0x20 then withField v Fl.BRG_STATUS_SLOTS_USED (s.brg.slots.filter (fun e => e.2.st != 0)).length
    else if o = 0x28 then s.brgStatusInt else v
  | 0x1080 => s.liveKey o v
  | 0x1090 => if o = 0x30 then s.chain.erased.length else v
  | 0x10A0 => if o = 0x40 then s.eyeStatus else if o = 0x54 then s.eyeStatusInt else v
  | 0x10B0 => if o = 0x20 then s.fltStatusInt else v
  | 0x10C0 => if o = 0 then s.gpioLevels else if o = 0x20 then s.gpioStatusInt else v
  | _ =>
    if 0x10100000 ≤ a ∧ a < 0x10130000 then s.livePort ((a - 0x10100000) / 0x1000) (a % 0x1000) v
    else if 0x10500000 ≤ a ∧ a < 0x10534000 then s.liveEgr ((a - 0x10500000) / 0x1000) (a % 0x1000) v
    else v

/-- The word of a row at address `a` as it stands now, without a latch. -/
def State.rowWord (s : State) (r : RegD) (w a : Nat) : Nat := s.live a (s.wordAt r w a)

/-! ## Reads -/

/-- What a read brings. -/
def State.got (s : State) (v : Nat) : State := { s with readPort := ⟨BitVec.ofNat 32 v, false⟩ }

/-- An access fault (R374). -/
def State.accessFault (s : State) : State := { s with readPort := ⟨0, true⟩ }

/-- Latches a word for a later read. -/
def State.latchAt (s : State) (a v : Nat) : State := { s with latch := sset s.latch a 0 (BitVec.ofNat 32 v) }
def State.latched (s : State) (a : Nat) : Nat := (sget s.latch a 0).toNat

/-- TIME_NOW_READ (R57): the low word; the high word, the fraction and the hoop index of the same cycle are latched. -/
def State.timeNowRead (s : State) : State :=
  let n := unsigned 64 s.ltNs
  let a := Rg.TIME_NOW.addr
  ((((s.latchAt (a + 4) (n / 2 ^ 32)).latchAt (a + 8) (unsigned 16 s.lt)).latchAt (a + 12) s.hoopIx)).got n

/-- A read of the low word of a 64-bit register (R4): the high word is latched. For TIME_PPS_IN_TS the fraction is too (R57). -/
def State.lowRead (s : State) (r : RegD) (a : Nat) : State :=
  let s1 := (s.latchAt (a + 4) (s.rowWord r 1 (a + 4))).got (s.rowWord r 0 a)
  if a = (Rg.TIME_PPS_IN_TS 0).addr ∨ a = (Rg.TIME_PPS_IN_TS 1).addr then s1.latchAt (a + 8) (s.rd ⟨a + 8, 0⟩) else s1

/-- The priority buffer whose word 0 an address is (R113). -/
def prioAt (a : Nat) : Option (Nat × Nat) :=
  let p := (a - 0x10100000) / 0x1000
  let o := a % 0x1000
  if a < 0x10100000 ∨ ¬ isCan p then none
  else if 0x200 ≤ o ∧ o < 0x400 ∧ o % 128 = 0 then some (p, (o - 0x200) / 128) else none

/-- Whether an address is one of those latched with another (R57). -/
def latchOnly (a : Nat) : Bool :=
  a = Rg.TIME_NOW_FRAC.addr || a = Rg.TIME_NOW_HOOP.addr || a = (Rg.TIME_PPS_IN_FRAC 0).addr || a = (Rg.TIME_PPS_IN_FRAC 1).addr

/-- The timestamp queue whose oldest record an address shows (R43). -/
def tsqAt (a : Nat) : Option Nat :=
  let o := a % 0x10000
  if a / 0x10000 = 0x1001 ∧ 0x100 ≤ o ∧ o < 0x200 then some ((o - 0x100) / 32) else none

/-- A read of the PARSE_STANDBY window at `a` of memory 3: a double-bit error there is fatal, and what the read then brings is open (R347). -/
def State.standbyRead (s : State) (a : Nat) : State :=
  match s.badIn 3 a 4 with
  | some x =>
    let r := (s.fatalDbe 3 x).freeBytes 4
    r.2.got (be r.1 0 4)
  | none => (s.sbeIn 3 a 4).got (ofLe (s.ram a 4))

/-- The `n` bytes at `a` of management memory, as a load of a management core meets them: outside the memory, or on a double-bit error, it
takes an access fault (R347, R374). -/
def State.memLoad (s : State) (a n : Nat) : State :=
  if ¬ s.inMgmt a n then s.accessFault
  else
    match s.badIn 8 a n with
    | some x => (s.dbeSeen 8 x).accessFault
    | none =>
      let v := s.memLe a n
      let t := (s.sbeIn 8 a n).got v
      if n = 8 then { t with readHigh := BitVec.ofNat 32 (v / 2 ^ 32) } else t

/-- A 32-bit read by a management core (R374). -/
def State.read (s0 : State) (a : Nat) : State :=
  let s := match tsqAt a with
    | none => if a = Rg.BOB_SIGW_STATUS.addr then s0.sigDrain else s0
    | some g => s0.tsqRead g
  if a < 0x10000000 then s.memLoad a 4
  else if 0x20000000 ≤ a then s.debugRead a
  else if a % 4 ≠ 0 then s.accessFault
  else if 0x10210000 ≤ a ∧ a < 0x10230000 then s.standbyRead (bankAt s.standbyBank + (a - 0x10210000))
  else
    match blockAt a with
    | none => s.accessFault
    | some b =>
      match rowOf b.1 b.2 with
      | none => s.got 0
      | some (r, w) =>
        if a = Rg.TIME_NOW.addr then s.timeNowRead
        else if r.words = 2 then if w = 0 then s.lowRead r a else s.got (s.latched a)
        else if latchOnly a then s.got (s.latched a)
        else
          match prioAt a with
          | some (p, k) => s.prioRead p k
          | none => s.got (s.rowWord r w a)

/-- Whether an atomic operation may act on the `n` bytes at `a` (R374): of management memory, 4 or 8 of them, aligned. PRESUMED (log 162): the
A extension gives none of other widths, and misaligned ones fault. -/
def State.atomicOk (s : State) (a n : Nat) : Bool := (n = 4 || n = 8) && a % n = 0 && s.inMgmt a n

/-- A load of a management core (R374): registers and windows accept aligned 32-bit loads alone, management memory any width, and a
load-reserved, whose reservation is held from then on. -/
def State.coreLoad (s : State) (x : CoreLoad) : State :=
  let a := x.addr.toNat
  let n := x.width.bytes
  match x.reserve with
  | none => if n = 4 then s.read a else if a < 0x10000000 then s.memLoad a n else s.accessFault
  | some c =>
    if ¬ s.atomicOk a n then s.accessFault
    else
      let t := s.memLoad a n
      if t.readPort.fault then t else { t with resv := (c, a, n) :: t.resv.filter (fun r => r.1 ≠ c) }

/-- TIME_NOW_READ (R57). -/
def execTimeNowRead (lapse : Nat) (s : State) : Host.Outcome State Fault Refusal := .next ((s.advance lapse).fw (·.timeNowRead))

end Sys2Proof.Machine
end

