-- ==== Sys2Proof/Machine/Checks.lean ====
section
/-! DEFINITION. The image checks of one field and of one register (R5, R75, R76): each range is that of the field's chapter. -/

namespace Sys2Proof.Machine

/-- The cause of the first condition that holds; 0 when none does. -/
def firstBad (l : List (Bool × Nat)) : Nat :=
  match l with
  | [] => 0
  | (b, c) :: t => if b then c else firstBad t

/-- Whether a field of a word lies outside `lo` to `hi`. -/
def outside (v : Nat) (f : Fld) (lo hi : Nat) : Bool := fieldOf v f < lo || hi < fieldOf v f

/-- Whether the word a WRITE leaves in a register of an Ethernet port breaks a range of one field (R81 to R101, R341). -/
def ethWordBad (p a v : Nat) : Bool :=
  if a = (Rg.ETH_CFG p).addr then outside v Fl.ETH_CFG_MAX_FRAME 1518 9216
  else if a = (Rg.ETH_TX_THRESH p).addr then
    outside v Fl.ETH_TX_THRESH_FLOOR 64 9216 || fieldOf v Fl.ETH_TX_THRESH_FLOOR % 64 != 0
  else if (Rg.ETH_STEER_ACT p 0).addr ≤ a ∧ a ≤ (Rg.ETH_STEER_ACT p 31).addr ∧ (a - (Rg.ETH_STEER_ACT p 0).addr) % 16 = 0 then
    fieldOf v Fl.ETH_STEER_ACT_TAG_MODE = 3 || fieldOf v Fl.ETH_STEER_ACT_ACTION = 3
  else if (List.range 4).any (fun k => a = (Rg.ETH_WAKE_CFG p k).addr) then outside v Fl.ETH_WAKE_CFG_OFFSET 0 240
  else false

/-- The same for a T1S port (R122, R341), and for a CAN controller (R110, R111). -/
def t1sWordBad (p a v : Nat) : Bool :=
  if a = (Rg.T1S_CFG p).addr then outside v Fl.T1S_CFG_MAX_FRAME 1518 2048
  else if (List.range 4).any (fun k => a = (Rg.T1S_WAKE_CFG p k).addr) then outside v Fl.T1S_WAKE_CFG_OFFSET 0 240
  else false

def canWordBad (p a v : Nat) : Bool :=
  if (Rg.CAN_FILT_ACT p 0).addr ≤ a ∧ a ≤ (Rg.CAN_FILT_ACT p 127).addr ∧ (a - (Rg.CAN_FILT_ACT p 0).addr) % 16 = 0 then
    5 < fieldOf v Fl.CAN_FILT_ACT_TARGET || 8 < fieldOf v Fl.CAN_FILT_ACT_AF_SEL
  else if a = (Rg.CAN_PWM p).addr then fieldOf v Fl.CAN_PWM_PWMS = 0 || fieldOf v Fl.CAN_PWM_PWML = 0
  else false

/-- The same for the registers of an egress port (R202 to R213). -/
def egrWordBad (p a v : Nat) : Bool :=
  if a = (Rg.EGR_SCHED p).addr then outside v Fl.EGR_SCHED_STRICT 0 4
  else if a = (Rg.EGR_LAUNCH p).addr then outside v Fl.EGR_LAUNCH_LATE_MAX 64 1000000
  else if a = (Rg.EGR_GATE_CFG p).addr then outside v Fl.EGR_GATE_CFG_LEN 0 256
  else
    match shaperAt a with
    | some (_, _, true) => 100000000 < v
    | _ => false

/-- The same for block TIME (R32, R33, R36, R45, R50, R56). -/
def timeWordBad (a v : Nat) : Bool :=
  if a = Rg.TIME_SLEW_MAX.addr then outside v Fl.TIME_SLEW_MAX_PPM 1 500
  else if a = Rg.TIME_RATE.addr then rateMax < (signed 32 v).natAbs
  else if a = Rg.TIME_SYNC_CFG.addr then
    outside v Fl.TIME_SYNC_CFG_LOSS_THRESH 1 100 || (3 < fieldOf v Fl.TIME_SYNC_CFG_LOG_INTERVAL && fieldOf v Fl.TIME_SYNC_CFG_LOG_INTERVAL < 9)
  else if (List.range 4).any (fun j => a = (Rg.TIME_PPS_OUT_CFG j).addr) then fieldOf v Fl.TIME_PPS_OUT_CFG_WIDTH = 0
  else if a = Rg.HOOP_PERIOD.addr then outside v Fl.HOOP_PERIOD_PERIOD 10 1000
  else if a = Rg.HOOP_REPEAT.addr then outside v Fl.HOOP_REPEAT_REPEAT 1 4096
  else if a = Rg.HOOP_SWAP_DELAY.addr then outside v Fl.HOOP_SWAP_DELAY_DELAY 500 10000
  else false

/-- The same for blocks PARSE, TABLE and GROUND/BUF (R136, R151, R158, R160, R163, R169, R185, R192). -/
def tableWordBad (a v : Nat) : Bool :=
  if a = Rg.PARSE_CFG.addr then
    outside v Fl.PARSE_CFG_DEPTH_MAX 1 16 || outside v Fl.PARSE_CFG_BYTES_MAX 64 256 || fieldOf v Fl.PARSE_CFG_BYTES_MAX % 4 != 0
  else if a = Rg.TBL_DMA_SIZE.addr then outside v Fl.TBL_DMA_SIZE_LOG2 4 12
  else if a = Rg.TBL_NODE_CFG.addr then outside v Fl.TBL_NODE_CFG_HOPS_M1 0 254
  else if (List.range 4).any (fun t => t ≠ 0 ∧ a = (Rg.TBL_CFG t).addr) then fieldOf v Fl.TBL_CFG_SIZE % 256 != 0
  else if (Rg.TBL_PORT_CFG 0).addr ≤ a ∧ a ≤ (Rg.TBL_PORT_CFG 51).addr then
    65535 < fieldOf v Fl.TBL_PORT_CFG_DEFAULT_ACT || ((Rg.TBL_PORT_CFG 32).addr ≤ a && fieldOf v Fl.TBL_PORT_CFG_LEARN = 1)
  else if (Rg.TBL_VLAN 0).addr ≤ a ∧ a ≤ (Rg.TBL_VLAN 4095).addr then 65535 < fieldOf v Fl.TBL_VLAN_FLOOD_ACT
  else if a = Rg.BUF_RESERVE.addr then
    fieldOf v Fl.BUF_RESERVE_MGMT = 0 || fieldOf v Fl.BUF_RESERVE_RECIRC = 0 || fieldOf v Fl.BUF_RESERVE_EMIT = 0
  else if (List.range 16).any (fun n => a = (Rg.BUF_WRED_P n).addr) then outside v Fl.BUF_WRED_P_MAXP 0 256
  else if (Rg.BUF_LIMIT 0 0).addr ≤ a ∧ a ≤ (Rg.BUF_LIMIT 47 7).addr then outside v Fl.BUF_LIMIT_LIMIT 0 64512
  else false

/-- The same for blocks SYS, BOBBIN, BRIDGE, KEY, SEAL, EYELET and FAULT (R217, R234, R273, R301, R317, R348, R350, R361, R368, R369,
R372). -/
def unitWordBad (a v : Nat) : Bool :=
  if a = Rg.BOB_CFG.addr then outside v Fl.BOB_CFG_SAFE_AFTER 1 255
  else if (List.range 16).any (fun b => a = (Rg.BOB_EMIT_MAX b).addr) then outside v Fl.BOB_EMIT_MAX_RECORDS 0 2048
  else if a = Rg.BRG_COLLECT.addr then fieldOf v Fl.BRG_COLLECT_TIMEOUT = 0
  else if (List.range 24).any (fun p => a = (Rg.KEY_MSEC_CFG p).addr) then outside v Fl.KEY_MSEC_CFG_WIN_LOG2 0 30
  else if a = Rg.SEAL_TIMING.addr then
    0 < fieldOf v Fl.SEAL_TIMING_COUNT && fieldOf v Fl.SEAL_TIMING_COUNT < 16
  else if a = Rg.FLT_THERM_CFG.addr then outside v Fl.FLT_THERM_CFG_ALERT 60 115 || outside v Fl.FLT_THERM_CFG_RESUME 60 115
  else if (List.range 4).any (fun r => a = (Rg.SYS_SP_RX_CFG r).addr) then outside v Fl.SYS_SP_RX_CFG_LOG2 2 12
  else if a = Rg.SYS_SP_TX_SIZE.addr then outside v Fl.SYS_SP_TX_SIZE_LOG2 2 12
  else if a = Rg.SYS_EVT_SIZE.addr then outside v Fl.SYS_EVT_SIZE_LOG2 4 14
  else if a = Rg.EGR_SAMPLE_SIZE.addr then outside v Fl.EGR_SAMPLE_SIZE_LOG2 4 16
  else if a = Rg.EYE_CFG.addr then outside v Fl.EYE_CFG_PORT 0 23
  else if a = Rg.EYE_TEL.addr then outside v Fl.EYE_TEL_LEN 0 128
  else if (Rg.EYE_TEL_LIST 0).addr ≤ a ∧ a ≤ (Rg.EYE_TEL_LIST 127).addr then outside v Fl.EYE_TEL_LIST_KIND 0 1
  else if (Rg.BOB_CMAP 0 0).addr ≤ a ∧ a ≤ (Rg.BOB_CMAP 255 7).addr + 4 ∧ a / 4 % 2 = 1 then v % 8 = 7 || v / 8 % 4 = 3
  else false

/-- Whether the word `v` at address `a` breaks a range of one field. -/
def wordBad (a v : Nat) : Bool :=
  let p := (a - 0x10100000) / 0x1000
  let e := (a - 0x10500000) / 0x1000
  if a / 0x10000 = 0x1001 then timeWordBad a v
  else if 0x10100000 ≤ a ∧ p < 24 then ethWordBad p a v
  else if 0x10100000 ≤ a ∧ p < 32 then t1sWordBad p a v
  else if 0x10100000 ≤ a ∧ p < 48 then canWordBad p a v
  else if 0x10500000 ≤ a ∧ e < 52 then egrWordBad e a v
  else if 0x10200000 ≤ a ∧ a < 0x10500000 then tableWordBad a v
  else unitWordBad a v

end Sys2Proof.Machine
end

