-- ==== Sys2Proof/Machine/Cross.lean ====
section
/-! DEFINITION. The image checks after END (R14, R53, R75, and the cross-record rules of the chapters), on the state the sections
leave together. Each answers a cause of IMG_SLOT_RESULT, 0 when the rule is kept. -/

namespace Sys2Proof.Machine

/-- The indices of the records of `n` bytes of a region at `base`, `size` bytes long, that hold a byte other than zero. -/
def State.listed (s : State) (base size n : Nat) : List Nat :=
  ((s.sram.filter (fun c => base ≤ c.1 && c.1 < base + size)).map (fun c => (c.1 - base) / n)).eraseDups

/-! ## Time (R45, R53, R56) -/

/-- The guaranteed cycles of an interval of `d` ns of LT (R53). -/
def State.guaranteed (s : State) (d : Nat) : Nat := d * (1000000 - 100 - s.fd Rg.TIME_SLEW_MAX Fl.TIME_SLEW_MAX_PPM) / 1000000

def State.budget (s : State) (a : Nat) : Nat := s.fd (Rg.HOOP_BUDGET a) Fl.HOOP_BUDGET_CYCLES
def State.swapNs (s : State) : Nat := s.fd Rg.HOOP_SWAP_DELAY Fl.HOOP_SWAP_DELAY_DELAY
def State.leadNs (s : State) : Nat := s.fd Rg.BOB_EMIT_LEAD Fl.BOB_EMIT_LEAD_LEAD
def State.offsetNs (s : State) : Nat := s.fd Rg.BOB_EMIT_OFFSET Fl.BOB_EMIT_OFFSET_OFFSET

/-- The phase below the period, pulses shorter than their period, and the budgets of R53. -/
def State.timeCause (s : State) : Nat :=
  let g := s.guaranteed s.period
  firstBad [
    (s.phase ≥ s.period, 0x0B),
    ((List.range 4).any (fun j =>
      let w := 100 * s.fd (Rg.TIME_PPS_OUT_CFG j) Fl.TIME_PPS_OUT_CFG_WIDTH
      match s.fd (Rg.TIME_PPS_OUT_CFG j) Fl.TIME_PPS_OUT_CFG_SRC with
      | 2 => decide (w ≥ s.period)
      | 3 => decide (w ≥ s.repeatNs)
      | _ => false), 0x0B),
    (s.budget 0 + s.budget 1 + s.budget 2 > g, 0x0B),
    ((List.range 6).any (fun a => s.budget a > g), 0x0B),
    ((List.range 16).any (fun b => s.bobBudget b > s.guaranteed (s.period - s.swapNs - s.leadNs)), 0x0B)]

/-! ## Ports (R81, R84, R101, R106 to R108, R123) -/

/-- An Ethernet port: MODE, FEC and taps are checked only where it is enabled. -/
def State.ethCause (s : State) (p : Nat) : Nat :=
  let mode := s.fd (Rg.ETH_CFG p) Fl.ETH_CFG_MODE
  let fec := s.fd (Rg.ETH_CFG p) Fl.ETH_CFG_FEC
  let tap (f : Fld) : Nat := s.fd (Rg.ETH_SERDES_TX p) f
  let on := s.ethOn p
  firstBad [
    (s.flag (Rg.ETH_FC_CFG p) Fl.ETH_FC_CFG_PAUSE_EN && s.fd (Rg.ETH_FC_CFG p) Fl.ETH_FC_CFG_PFC_EN != 0, 0x0B),
    (on && fec = 3, 0x0A),
    (on && tap Fl.ETH_SERDES_TX_MAIN < 32, 0x0A),
    (on && (decide (mode < 2) != decide (p < 4)), 0x0B),
    (on && fec = 1 && mode != 0, 0x0B),
    (on && fec = 2 && mode != 1, 0x0B),
    (on && tap Fl.ETH_SERDES_TX_PRE + tap Fl.ETH_SERDES_TX_MAIN + tap Fl.ETH_SERDES_TX_POST > 63, 0x0B),
    (on && 4 ≤ p && s.flag (Rg.ETH_SERDES_RX p) Fl.ETH_SERDES_RX_ADAPT, 0x0B)]

/-- One phase of CAN bit timing: prescaler, segments, jump width. -/
structure CanPhase where
  brp : Nat
  seg1 : Nat
  seg2 : Nat
  sjw : Nat

/-- Minimum time quanta of a bit. -/
def CanPhase.quanta (c : CanPhase) : Nat := c.brp * (1 + c.seg1 + c.seg2)

/-- A 7-bit field that holds 128 as 0 (R106). -/
def or128 (v : Nat) : Nat := if v = 0 then 128 else v

def State.canNominal (s : State) (p : Nat) : CanPhase :=
  let f (x : Fld) : Nat := s.fd (Rg.CAN_NBT p) x
  ⟨f Fl.CAN_NBT_NBRP, f Fl.CAN_NBT_NTSEG1, or128 (f Fl.CAN_NBT_NTSEG2), or128 (f Fl.CAN_NBT_NSJW)⟩

def State.canFd (s : State) (p : Nat) : CanPhase :=
  let f (x : Fld) : Nat := s.fd (Rg.CAN_DBT p) x
  ⟨f Fl.CAN_DBT_DBRP, f Fl.CAN_DBT_DTSEG1, f Fl.CAN_DBT_DTSEG2, f Fl.CAN_DBT_DSJW⟩

def State.canXl (s : State) (p : Nat) : CanPhase :=
  let f (x : Fld) : Nat := s.fd (Rg.CAN_XBT p) x
  ⟨f Fl.CAN_XBT_XBRP, f Fl.CAN_XBT_XTSEG1, f Fl.CAN_XBT_XTSEG2, f Fl.CAN_XBT_XSJW⟩

/-- Whether a data phase lies in its ranges. -/
def CanPhase.inRange (c : CanPhase) (m1 m2 : Nat) : Bool :=
  1 ≤ c.brp && c.brp ≤ 32 && 1 ≤ c.seg1 && c.seg1 ≤ m1 && 1 ≤ c.seg2 && c.seg2 ≤ m2 && 1 ≤ c.sjw && c.sjw ≤ m2

/-- A CAN controller. R106 speaks of an enabled controller only; the limits of R107 and R108 hold in every MODE. One minimum time
quantum is 12.5 ns: 1, 8 and 20 Mbit/s are 80, 10 and 4 quanta, 250 kbit/s is 320. -/
def State.canCause (s : State) (p : Nat) : Nat :=
  let n := s.canNominal p
  let d := s.canFd p
  let x := s.canXl p
  let fd := s.flag (Rg.CAN_CFG p) Fl.CAN_CFG_FD_EN
  let xl := s.flag (Rg.CAN_CFG p) Fl.CAN_CFG_XL_EN
  let on := s.fd (Rg.CAN_CFG p) Fl.CAN_CFG_MODE != 0
  firstBad [
    (on && (n.brp < 1 || 256 < n.brp || n.seg1 < 2 || 256 < n.seg1 || n.seg2 < 2), 0x0A),
    (on && fd && !d.inRange 32 16, 0x0A),
    (on && xl && !x.inRange 64 32, 0x0A),
    (on && (n.sjw > n.seg2 || n.quanta < 80), 0x0B),
    (s.flag (Rg.CAN_CFG p) Fl.CAN_CFG_TRIPLE && n.quanta < 320, 0x0B),
    (on && fd && (d.sjw > d.seg2 || d.quanta < 10 || d.quanta > n.quanta), 0x0B),
    (on && xl && (x.sjw > x.seg2 || x.quanta < 4 || x.quanta > n.quanta), 0x0B),
    (s.flag (Rg.CAN_TDC p) Fl.CAN_TDC_TDC_EN && d.brp > 2, 0x0B),
    (s.flag (Rg.CAN_TDC p) Fl.CAN_TDC_XTDC_EN && x.brp > 2, 0x0B)]

/-- An enabled T1S port. -/
def State.t1sCause (s : State) (p : Nat) : Nat :=
  let id := s.fd (Rg.T1S_CFG p) Fl.T1S_CFG_NODE_ID
  let cnt := s.fd (Rg.T1S_PLCA p) Fl.T1S_PLCA_NODE_COUNT
  if ¬ s.flag (Rg.T1S_CFG p) Fl.T1S_CFG_ENABLE then 0
  else firstBad [
    (s.fd (Rg.T1S_PLCA p) Fl.T1S_PLCA_TO_TIMER = 0, 0x0A),
    (s.fd (Rg.T1S_BEACON p) Fl.T1S_BEACON_BEACON_PERIOD < 100, 0x0A),
    (if s.flag (Rg.T1S_CFG p) Fl.T1S_CFG_ROLE then id != 0 || cnt < 2 || 16 < cnt else id = 0, 0x0B)]

/-- A wake filter in use without a masked byte (R341). -/
def State.wakeCause (s : State) (p : Nat) : Nat :=
  let v (k : Nat) : Nat := if isEth p then s.rd (Rg.ETH_WAKE_CFG p k) else s.rd (Rg.T1S_WAKE_CFG p k)
  firstBad [((List.range 4).any (fun k => bitOf (v k) 0 && fieldOf (v k) Fl.ETH_WAKE_CFG_MASK = 0), 0x0B)]

/-! ## Tables and action records (R145, R151, R159, R163, R167) -/

/-- Greatest SIZE of a table: FLOW may take the elastic region (R27, R151). -/
def State.sizeMax (s : State) (t : Nat) : Nat :=
  let one := if t = 1 then 8192 else if t = 2 then 24576 else 4096
  if s.tblSingle t then 2 * one else one

def State.tableCause (s : State) : Nat :=
  let ts := [1, 2, 3]
  let visits := (ts.map (fun t =>
    let h := s.fd (Rg.TBL_AGE t) Fl.TBL_AGE_HOOPS
    if h = 0 then 0 else cdiv (s.tblSize t) h)).foldl (· + ·) 0
  firstBad [
    ((s.bankCause Mm.parse).1 != 0 || (s.bankCause (Mm.parse + 0x20000)).1 != 0, 0x0A),
    (ts.any (fun t => s.tblSize t > s.sizeMax t), 0x0B),
    (s.ldr.blobTop > s.mgmtSize, 0x09),
    (s.budget 1 < 2 * visits, 0x0B),
    ((s.listed Mm.act 0x200000 32).any (fun i => actBad (s.actRec i)), 0x0A),
    ((List.range 52).any (fun p =>
      byteAt (s.actRec (s.fd (Rg.TBL_PORT_CFG p) Fl.TBL_PORT_CFG_DEFAULT_ACT)) 0 / 32 % 4 = 0), 0x0B)]

/-! ## Ground, buffers, policers and egress (R185, R187, R192, R196, R205, R206) -/

/-- Whether a policer entry of region 3 has a reserved bit or a state field set. -/
def polRawBad (b : Bytes) : Bool := byteAt b 0 % 128 != 0 || be b 1 3 != 0 || be b 20 12 != 0

def State.bufCause (s : State) : Nat :=
  let share (f : Fld) : Nat := s.fd Rg.BUF_RESERVE f
  let lims := (List.range 48).flatMap (fun p => (List.range 8).map (fun c => s.fd (Rg.BUF_LIMIT p c) Fl.BUF_LIMIT_LIMIT))
  let thr (n : Nat) (f : Fld) : Nat := s.fd (Rg.BUF_WRED_THR n) f
  let named (p c : Nat) (prof : Fld) : Bool :=
    thr (s.fd (Rg.BUF_QCFG p c) prof) Fl.BUF_WRED_THR_MAX > s.fd (Rg.BUF_LIMIT p c) Fl.BUF_LIMIT_LIMIT
  let pols := s.listed Mm.pol 0x80000 32
  firstBad [
    (lims.foldl (· + ·) 0 > 64512, 0x0B),
    (share Fl.BUF_RESERVE_MGMT + share Fl.BUF_RESERVE_RECIRC + share Fl.BUF_RESERVE_EMIT != 16, 0x0B),
    ((List.range 16).any (fun n => thr n Fl.BUF_WRED_THR_MIN > thr n Fl.BUF_WRED_THR_MAX), 0x0B),
    ((List.range 48).any (fun p => (List.range 8).any (fun c =>
      named p c Fl.BUF_QCFG_PROF_G || named p c Fl.BUF_QCFG_PROF_Y)), 0x0B),
    ((s.listed Mm.mc 0x8000 8).any (fun g => !maskOk (s.mcMask g)), 0x0A),
    (pols.any (fun n => polRawBad (s.ram (Mm.pol + 32 * n) 32)), 0x0A),
    (pols.any (fun n => let p := s.policer n; !({ p with pir := 0 } : Policer).ok || 100000000 < p.pir), 0x0A),
    (pols.any (fun n => !(s.policer n).ok), 0x0B)]

/-- Shapers and the gate list of a port. -/
def State.egrCause (s : State) (p : Nat) : Nat :=
  let n := if p < 32 then s.fd (Rg.EGR_GATE_CFG p) Fl.EGR_GATE_CFG_LEN else 0
  firstBad [
    ((List.range 9).any (fun k => s.shOn p k && s.rd (shRate p k) = 0), 0x0A),
    (p < 32 && (s.listed (Mm.gate + 0x800 * p) 0x800 8).any (fun k => s.ramBe (Mm.gate + 0x800 * p + 8 * k + 5) 3 != 0), 0x0A),
    (((List.range n).map (fun k => (s.gateEntry p k).1)).foldl (· + ·) 0 > s.repeatNs, 0x0A)]

/-! ## Signals (R217, R223) -/

/-- A capture map. -/
def State.cmapCause (s : State) (m : Nat) : Nat :=
  let c (f : Nat) (x : Fld) : Nat := s.cmap m f / 2 ^ x.lo % 2 ^ x.width
  let valid (f : Nat) : Bool := c f Fl.BOB_CMAP_VALID = 1
  firstBad [
    ((List.range 8).any (fun f => valid f && c f Fl.BOB_CMAP_FORMAT < 4 && (c f Fl.BOB_CMAP_WIDTH < 1 || 8 < c f Fl.BOB_CMAP_WIDTH)), 0x0B),
    ((List.range 8).any (fun f => valid f && c f Fl.BOB_CMAP_ANCHOR = 2 && 71 < c f Fl.BOB_CMAP_OFFSET), 0x0B),
    ((List.range 8).any (fun f => c f Fl.BOB_CMAP_FORMAT = 6 && (f != 0 || c f Fl.BOB_CMAP_ANCHOR != 1)), 0x0B),
    (c 0 Fl.BOB_CMAP_FORMAT = 6 && (List.range 7).any (fun f => valid (f + 1)), 0x0B),
    ((List.range 8).any (fun f => c f Fl.BOB_CMAP_PORT_REL = 1 && c f Fl.BOB_CMAP_SIG + 51 > 65535), 0x0B)]

/-- Region 10. -/
def State.sigCause (s : State) : Nat :=
  let e (i : Nat) : Bytes := s.ram (Mm.sigInit + 16 * i) 16
  let ix := s.listed Mm.sigInit 0x100000 16
  firstBad [
    (ix.any (fun i => be (e i) 8 6 != 0 || 1 < be (e i) 14 2), 0x0A),
    (ix.any (fun i => be (e i) 14 2 = 0 && be (e i) 0 8 != 0), 0x0B)]

/-! ## Bobbins, templates and the emit schedule (R14, R234 to R242, R245) -/

/-- The program word at an address of a bobbin. -/
def State.progWord (s : State) (b a : Nat) : Nat := s.ramBe (Mm.prog + 0x10000 * b + 4 * a) 4

/-- Indices of the templates present. -/
def State.templates (s : State) : List Nat := s.listed Mm.reg8 0x4000 4

/-- Length in bytes of the frame a template at `a` builds, without FCS, and the entries of a signal update in it. -/
def State.tplSize (s : State) (a : Nat) : Nat × Nat :=
  let k := s.tplByte a 0 % 16
  let n := s.tplByte a 3
  if k < 2 then (s.tplLen a, 0) else (s.tplLen a + 24 + 12 * n, n)

/-- Build cost, cells, and bits on the wire at port 49 of a frame of a template (R14, R176, R237): each record at its template's frame
length, with the 20 bytes of the example of R14 before it. No record is taken as a longer frame than it is. -/
def State.tplCost (s : State) (a : Nat) : Nat × Nat × Nat :=
  let z := s.tplSize a
  let can := s.tplByte a 0 % 16 = 1
  let len := if can then z.1 else z.1 + 4
  (8 + cdiv z.1 64 + z.2, cellsOf len, 8 * (len + 20))

/-- One field of a template outside its range (R238, R239). -/
def State.tplFieldBad (s : State) (a : Nat) : Bool :=
  let b (o : Nat) : Nat := s.tplByte a o
  let k := b 0
  let p := b 1
  let n := b 3
  let slot (i : Nat) : Bytes := s.ram (a + 16 + 4 * i) 4
  3 < k || b 2 % 8 != 0 || b 15 != 0
    || (match k with
      | 0 => !(p < 32 || p = 48) || s.tplLen a < 60
      | 1 => !isCan p || canMalformed (s.tplFrame a)
      | _ => 3 < p || s.tplLen a < 14 || 30 < s.tplLen a)
    || (if k = 3 then n = 0 || 64 < n else 8 < n)
    || (if 2 ≤ k then b 14 = 0 else b 14 != 0 || s.ramBe (a + 12) 2 != 0)
    || (!bitOf (b 2) 3 && s.ramBe (a + 10) 2 != 0)
    || (match k with
      | 0 | 1 => (List.range 8).any (fun i => byteAt (slot i) 3 != 0 || byteAt (slot i) 2 % 8 != 0
          || (i < n && (byteAt (slot i) 2 / 16 = 0 || 8 < byteAt (slot i) 2 / 16)))
      | 2 => (List.range 8).any (fun i => be (slot i) 2 2 != 0)
      | _ => s.ramBe (a + 16) 32 != 0)

/-- A relation of a template's fields, or of a field and a register (R236, R239). -/
def State.tplRelBad (s : State) (a len : Nat) : Bool :=
  let k := s.tplByte a 0
  let n := s.tplByte a 3
  let fl := s.tplLen a
  (k < 2 && (List.range n).any (fun i => s.ramBe (a + 16 + 4 * i) 2 + s.tplByte a (18 + 4 * i) / 16 > fl))
    || (k = 0 && (fl > s.maxFrame (s.tplPort a) - 4 || (bitOf (s.tplByte a 2) 3 && s.ramBe (a + 10) 2 + 20 > fl)))
    || (k = 3 && bitOf (s.tplByte a 2) 4)
    || s.offsetNs + s.ramBe (a + 4) 4 ≥ s.period
    || len != 48 + (fl + 3) / 4 * 4 + (if k = 3 then 4 * n else 0)
    || a < Mm.reg8 + 0xA400 || Mm.reg8 + 0x40000 < a + len

/-- Whether a list of stored emit records at an offset of region 8 is malformed, or names a template that is absent (the latter DESIGN
CHOICE, log 160). -/
def State.storedBad (s : State) (at_ most : Nat) : Bool :=
  let n := s.ramBe at_ 2
  most < n || s.ramBe (at_ + 2) 6 != 0
    || (List.range n).any (fun i =>
      let r := at_ + 8 + 72 * i
      4096 ≤ s.ramBe r 2 || s.ramBe (r + 2) 6 != 0 || s.templateKind (s.ramBe r 2) = 16)

/-- The relay list. -/
def State.relayList (s : State) : List Nat :=
  (List.range (s.ramBe (Mm.reg8 + 0xA000) 2)).map (fun i => s.ramBe (Mm.reg8 + 0xA004 + 2 * i) 2)

/-- The greater of two measures, each by itself; and their sum. -/
def costMax (x y : Nat × Nat × Nat) : Nat × Nat × Nat := (Nat.max x.1 y.1, Nat.max x.2.1 y.2.1, Nat.max x.2.2 y.2.2)
def costAdd (x y : Nat × Nat × Nat) : Nat × Nat × Nat := (x.1 + y.1, x.2.1 + y.2.1, x.2.2 + y.2.2)

/-- The measures of a template by number; absent: none. -/
def State.costOf (s : State) (n : Nat) : Nat × Nat × Nat :=
  match s.template n with
  | some t => s.tplCost t.1
  | none => (0, 0, 0)

/-- Length of a template by number, as its frame stands on the wire of port 49: with the FCS where the frame has one (R14). -/
def State.lengthOf (s : State) (n : Nat) : Nat := (s.costOf n).2.2

/-- The emit schedule of R14 and R237: cycles, cells, bits. The longest template is taken among all kinds; where several are as long,
the greatest of their measures. -/
def State.schedule (s : State) : Nat × Nat × Nat :=
  let ts := s.templates
  let longest := (ts.map s.lengthOf).foldl Nat.max 0
  let big := ((ts.filter (fun n => s.lengthOf n = longest)).map s.costOf).foldl costMax (0, 0, 0)
  ((List.range 16).map (fun b =>
    let m := s.fd (Rg.BOB_EMIT_MAX b) Fl.BOB_EMIT_MAX_RECORDS
    let safe := ((s.safeTable b).map (fun r => s.costOf r.template)).foldl costAdd (0, 0, 0)
    costMax (m * big.1, m * big.2.1, m * big.2.2) safe)).foldl costAdd (0, 0, 0)

/-- Whether two of the bodies share a byte. -/
def overlaps : List (Nat × Nat) → Bool
  | [] => false
  | x :: t => t.any (fun y => x.1 < y.1 + y.2 && y.1 < x.1 + x.2) || overlaps t

/-- The bobbins' part of the image check (R75). A relay list that names an index whose template is absent or not of KIND 3 is a FIELD fault:
DESIGN CHOICE (log 160). -/
def State.bobCause (s : State) : Nat :=
  let ts := s.templates.filterMap s.template
  let emax (b : Nat) : Nat := s.fd (Rg.BOB_EMIT_MAX b) Fl.BOB_EMIT_MAX_RECORDS
  let z := s.schedule
  let rl := s.relayList
  firstBad [
    ((List.range 16).any (fun b => !progOk (s.progWord b) 16384 0 ⟨[], [], []⟩), 0x0A),
    (ts.any (fun t => s.tplFieldBad t.1), 0x0A),
    ((List.range 16).any (fun b => s.storedBad (Mm.reg8 + 0x4000 + 0x400 * b) 14) || s.storedBad (Mm.reg8 + 0x8000) 64, 0x0A),
    (64 < rl.length || s.ramBe (Mm.reg8 + 0xA002) 2 != 0 || rl.any (fun n => s.templateKind n != 3), 0x0A),
    (s.leadNs < 1000 || s.period < s.leadNs + s.swapNs + 1000 || s.period < s.offsetNs + 1000, 0x0B),
    (ts.any (fun t => s.tplRelBad t.1 t.2) || overlaps ts, 0x0B),
    ((List.range 16).any (fun b => s.ramBe (Mm.reg8 + 0x4000 + 0x400 * b) 2 > emax b), 0x0B),
    (((List.range 16).map emax).foldl (· + ·) 0 > 2048, 0x0B),
    (rl ≠ [] ∧ s.offsetNs < s.swapNs, 0x0B),
    ((rl.map s.costOf).foldl (fun n x => n + x.1) 0 > s.guaranteed (s.offsetNs - s.swapNs), 0x0B),
    (z.1 > s.guaranteed s.leadNs, 0x0B),
    (z.2.1 > s.share 3, 0x0B),
    (z.2.2 > 25 * s.period, 0x0B)]

/-! ## Bridge, keys, eyelet, GPIO, temperature (R277, R279, R302, R303, R350, R356, R361, R377) -/

/-- Whether a template may be an error-report template (R277). -/
def State.errTemplateOk (s : State) (n : Nat) : Bool :=
  match s.template n with
  | none => false
  | some t =>
    let a := t.1
    let ip := s.ramBe (a + 10) 2
    let d := s.tplFrame a
    let v := byteAt d ip / 16
    s.tplByte a 0 = 0 && s.tplByte a 3 = 0 && bitOf (s.tplByte a 2) 3
      && ((v = 4 && s.tplLen a = ip + 4 * (byteAt d ip % 16) + 8) || (v = 6 && s.tplLen a = ip + 48))

/-- The pinned route of a far-side object address, if BMAP holds one. -/
def State.routeAt (s : State) (addr : Nat) : Option Bytes := (s.brgRoute addr).1

def State.brgCause (s : State) : Nat :=
  firstBad [
    ((List.range 64).any (fun i => s.flag (Rg.BRG_INIT i) Fl.BRG_INIT_VALID && !s.errTemplateOk (s.fd (Rg.BRG_INIT i) Fl.BRG_INIT_ERR_TEMPLATE)), 0x0B),
    (s.flag Rg.BRG_POLL_CFG Fl.BRG_POLL_CFG_EN &&
      (List.range (s.fd Rg.BRG_POLL_CFG Fl.BRG_POLL_CFG_LEN_M1 + 1)).any (fun n =>
        match s.routeAt (s.fd (Rg.BRG_POLL n) Fl.BRG_POLL_ADDR) with
        | none => true
        | some r => rtSensitive r), 0x0B)]

/-- Frames of 64 bytes a port carries in a second, times 672 (R303). -/
def State.pnCause (s : State) (p : Nat) : Bool :=
  s.msecOn p && !s.msecXpn p
    && s.epochHoops p * s.period * 1001 * s.portRate p ≥ (2 ^ 32 - 1) * 672 * 1000 * 1000000000

/-- Whether key slot `k` is of TYPE `t`, with a usage and a master. -/
def State.slotFits (s : State) (k t usage master : Nat) : Bool :=
  let a := (s.keySlot k).attr
  (s.keySlot k).st != 0 && ksType a = t && bitOf (byteAt a 5) usage && bitOf (byteAt a 4) master

/-- The registers of the telemetry list. -/
def State.telCause (s : State) : Nat :=
  let es := (List.range (s.fd Rg.EYE_TEL Fl.EYE_TEL_LEN)).map (fun n => s.rd (Rg.EYE_TEL_LIST n))
  let arg (e : Nat) : Nat := fieldOf e Fl.EYE_TEL_LIST_ARG
  let regBad (e : Nat) : Bool :=
    let a := 0x10000000 + arg e
    a % 4 != 0 || a / 0x10000 = 0x1080
      || (match blockAt a with
        | none => true
        | some b => (rowOf b.1 b.2).isNone)
  let kind (e : Nat) : Nat := fieldOf e Fl.EYE_TEL_LIST_KIND
  firstBad [
    (es.any (fun e => kind e = 0 && regBad e), 0x0B),
    (es.any (fun e => kind e = 1 && 416 ≤ arg e), 0x0A),
    (es.foldl (fun n e => n + (if kind e = 0 then 4 else 16)) 0 > 1024, 0x0B)]

def State.unitCause (s : State) : Nat :=
  firstBad [
    (s.budget 3 * s.repeatLen < 240 * s.msecPorts.length, 0x0B),
    ((List.range 24).any s.pnCause, 0x0B),
    (s.flag Rg.EYE_CFG Fl.EYE_CFG_EN && !s.slotFits (s.fd Rg.EYE_CFG Fl.EYE_CFG_KEY_SLOT) 2 KeyOp.derive Master.eyelet, 0x0B),
    (s.rd Rg.GPIO_OE % 256 &&& s.fd Rg.SYS_WAKE_EN Fl.SYS_WAKE_EN_GPIO != 0, 0x0B),
    (s.fd Rg.FLT_THERM_CFG Fl.FLT_THERM_CFG_RESUME ≥ s.fd Rg.FLT_THERM_CFG Fl.FLT_THERM_CFG_ALERT, 0x0B)]

/-! ## The sections (R75) -/

/-- The first cause that is not 0. -/
def firstCause (l : List Nat) : Nat := (l.find? (· ≠ 0)).getD 0

/-- The rules of the operator section. -/
def State.operatorCause (s : State) : Nat :=
  firstCause ([s.timeCause] ++ (List.range 24).map s.ethCause ++ (List.range' 32 16).map s.canCause ++ (List.range' 24 8).map s.t1sCause
    ++ (List.range 32).map s.wakeCause ++ [s.tableCause, s.bufCause] ++ (List.range 52).map s.egrCause
    ++ (List.range 256).map s.cmapCause ++ [s.sigCause, s.bobCause, s.brgCause, s.telCause, s.unitCause])

/-- Whether an evidence template is malformed (R307): in its fields; in the sum of its lengths. -/
def evFieldBad (b : Bytes) : Bool :=
  let n := byteAt b 2
  let f (i : Nat) : Bytes := slice b (8 + 4 * i) 4
  byteAt b 0 % 128 != 0 || 16 < n || be b 3 5 != 0 || be b 72 184 != 0
    || (List.range 16).any (fun i =>
      if i < n then 2 < byteAt (f i) 0 || byteAt (f i) 1 = 0 || 96 < byteAt (f i) 1 || (if byteAt (f i) 0 = 2 then 71 else 2047) < be (f i) 2 2
      else be (f i) 0 4 != 0)

def evSumBad (b : Bytes) : Bool := ((List.range (byteAt b 2)).map (fun i => byteAt b (9 + 4 * i))).foldl (· + ·) 0 > 96

/-- The rules of the metrology section. -/
def State.metrologyCause (s : State) : Nat :=
  let ts := (s.listed Mm.evt 0x4000 256).map (fun t => s.ram (Mm.evt + 256 * t) 256)
  firstBad [
    (s.rd Rg.SEAL_TIMING = 0, 0x0A),
    (ts.any evFieldBad, 0x0A),
    (ts.any evSumBad, 0x0B),
    ((s.listed Mm.act 0x200000 32).any (fun i =>
      bitOf (byteAt (s.actRec i) 0) 0 && !bitOf (byteAt (s.ram (Mm.evt + 256 * byteAt (s.actRec i) 6) 1) 0) 7), 0x0B),
    (!s.slotFits (s.fd Rg.SEAL_CFG Fl.SEAL_CFG_KEY_SLOT) 3 KeyOp.sign Master.sealUnit
      || ksWorld (s.keySlot (s.fd Rg.SEAL_CFG Fl.SEAL_CFG_KEY_SLOT)).attr != 2, 0x0B)]

end Sys2Proof.Machine
end

