-- ==== Sys2Proof/Machine/Start.lean ====
section
/-! DEFINITION. What a reset keeps (R9, R345), how a start begins (R29, R38, R66, R69, R284, R335), and the lock that ends it (R49,
R77, R78). -/

namespace Sys2Proof.Machine

/-! ## What a reset keeps -/

/-- The row and word of a register address. -/
def regRow (a : Nat) : Option (RegD × Nat) := (blockAt a).bind (fun b => rowOf b.1 b.2)

/-- A register word after a reset that keeps the fields of which `keep` holds; `whole` names words kept as they are. -/
def keptWord (keep : FieldD → Bool) (whole : Nat → Bool) (e : Nat × Word) : Option (Nat × Word) :=
  if whole e.1 then some e
  else
    match regRow e.1 with
    | none => none
    | some (r, w) =>
      let m := r.mask w keep
      let d := resetAt r w e.1
      let v := (e.2.toNat &&& m) ||| (d ^^^ (d &&& m))
      if BitVec.ofNat 32 v = BitVec.ofNat 32 d then none else some (e.1, BitVec.ofNat 32 v)

/-- The registers after a reset. -/
def State.keptRegs (s : State) (keep : FieldD → Bool) (whole : Nat → Bool := fun _ => false) : List (Nat × Word) :=
  s.regs.filterMap (keptWord keep whole)

/-- What a staging operation that a reset cuts off has left in its block or page is open. -/
def State.cutStage (s : State) : State :=
  match s.stg with
  | some j =>
    let n := if j.op = 1 then 65536 else 256
    if j.op = 3 then { s with stg := none }
    else
      let r := s.freeBytes n
      { r.2 with ospi0 := sfill r.2.ospi0 (0x1000000 * j.slot + j.off) erased r.1, stg := none }
  | none => s

/-- The core domain resets: registers keep the fields of their letter, the always-on domain, OTP and the flash stay, and memories and
queues are lost (R345). Where the hoop sequencer ran, the always-on domain records the index at which it stopped (R280). LEGAL_HALT stays asserted until the lock (R325). -/
def State.coreReset (s0 : State) (keep : FieldD → Bool) : State :=
  let s := s0.cutStage
  let p := s.pwr
  let t : State := { State.reset with
    regs := s.keptRegs keep
    ospi0 := s.ospi0
    ospi1 := s.ospi1
    otp := s.otp
    sent := s.sent
    phy := s.phy
    freeCtr := s.freeCtr
    pending := s.pending
    pwr := { powerInit with
      phase := p.phase
      cause := p.cause
      resetNHigh := p.resetNHigh
      faultLow := p.faultLow
      freshFault := p.freshFault
      dbgMark := p.dbgMark
      oscCount := p.oscCount
      pwrfail := p.pwrfail
      node := p.node }
    pins := { pinsInit with
      faultNLow := s.pins.faultNLow
      gpioIn := s.pins.gpioIn
      ppsOutCnt := s.pins.ppsOutCnt
      ospiBad := s.pins.ospiBad
      ospiBad1 := s.pins.ospiBad1 }
    clk := { clockInit with
      trustWas := s.clk.trustWas
      pendTrust := s.clk.pendTrust
      lateTrust := s.clk.lateTrust
      lostAt := s.clk.lostAt
      reportAt := s.raw
      boundRaw := s.clk.boundRaw }
    chain := { s.chain with
      buf := []
      wr := 0
      due := false
      stopHoop := if s.hoopsRun ∧ p.phase ≠ .pfailHold then s.hoopIx else s.chain.stopHoop
      lostSeqs := []
      foreign := false
      stopped := false } }
  t.sf Rg.TIME_STATUS Fl.TIME_STATUS_TRUST s.trust

/-- The registers a load that reverts leaves alone: those of block IMAGE, the eyelet epoch, and the trust and cause of the start. -/
def loadKeeps (a : Nat) : Bool := a / 0x10000 = 0x1002 || a = Rg.EYE_EPOCH.addr || a = Rg.TIME_STATUS.addr

/-- TIME_RATE as the start found it, with LT continuous (R31): a load that reverts takes its own write back. -/
def State.rateBack (s : State) : State :=
  let c := signed 32 s.ldr.rate
  (s.setOffset (s.offset + scaledRaw s.raw s.rate - scaledRaw s.raw c)).wr Rg.TIME_RATE s.ldr.rate

/-- A load reverts (R71): SRAM is zeroed, and every other register returns to its Reset value; TIME_RATE, which the resets keep, to the
value the start found (DEDUCED, log 44). Events, OTP, flash, MDIO writes and what the always-on domain holds stay. -/
def State.blank (s0 : State) : State :=
  let s := s0.rateBack
  let t := s.coreReset (fun f => f.w)
  { t with
    ldr := { ldrInit with rate := s.ldr.rate }
    regs := s.keptRegs (fun f => f.w) loadKeeps
    ospi0 := s.ospi0
    ev := s.ev
    pwr := s.pwr
    pins := s.pins
    clk := s.clk
    otpRead := s.otpRead
    stg := s.stg
    eye := s.eye
    freeCtr := s.freeCtr
    brg := { brgInit with notice := s.brg.notice } }

/-! ## A start begins -/

/-- The order in which causes that fall together are recorded (R335). -/
def causeOrder : List Nat := [0, 8, 1, 7, 9, 6, 4, 2, 10, 3, 5]

/-- Of two causes, the one recorded. -/
def firstOf (a b : Nat) : Nat := if causeOrder.idxOf a ≤ causeOrder.idxOf b then a else b

/-- Sync is lost with the reset, flush or hold that begins now, where trust is SYNCED (R38). -/
def State.noteLoss (s : State) : State :=
  if ¬ s.lossNoted ∧ s.trust = Trust.synced ∧ s.wantTrust = Trust.synced then { s with clk := { s.clk with lostAt := s.raw } } else s

/-- TIME_RAW has missed more than 1 ms (R29): TIME_RAW_STALLED with the difference in microseconds, and trust is DEGRADED. -/
def State.stallCheck (s : State) : State :=
  if s.pwr.oscCount > 1000000 then (s.setTrust Trust.degraded).raise 0x0206 noPort (s.pwr.oscCount / 1000) else s

/-- The loader reads OTP (R66), and the nonce is drawn (R69); the eyelet epoch is its bytes 0 to 3 (R357). -/
def State.readOtp (s : State) : State :=
  let r := ({ s with otpRead := s.otp } : State).freeBytes 16
  let s1 := ((r.2.wrBytes Rg.IMG_DBG_NONCE r.1).wr Rg.EYE_EPOCH (be r.1 0 4)).wrBytes Rg.IMG_UID s.otp.uid
  let s2 := (s1.sf Rg.IMG_LIFECYCLE Fl.IMG_LIFECYCLE_STATE s.otp.lifecycle).sf Rg.IMG_ROLLBACK Fl.IMG_ROLLBACK_FLOOR s.otp.floor
  s2.sf Rg.IMG_NODE Fl.IMG_NODE_OTP_LOCK (b2n s.otp.lockOn)

/-- The outputs of a hold: every transmitter sends nothing (R349, R351). -/
def Pads.quiet (p : Pads) : Pads := { p with canTxd := .high, sdTx := .idle, t1s := .highZ }

/-- The power-fail hold (R351), outwardly like the thermal safe hold: FAULT_N is asserted, and LEGAL_HALT with cause 5, that of PWRFAIL_N
(R325); GPIO is high-impedance (R377). -/
def State.pfailEnter (s : State) : State :=
  let s1 := s.haltOn 5
  { s1 with pwr := { s1.pwr with phase := .pfailHold }, pins := { s1.pins with faultNLow := true, gpioDriven := false, pads := s1.pins.pads.quiet } }

/-- A start begins in a core domain that has been reset: cause and boot count, OTP, slot 0 of the key store, and trust (R335, R284, R38).
OSPI0_RESET_N and
OSPI1_RESET_N are low for 10 microseconds (R390). With PWRFAIL_N low the loader stops at once in the power-fail hold (R386). -/
def State.startBegin (s : State) (cause : Nat) : State :=
  let s1 : State := { s with pwr := { s.pwr with phase := .start, cause := cause }, pins := { s.pins with faultNLow := s.pwr.faultLow, pads := padsStart, ospiTill := s.raw + us 10 } }
  let s2 := (s1.sf Rg.SYS_RESET_CAUSE Fl.SYS_RESET_CAUSE_CAUSE cause).incr Rg.SYS_BOOT_COUNT
  let s3 := s2.readOtp.fixedSlots none none none
  let s4 : State := { (s3.startTrust s3.clk.lostAt).stallCheck with ldr := { ldrInit with rate := s3.rd Rg.TIME_RATE } }
  if s4.pwr.pwrfail then s4.pfailEnter else s4

/-! ## The lock -/

/-- The hoop sequencer takes its index, position and latest boundary from LT (R46, R72). -/
def State.hoopSync (s : State) : State :=
  let n := s.countAt s.ltNs
  let b := n * ((s.period : Nat) : Int) + ((s.phase : Nat) : Int)
  let s1 := ((s.wr64 Rg.HOOP_COUNT (unsigned 64 n)).wr Rg.HOOP_INDEX (unsigned 32 n)).sf Rg.HOOP_POS Fl.HOOP_POS_POS
    (n % ((Nat.max 1 s.repeatLen : Nat) : Int)).toNat
  s1.wr64 Rg.HOOP_LAST_B (unsigned 64 b)

/-- The policers as the lock sets them (R196): every entry's buckets and LAST. -/
def State.policerStart (s : State) : State :=
  s.fillRam Mm.pol ((List.range 16384).flatMap (fun n => ((s.policer n).init s.now3).bytes))

/-- The ports as the lock leaves them: a cut-through threshold at its floor (R100), full shapers (R205), the gate maxima (R206). -/
def State.portStart (s : State) (p : Nat) : State :=
  let s1 := if isEth p then s.sf (Rg.ETH_TX_THRESH p) Fl.ETH_TX_THRESH_CURRENT (s.fd (Rg.ETH_TX_THRESH p) Fl.ETH_TX_THRESH_FLOOR) else s
  let s2 := s1.wr (Rg.EGR_PSHAPE_TOKENS p) (s1.fd (Rg.EGR_PSHAPE_BURST p) Fl.EGR_PSHAPE_BURST_BURST)
  let s3 := (List.range 8).foldl (fun t c => t.wr (Rg.EGR_QSHAPE_TOKENS p c) (t.fd (Rg.EGR_QSHAPE_BURST p c) Fl.EGR_QSHAPE_BURST_BURST)) s2
  let s4 := s3.setEgrP p { s3.egrP p with shapeAt := s3.raw }
  if p < 32 then s4.setWmax p else s4

/-- The tables as the lock leaves them: seeds of the first bank, live action records, and the initial parse bank (R153, R161, R148). -/
def State.tableStart (s : State) : State :=
  let s1 := [1, 2, 3].foldl (fun t k => t.wr64 (Rg.TBL_SEED k) (t.rd64 (Rg.TBL_SEED_INIT k))) s
  let live := (s1.listed Mm.act 0x200000 32).filter (fun i => bitOf (byteAt (s1.actRec i) 0) 7)
  let s2 := s1.setTbl (fun b => { b with live := live })
  (s2.sf Rg.PARSE_BANK_STATUS Fl.PARSE_BANK_STATUS_ACTIVE (s2.fd Rg.PARSE_CFG Fl.PARSE_CFG_INIT_BANK)).sf Rg.PARSE_BANK_STATUS
    Fl.PARSE_BANK_STATUS_VALIDATED 1

/-- A bobbin with a budget is ready to run (R227). -/
def State.laneStart (s : State) (b : Nat) : State :=
  if s.bobBudget b > 0 then s.sf (Rg.BOB_STATUS b) Fl.BOB_STATUS_STATE 1 else s

/-- Shows the watchdog's count; that of 65,536 boundaries, for which REMAIN has no bits, is open. -/
def State.wdogShow (s : State) : State :=
  if s.pwr.wdog < 65536 then s.sf Rg.FLT_WDOG_STATUS Fl.FLT_WDOG_STATUS_REMAIN s.pwr.wdog
  else s.freeNat.2.sf Rg.FLT_WDOG_STATUS Fl.FLT_WDOG_STATUS_REMAIN s.freeNat.1

/-- The watchdog restarts at its full period (R336). -/
def State.wdogFull (s : State) : State :=
  ({ s with pwr := { s.pwr with wdog := s.fd Rg.FLT_WDOG_CFG Fl.FLT_WDOG_CFG_PERIOD_M1 + 1, wdogWarned := false } } : State).wdogShow

/-- A part that starts without metrology keeps no metrology-world key slot (R78). -/
def State.dropMetro (s : State) : State :=
  { s with keys := { s.keys with slots := s.keys.slots.filter (fun e => ksWorld e.2.attr ≠ 2) } }

/-- The events of the start, once the ring can take them (R335). -/
def State.startEvents (s : State) : State :=
  let s1 := s.raise 0x1002 noPort (s.fd Rg.SYS_RESET_CAUSE Fl.SYS_RESET_CAUSE_CAUSE + 2 ^ 32 * s.rd Rg.SYS_BOOT_COUNT)
  if s.pwr.freshFault then s1.raise 0x0F03 noPort (s.rd Rg.FLT_LAST_FAULT + 2 ^ 32 * s.rd Rg.FLT_LAST_FAULT_HOOP) else s1

/-- The final checks have passed (R77): SRW fields and regions lock, the cores are released, and the hoop sequencer runs; forwarding
begins at the first boundary. -/
def State.lock (s0 : State) : State :=
  let metro := s0.ldr.metro
  let s := (if metro then s0 else s0.dropMetro).hoopSync
  let s1 := (s.sf Rg.IMG_STATUS Fl.IMG_STATUS_LOCKED 1).sf Rg.IMG_STATUS Fl.IMG_STATUS_METRO_VALID (b2n metro)
  let s2 := ((List.range 8).foldl (fun t k => t.plcaStart (24 + k)) ((List.range 52).foldl State.portStart s1)).tableStart.policerStart.sigStart
  let s3 := (List.range 16).foldl State.laneStart s2
  let s4 := (s3.msecStart (s3.hoopCount + 1)).brgStart
  let s5 : State := { s4 with
    brg := { s4.brg with notice := some (if s.warmStart then 0 else 1, s.lastIndex) }
    pwr := { s4.pwr with phase := .run, fwd := false, faultLow := false, busyRep := true }
    pins := { s4.pins with faultNLow := false, gpioDriven := true, pads := { s4.pins.pads with ospiResetN := .driven } } }
  let s6 := s5.wdogFull.startEvents
  let s7 : State := { s6 with
    pwr := { s6.pwr with freshFault := false, relock := false }
    clk := { s6.clk with ppsAt := sset (sset [] 0 0 s6.raw) 1 0 s6.raw, lockRaw := s6.raw } }
  s7.haltOn (if metro then 2 else 1)

end Sys2Proof.Machine
end

