-- ==== Sys2Proof/Machine/Records.lean ====
section
/-! DEFINITION. The records of an image (R62 to R68, R88, R285): what each does to the state, or why it rejects its section. Each
function is used by the record's own command and by the loader when it streams a slot. -/

namespace Sys2Proof.Machine

/-- The outcome of a record or a check: the state after it, or the cause of the rejection as IMG_SLOT_RESULT codes it. -/
abbrev Rec := Except Nat State

/-- Changes the loader's own part of the state. -/
def State.setLdr (s : State) (f : Loader → Loader) : State := { s with ldr := f s.ldr }

/-! ## WRITE and CHECK (R63, R64) -/

/-- The registers of block KEY/CIPHER an operator section may write (R64). -/
def keyWritable (a : Nat) : Bool :=
  a = Rg.KEY_CFG.addr || a = Rg.CIPH_CFG.addr
    || (List.range 24).any (fun p => a = (Rg.KEY_MSEC_CFG p).addr || a = (Rg.KEY_MSEC_PEER p).addr
      || a = (Rg.KEY_MSEC_SCI p).addr || a = (Rg.KEY_MSEC_SCI p).addr + 4
      || a = (Rg.KEY_MSEC_RX_SCI p).addr || a = (Rg.KEY_MSEC_RX_SCI p).addr + 4)

/-- Whether a section may write a block's register (R64). -/
def sectWrites (sec : Sect) (a : Nat) : Bool :=
  let metro := a / 0x10000 = 0x1090 || a = Rg.TIME_SYNC_CFG.addr
  match sec with
  | .vendor => false
  | .operator => !metro && a / 0x10000 ≠ 0x1002 && (a / 0x10000 ≠ 0x1080 || keyWritable a)
  | .metrology => metro

/-- The types a WRITE record acts on. -/
def FieldD.loadable (f : FieldD) : Bool := f.acc = .rw || f.acc = .srw

/-- WRITE: the register becomes (old & ~mask) | (value & mask) in its RW and SRW fields. -/
def State.recWrite (s : State) (sec : Sect) (a v m : Nat) : Rec :=
  match regRow a with
  | none => .error 0x09
  | some (r, w) =>
    if ¬ sectWrites sec a ∨ ¬ r.fields.any FieldD.loadable then .error 0x09
    else if m = 0 then .ok s
    else
      let old := s.wordAt r w a
      let mk := m &&& r.mask w FieldD.loadable
      let new := (old ^^^ (old &&& mk)) ||| (v &&& mk)
      if v &&& m &&& r.mask w (fun f => f.res) ≠ 0 ∨ wordBad a new then .error 0x0A
      else if a = Rg.TIME_RATE.addr then .ok (s.timeRateWrite new)
      else .ok { s with regs := sset s.regs a (BitVec.ofNat 32 (resetAt r w a)) (BitVec.ofNat 32 new) }

/-- CHECK: the register read under the mask must equal the expected value. -/
def State.recCheck (s : State) (a m expected : Nat) : Rec :=
  match regRow a with
  | none => .error 0x0C
  | some (r, w) => if s.rowWord r w a &&& m = expected then .ok s else .error 0x0C

/-! ## TABLE (R63, R152) -/

/-- Whether key and result of a TABLE record have a reserved bit set, or a field outside its range (R152, R160, R262). -/
def tableFieldBad (t : Nat) (key res : Bytes) : Bool :=
  match t with
  | 1 => byteAt key 0 / 16 != 0 || byteAt res 0 / 64 = 3 || byteAt res 0 / 16 % 4 != 0
    || (byteAt res 0 / 64 = 0 && 51 < be res 0 2 % 4096) || 65535 < be res 2 4
  | 2 => byteAt key 0 / 16 != 0 || 65535 < be res 0 4
  | 3 => !routeShape res
  | _ => byteAt res 0 % 32 != 0 || byteAt res 0 / 32 % 4 = 3 || byteAt res 1 != 0 || 4095 < be res 2 2
    || (byteAt res 0 / 32 % 4 = 0 && 51 < be res 2 2) || 65535 < be res 4 4

/-- Key and result length of each table. -/
def tableLens (t : Nat) : Option (Nat × Nat) :=
  match t with
  | 1 => some (8, 6)
  | 2 => some (41, 4)
  | 3 => some (2, 12)
  | 4 => some (2, 8)
  | _ => none

/-- TABLE: a pinned entry. It waits until END, when sizes and seeds stand (R75). -/
def State.recTable (s : State) (t : Nat) (key res : Bytes) : Rec :=
  if tableLens t ≠ some (key.length, res.length) then .error 0x08
  else if tableFieldBad t key res then .error 0x0A
  else .ok (s.setLdr (fun l => { l with entries := l.entries ++ [(t, if t = 4 then key ++ res else eMake t 0xE0 key res)] }))

/-- The key under which a waiting entry is known. -/
def waitKey (e : Nat × Bytes) : Nat × Bytes := (e.1, if e.1 = 4 then e.2.take 2 else eKey e.1 e.2)

/-- Places one waiting entry by the insertion of R164. -/
def State.placeOne (s : State) (e : Nat × Bytes) : Rec :=
  if e.1 = 4 then .ok (s.setRam (Mm.node + 8 * be e.2 0 2) (e.2.drop 2))
  else if s.tblSize e.1 = 0 ∨ (e.1 = 3 ∧ ¬ s.routePort (e.2.drop 4)) then .error 0x0B
  else
    match s.insertion e.1 e.2 with
    | .done ws _ => .ok (s.putAll e.1 ws)
    | _ => .error 0x0B

/-- Places the waiting entries in image order, under the seeds of the first bank; two with one key reject the section. -/
def State.placeAll (s : State) : Rec :=
  let es := s.ldr.entries
  let s1 := [1, 2, 3].foldl (fun t k => t.wr64 (Rg.TBL_SEED k) (t.rd64 (Rg.TBL_SEED_INIT k))) s
  let dup := (es.map waitKey).eraseDups.length ≠ es.length
  if dup then .error 0x0B
  else (es.foldlM State.placeOne s1).map (fun t => t.setLdr (fun l => { l with entries := [] }))

/-! ## BLOB (R63, R64) -/

/-- Where a region lies, and its size. Region 0 is management memory: 12 MiB here, and where the elastic region is the flow table's the
check after END holds it to 8 MiB (`State.tableCause`). -/
def regionAt (r : Nat) : Option (Nat × Nat) :=
  match r with
  | 0 => some (0, 0xC00000)
  | 1 => some (Mm.act, 0x200000)
  | 2 => some (Mm.mc, 0x8000)
  | 3 => some (Mm.pol, 0x80000)
  | 4 => some (Mm.parse, 0x20000)
  | 5 => some (Mm.parse + 0x20000, 0x20000)
  | 6 => some (Mm.prog, 0x100000)
  | 7 => some (Mm.priv, 0x100000)
  | 8 => some (Mm.reg8, 0x40000)
  | 9 => some (Mm.gate, 0x10000)
  | 10 => some (Mm.sigInit, 0x100000)
  | 11 => some (Mm.evt, 0x4000)
  | _ => none

/-- The part of a region a section may fill: from, up to. -/
def sectSpan (sec : Sect) (r size : Nat) : Option (Nat × Nat) :=
  match sec with
  | .vendor => if r = 0 then some (0, 0x400000) else none
  | .operator => if r = 0 then some (0x400000, size) else if r ≤ 10 then some (0, size) else none
  | .metrology => if r = 11 then some (0, size) else none

/-- BLOB: the data go into the region at the offset. -/
def State.recBlob (s : State) (sec : Sect) (r off : Nat) (data : Bytes) : Rec :=
  match regionAt r with
  | none => .error 0x09
  | some (base, size) =>
    match sectSpan sec r size with
    | none => .error 0x09
    | some (lo, hi) =>
      if off < lo ∨ hi < off + data.length then .error 0x09
      else if r = 0 then .ok ((s.fillMem off data).setLdr (fun l => { l with blobTop := Nat.max l.blobTop (off + data.length) }))
      else .ok (s.fillRam (base + off) data)

/-! ## MDIO (R62, R71, R88) -/

/-- MDIO: the access is held back until the digest of its section has matched. -/
def State.recMdio (s : State) (w : PhyWrite) : Rec :=
  let addrOk := if w.clause = 22 then w.device = 0 ∧ w.reg < 32 else w.clause = 45 ∧ w.device < 32
  if ¬ (4 ≤ w.port ∧ w.port < 24 ∧ w.phy < 32 ∧ w.wait ≤ 10000 ∧ addrOk) then .error 0x0A
  else .ok (s.setLdr (fun l => { l with mdio := l.mdio ++ [w] }))

/-- The time of an access and its wait, in ns. -/
def PhyWrite.ns (w : PhyWrite) : Nat := (if w.clause = 22 then 25600 else 51200) + 1000 * w.wait

/-- The held accesses run in image order; more than 5.0 ms of them rejects the section. -/
def State.runMdio (s : State) : Rec :=
  if (s.ldr.mdio.map PhyWrite.ns).foldl (· + ·) 0 > 5000000 then .error 0x0B
  else
    let t := s.ldr.mdio.foldl (fun t w => ({ t with phy := t.phy ++ [w] } : State).advance w.ns) s
    .ok (t.setLdr (fun l => { l with mdio := [] }))

/-! ## KEYSLOT, AUTH_KEY, LIFECYCLE (R67, R68, R285) -/

/-- KEYSLOT. A slot that the metrology section defines is noted as its own. -/
def State.recKeyslot (s : State) (metro : Bool) (p : Bytes) : Rec :=
  (s.defineSlot p s.node).map (fun t => if metro then t.setLdr (fun l => { l with mslots := byteAt p 0 :: l.mslots }) else t)

/-- AUTH_KEY: fuses the digest of the key into the authority's next free slot. -/
def State.recAuthKey (s : State) (p : Bytes) : Rec :=
  let au := byteAt p 0
  let d := shake512 (slice p 4 57)
  let used := if au = 2 then s.otp.operDig else s.otp.metroDig
  if p.length ≠ 64 ∨ be p 1 3 ≠ 0 ∨ be p 61 3 ≠ 0 then .error 0x08
  else if au ≠ 2 ∧ au ≠ 3 then .error 0x0A
  else if used.length ≥ 4 then .error 0x0E
  else
    let o := if au = 2 then { s.otp with operDig := used ++ [d] } else { s.otp with metroDig := used ++ [d] }
    .ok (({ s with otp := o } : State).raise 0x0307 noPort (au + 4 * used.length))

/-- LIFECYCLE: fuses the next state; to PROVISIONED it fuses slot 0 of both authorities. The state in force changes at the next start. -/
def State.recLifecycle (s : State) (p : Bytes) : Rec :=
  let t := byteAt p 0
  if p.length ≠ (if t = 1 then 120 else 4) ∨ be p 1 3 ≠ 0 ∨ (t = 1 ∧ be p 118 2 ≠ 0) then .error 0x08
  else if t > 4 then .error 0x0A
  else if t ≠ s.lifecycle + 1 ∨ s.otp.lifecycle ≠ s.lifecycle ∨ (t = 1 ∧ (s.otp.operDig ≠ [] ∨ s.otp.metroDig ≠ [])) then .error 0x0E
  else
    let o := { s.otp with lifecycle := t }
    let o1 := if t = 1 then { o with operDig := [shake512 (slice p 4 57)], metroDig := [shake512 (slice p 61 57)] } else o
    .ok (({ s with otp := o1 } : State).raise 0x0308 noPort (s.lifecycle + 8 * t))

/-! ## DUAL (R65) -/

/-- What an inner record does. -/
def State.recInner (s : State) (r : Bytes) : Rec :=
  match byteAt r 0 with
  | 0x10 => if r.length = 132 then s.recKeyslot false (r.drop 4) else .error 0x0D
  | 0x11 => if r.length = 68 then s.recAuthKey (r.drop 4) else .error 0x0D
  | 0x12 => if r.length = 8 ∨ r.length = 124 then s.recLifecycle (r.drop 4) else .error 0x0D
  | _ => .error 0x0D

/-- Whether the form of a DUAL record lets its signatures be checked. -/
def State.dualForm (s : State) (p : Bytes) : Bool :=
  let inner := p.take (p.length - 228)
  232 ≤ p.length && byteAt inner 1 = 0 && be inner 2 2 = inner.length && s.ldr.duals < 8

/-- The uses of the authority keys by a DUAL record or a debug token (R290): the public keys allowed, and the state after the checks. -/
def State.dualKeys (s : State) : Option Bytes × Option Bytes × State :=
  let a := s.useSlot 2 Master.image KeyOp.verify [4]
  let b := a.2.useSlot 3 Master.image KeyOp.verify [4]
  (a.1.map (·.act.pub), b.1.map (·.act.pub), b.2)

/-- DUAL: both signatures over node number, epoch and inner record are checked under the accepted authority keys. -/
def State.recDual (s0 : State) (p : Bytes) : Rec :=
  let inner := p.take (p.length - 228)
  let sigs := p.drop (p.length - 228)
  let k := s0.dualKeys
  let s := k.2.2
  let m := beBytes 2 s.node ++ beBytes 1 (s.fd Rg.IMG_ROLLBACK Fl.IMG_ROLLBACK_EPOCH) ++ inner
  let good (key : Option Bytes) (sig : Bytes) : Bool := key.any (fun pk => Ed.verify pk m (ascii "KD48-DUAL") sig)
  if ¬ s0.dualForm p ∨ ¬ good k.1 (sigs.take 114) ∨ ¬ good k.2.1 (slice sigs 114 114) then .error 0x0D
  else (s.setLdr (fun l => { l with duals := l.duals + 1 })).recInner inner

/-- What a DUAL record that is rejected leaves: the uses of its keys, refused or not, have been counted and reported (R290). -/
def State.dualUsed (s : State) (p : Bytes) : State := if s.dualForm p then s.dualKeys.2.2 else s

/-! ## END (R75) -/

/-- After the operator section's END: its entries are placed, and once its digest has matched its MDIO accesses run. -/
def State.operatorEnd (s : State) : Rec := s.placeAll.bind State.runMdio

/-- The words a metrology section may set, back at their Reset values. -/
def State.resetMetroRegs (s : State) : List (Nat × Word) :=
  s.regs.filterMap (fun e => if e.1 / 0x10000 = 0x1090 ∨ e.1 = Rg.TIME_SYNC_CFG.addr then keptWord (fun f => !f.loadable) (fun _ => false) e else some e)

/-- What the metrology section has left goes; the vendor and operator state stays in place (R71). -/
def State.undoMetro (s : State) : State :=
  let k := s.ldr.mslots
  ({ s with
    regs := s.resetMetroRegs
    sram := s.sram.filter (fun c => !(Mm.evt ≤ c.1 && c.1 < Mm.evt + 0x4000))
    keys := { s.keys with slots := s.keys.slots.filter (fun e => !k.contains e.1) } } : State).setLdr
      (fun l => { l with mslots := [], metro := false })

/-! ## Records of a body (R62) -/

/-- Applies a record whose type the section permits; `r` is the whole record. -/
def State.applyRecord (s : State) (sec : Sect) (r : Bytes) : Rec :=
  let n := r.length
  match byteAt r 0, sec with
  | 0x01, .vendor => if n = 16 then .error 0x09 else .error 0x08
  | 0x01, _ => if n = 16 then s.recWrite sec (be r 4 4) (be r 8 4) (be r 12 4) else .error 0x08
  | 0x02, .operator =>
    let e := 8 + byteAt r 5 + be r 6 2
    if n < 8 ∨ n ≠ cdiv e 4 * 4 ∨ be r e (n - e) ≠ 0 then .error 0x08
    else s.recTable (byteAt r 4) (slice r 8 (byteAt r 5)) (slice r (8 + byteAt r 5) (be r 6 2))
  | 0x02, _ => .error 0x09
  | 0x03, _ => if n < 12 ∨ be r 5 3 ≠ 0 then .error 0x08 else s.recBlob sec (byteAt r 4) (be r 8 4) (r.drop 12)
  | 0x04, _ => if n = 16 then s.recCheck (be r 4 4) (be r 8 4) (be r 12 4) else .error 0x08
  | 0x05, .operator =>
    if n ≠ 16 ∨ be r 14 2 ≠ 0 then .error 0x08
    else s.recMdio ⟨byteAt r 4, byteAt r 5, byteAt r 6, byteAt r 7, be r 8 2, be r 10 2, be r 12 2⟩
  | 0x05, _ => if n = 16 then .error 0x09 else .error 0x08
  | 0x08, .operator => s.recDual (r.drop 4)
  | 0x08, _ => .error 0x09
  | 0x10, .metrology => if n = 132 then s.recKeyslot true (r.drop 4) else .error 0x08
  | 0x10, _ => if n = 132 then .error 0x09 else .error 0x08
  | 0x11, .metrology => if n = 68 then s.recAuthKey (r.drop 4) else .error 0x08
  | 0x11, _ => if n = 68 then .error 0x09 else .error 0x08
  | 0x12, .metrology => if n = 8 ∨ n = 124 then s.recLifecycle (r.drop 4) else .error 0x08
  | 0x12, _ => if n = 8 ∨ n = 124 then .error 0x09 else .error 0x08
  | _, _ => .error 0x08

/-- The head of the record at the front of a body: type and length, unless it is malformed. -/
def recordHead (b : Bytes) : Option (Nat × Nat) :=
  let n := be b 2 2
  if b.length < 4 ∨ byteAt b 1 ≠ 0 ∨ n < 4 ∨ n % 4 ≠ 0 ∨ b.length < n then none else some (byteAt b 0, n)

/-- Streams the rest of a body, of which `off` bytes have gone: the state reached, the cause of a rejection or 0, and the offset of the
failing record or of END. -/
def State.runBody (s : State) (sec : Sect) : Nat → Bytes → Nat → State × Nat × Nat
  | 0, _, off => (s, 0x08, off)
  | fuel + 1, b, off =>
    match recordHead b with
    | none => (s, 0x08, off)
    | some (ty, n) =>
      if ty = 0x0F then (s, if n = 4 ∧ (b.drop 4).all (· = 0) then 0 else 0x08, off)
      else
        match s.applyRecord sec (b.take n) with
        | .error c => (if ty = 8 ∧ sec = .operator then s.dualUsed ((b.take n).drop 4) else s, c, off)
        | .ok t => t.runBody sec fuel (b.drop n) (off + n)

end Sys2Proof.Machine
end

