-- ==== Sys2Proof/Machine/Load.lean ====
section
/-! DEFINITION. The loader (R58 to R61, R70, R71, R78 to R80): headers, signatures, the streaming of a slot, the choice between
slots, safe hold; and the commands of the records, of END and of the lock. -/

namespace Sys2Proof.Machine

/-! ## The image in a slot (R58 to R61) -/

/-- Where slot `k` begins in OSPI0. -/
def slotBase (k : Nat) : Nat := 0x1000000 * k

/-- The header of slot `k`. -/
def State.header (s : State) (k : Nat) : Bytes := s.flash0 (slotBase k) 512

/-- Entry `i` of the section table, its offset, its length, and its number of signatures. -/
def secEntry (h : Bytes) (i : Nat) : Bytes := slice h (24 + 80 * i) 80
def secOff (h : Bytes) (i : Nat) : Nat := be (secEntry h i) 4 4
def secLen (h : Bytes) (i : Nat) : Nat := be (secEntry h i) 8 4
def secSigs (i : Nat) : Nat := if i = 2 then 2 else 1
def secEnd (h : Bytes) (i : Nat) : Nat := secOff h i + secLen h i + 120 * secSigs i

/-- Image version, its epoch, and the node number. -/
def imgVersion (h : Bytes) : Nat := be h 12 4
def imgEpoch (h : Bytes) : Nat := byteAt h 12
def imgNode (h : Bytes) : Nat := be h 16 2

/-- The public key of signer 1, 2 or 3. -/
def signerKey (h : Bytes) (n : Nat) : Bytes := slice h (207 + 57 * n) 57

/-- Whether a table entry keeps R60 in an image of length `total`. -/
def secOk (h : Bytes) (i : Nat) : Bool :=
  let e := secEntry h i
  byteAt e 0 = i + 1 && byteAt e 1 = secSigs i && be e 2 2 = 0 && be e 12 4 = 0 && secLen h i % 4 = 0
    && (if secLen h i = 0 then i = 2 else secOff h i % 64 = 0 && 512 ≤ secOff h i && secEnd h i ≤ be h 8 4)

/-- Whether two sections that are present lie apart. -/
def secApart (h : Bytes) (i j : Nat) : Bool :=
  secLen h i = 0 || secLen h j = 0 || secEnd h i ≤ secOff h j || secEnd h j ≤ secOff h i

/-- Whether lengths and layout keep R58 to R60. -/
def layoutOk (h : Bytes) : Bool :=
  be h 6 2 = 512 && 512 ≤ be h 8 4 && be h 8 4 ≤ 0x1000000 && byteAt h 18 = 3 && be h 19 5 = 0 && be h 435 77 = 0
    && (List.range 3).all (secOk h) && secApart h 0 1 && secApart h 0 2 && secApart h 1 2

/-- The body of section `i` of slot `k`, and its signature block. -/
def State.secBody (s : State) (k : Nat) (h : Bytes) (i : Nat) : Bytes := s.flash0 (slotBase k + secOff h i) (secLen h i)
def State.secBlock (s : State) (k : Nat) (h : Bytes) (i : Nat) : Bytes :=
  s.flash0 (slotBase k + secOff h i + secLen h i) (120 * secSigs i)

/-- The first LIFECYCLE record of a body. -/
def lifeRecord : Nat → Bytes → Option Bytes
  | 0, _ => none
  | fuel + 1, b =>
    match recordHead b with
    | none => none
    | some (ty, n) => if ty = 0x12 then some (b.take n) else if ty = 0x0F then none else lifeRecord fuel (b.drop n)

/-- The LIFECYCLE record to PROVISIONED in the metrology section, if it carries one. -/
def State.provisioning (s : State) (k : Nat) (h : Bytes) : Option Bytes :=
  let b := s.secBody k h 2
  (lifeRecord (b.length / 4 + 1) b).filter (fun r => r.length = 124 && byteAt r 4 = 1)

/-- Why a slot is no candidate, 0 when it is one (R58, R59, R68, R70, R73). -/
def State.headCause (s : State) (k : Nat) : Nat :=
  let h := s.header k
  if be h 0 4 ≠ 0x5052434B ∨ be h 4 2 ≠ 1 then 0x02
  else if ¬ layoutOk h then 0x03
  else if imgEpoch h > 128 then 0x0A
  else if imgEpoch h < s.fd Rg.IMG_ROLLBACK Fl.IMG_ROLLBACK_FLOOR then 0x04
  else if imgNode h = 0xFFFF ∨ (s.otpRead.lockOn ∧ imgNode h ≠ s.otpRead.lockNode) then 0x05
  else if s.lifecycle > 3 ∨ (s.lifecycle = 0 ∧ (s.provisioning k h).isNone) then 0x0E
  else 0

/-! ## Signatures (R61) -/

/-- The key of a signer where it is accepted: by its digest in OTP as the start read it, or in BLANK by the LIFECYCLE record. -/
def State.acceptedKey (s : State) (k : Nat) (h : Bytes) (n : Nat) : Option Bytes :=
  let key := signerKey h n
  let byDigest (d : Option Bytes) : Bool := d = some (shake512 key)
  let ok :=
    if n = 1 then byDigest (some s.otpRead.imageDig)
    else if s.lifecycle = 0 then
      match s.provisioning k h with
      | some r => slice r (if n = 2 then 8 else 65) 57 = key
      | none => false
    else byDigest (if n = 2 then s.otpRead.operDig else s.otpRead.metroDig).getLast?
  if ok then some key else none

/-- Whether entry `j` of a signature block is the given signer's signature over the section. -/
def sigEntryOk (blk msg ctx : Bytes) (j signer : Nat) (key : Option Bytes) : Bool :=
  let e := slice blk (120 * j) 120
  match key with
  | none => false
  | some pk => byteAt e 0 = signer && be e 1 5 = 0 && Ed.verify pk msg ctx (slice e 6 114)

/-- Whether section `i` of slot `k` is signed as R61 asks. -/
def State.sectSigned (s : State) (k : Nat) (h : Bytes) (i : Nat) : Bool :=
  let blk := s.secBlock k h i
  let m := h.take 24 ++ secEntry h i
  match i with
  | 0 => sigEntryOk blk m (ascii "KD48-VENDOR") 0 1 (s.acceptedKey k h 1)
  | 1 => sigEntryOk blk m (ascii "KD48-OPERATOR") 0 2 (s.acceptedKey k h 2)
  | _ => sigEntryOk blk m (ascii "KD48-METROLOGY") 0 2 (s.acceptedKey k h 2) && sigEntryOk blk m (ascii "KD48-METROLOGY") 1 3 (s.acceptedKey k h 3)

/-! ## load(s) (R71) -/

/-- The result of load(s). A failure carries section, cause and record offset; `metroFailed` carries cause and offset where the metrology
section was present, and cause 0 where it was not asked for or absent. -/
inductive LoadResult where
  | full
  | metroFailed (cause off : Nat)
  | failed (sect cause off : Nat)
  deriving DecidableEq, Repr

/-- Streams section `i`, whose digest is checked at the end of its body. -/
def State.stream (s : State) (k : Nat) (h : Bytes) (i : Nat) : State × Nat × Nat :=
  let b := s.secBody k h i
  let r := s.runBody (if i = 0 then .vendor else if i = 1 then .operator else .metrology) (b.length / 4 + 1) b 0
  if r.2.1 = 0 ∧ shake512 b ≠ slice (secEntry h i) 16 64 then (r.1, 0x07, 0) else r

/-- What the header gives the start: node, epoch, and the accepted keys in slots 1 to 3. -/
def State.headStart (s : State) (k : Nat) (h : Bytes) : State :=
  ((s.sf Rg.IMG_NODE Fl.IMG_NODE_NODE (imgNode h)).sf Rg.IMG_ROLLBACK Fl.IMG_ROLLBACK_EPOCH (imgEpoch h)).fixedSlots
    (s.acceptedKey k h 1) (s.acceptedKey k h 2) (s.acceptedKey k h 3)

/-- The checks on the state that the vendor and operator sections leave alone. -/
def State.operatorAlone (s : State) (off cause moff : Nat) : State × LoadResult :=
  let c := s.operatorCause
  if c ≠ 0 then (s, .failed 2 c off) else (s, .metroFailed cause moff)

/-- The metrology section, and the checks on the state all sections leave together. -/
def State.loadMetro (s : State) (k : Nat) (h : Bytes) (off : Nat) : State × LoadResult :=
  let r := s.stream k h 2
  if r.2.1 ≠ 0 then r.1.undoMetro.operatorAlone off r.2.1 r.2.2
  else
    let c := r.1.operatorCause
    let m := r.1.metrologyCause
    if c ≠ 0 then (r.1, .failed 2 c off)
    else if m ≠ 0 then r.1.undoMetro.operatorAlone off m r.2.2
    else (r.1.setLdr (fun l => { l with metro := true }), .full)

/-- load(s) on a state without anything loaded; `metro` says whether the metrology section is wanted. -/
def State.loadOnce (s0 : State) (k : Nat) (metro : Bool) : State × LoadResult :=
  let h := s0.header k
  let s := s0.headStart k h
  if ¬ s.sectSigned k h 0 then (s, .failed 1 0x06 0)
  else if ¬ s.sectSigned k h 1 then (s, .failed 2 0x06 0)
  else
    let wanted := metro ∧ secLen h 2 ≠ 0
    let signed := s.sectSigned k h 2
    let v := s.stream k h 0
    if v.2.1 ≠ 0 then (v.1, .failed 1 v.2.1 v.2.2)
    else
      let o := v.1.stream k h 1
      if o.2.1 ≠ 0 then (o.1, .failed 2 o.2.1 o.2.2)
      else
        match o.1.operatorEnd with
        | .error c => (o.1, .failed 2 c o.2.2)
        | .ok t =>
          if ¬ wanted then t.operatorAlone o.2.2 0 0
          else if ¬ signed then t.operatorAlone o.2.2 0x06 0
          else t.loadMetro k h o.2.2

/-! ## Choosing (R70) -/

/-- Notes a rejection in IMG_SLOT_RESULT and raises IMG_SLOT_REJECTED. -/
def State.reject (s : State) (k sect cause off : Nat) : State :=
  let r := Rg.IMG_SLOT_RESULT k
  let s1 := ((s.sf r Fl.IMG_SLOT_RESULT_SECTION sect).sf r Fl.IMG_SLOT_RESULT_CAUSE cause).sf r Fl.IMG_SLOT_RESULT_RECORD (off / 4)
  s1.raise 0x0301 noPort (k + 2 * sect + 8 * cause + 1024 * (off / 4))

/-- What a load that did not lead to a start leaves of the header in the registers. -/
def State.forget (s : State) : State :=
  ((s.blank.sf Rg.IMG_NODE Fl.IMG_NODE_NODE 0).sf Rg.IMG_ROLLBACK Fl.IMG_ROLLBACK_EPOCH 0).fixedSlots none none none

/-- The part runs from slot `k`: the image registers, and the events of the choice. -/
def State.chosen (s : State) (k : Nat) (fallback : Bool) : State :=
  let h := s.header k
  let metro := s.ldr.metro
  let s1 := (s.sf Rg.IMG_STATUS Fl.IMG_STATUS_ACTIVE_SLOT k).sf Rg.IMG_STATUS Fl.IMG_STATUS_FALLBACK (b2n fallback)
  let s2 := (s1.sf (Rg.IMG_SLOT_RESULT k) Fl.IMG_SLOT_RESULT_USED 1).wr Rg.IMG_ACTIVE_VERSION (imgVersion h)
  let dig (t : State) (i : Nat) : State := t.wrBytes (Rg.IMG_DIGEST i) (if i = 2 ∧ ¬ metro then zeros 64 else slice (secEntry h i) 16 64)
  let s3 := (List.range 3).foldl dig s2
  let s4 := if fallback then s3.raise 0x0302 noPort k else s3
  let s5 := if metro then s4 else s4.raise 0x0303 noPort (k + 2 * b2n (decide (secLen h 2 ≠ 0)))
  s5.setLdr (fun l => { l with checked := true, image := true })

/-- The port fused for recovery leaves reset in the fused mode, with no FEC (R80). -/
def State.recoveryPort (s : State) : State :=
  let p := s.otp.recovery % 64
  if s.recoveryOpen ∧ isEth p then
    (s.sf (Rg.ETH_CFG p) Fl.ETH_CFG_ENABLE 1).sf (Rg.ETH_CFG p) Fl.ETH_CFG_MODE (s.otp.recovery / 64 % 4)
  else s

/-- Safe hold of the loader (R79): time and the hoop sequencer run. -/
def State.safeHold (s : State) (cause : Nat) : State :=
  let s1 := (({ s with pwr := { s.pwr with phase := .safeHold }, pins := { s.pins with faultNLow := true } } : State).haltOn 6).hoopSync
  s1.recoveryPort.raise 0x0304 noPort cause

/-- The loop of R70 over the candidates still to try; `fb` is the fallback, `last` the cause of the last failure, `first` the first
candidate. -/
def State.tryLoads (s : State) (first : Nat) : List Nat → Option Nat → Nat → State
  | [], fb, last =>
    match fb with
    | none => s.safeHold last
    | some k =>
      let r := s.loadOnce k false
      match r.2 with
      | .failed sec c off => ((r.1.reject k sec c off).forget).safeHold c
      | _ => r.1.chosen k (k ≠ first)
  | k :: rest, fb, last =>
    let r := (s.sf (Rg.IMG_SLOT_RESULT k) Fl.IMG_SLOT_RESULT_TRIED 1).loadOnce k true
    match r.2 with
    | .full => r.1.chosen k (k ≠ first)
    | .failed sec c off => ((r.1.reject k sec c off).forget).tryLoads first rest fb c
    | .metroFailed c off =>
      let t := if c ≠ 0 then r.1.reject k 3 c off else r.1
      match fb, rest with
      | none, [] => t.chosen k (k ≠ first)
      | none, _ => t.forget.tryLoads first rest (some k) last
      | some _, _ => t.forget.tryLoads first rest fb last

/-- The loader is at work: the core PLL has locked, and the flash is out of its reset of 10 microseconds (R390). -/
def State.loaderRuns (s0 : State) : State :=
  let s := s0.advanceRaw s0.pins.ospiTill
  { s with pwr := { s.pwr with relock := false }, pins := { s.pins with pads := { s.pins.pads with ospiResetN := .driven } } }

/-- LOAD_SLOT (R70, R71): the loader chooses among the slots and loads. A slot that cannot be read is treated as failed. -/
def State.loadSlot (s : State) : State :=
  if s.pwr.phase ≠ .start then s
  else
    let s0 := s.loaderRuns.forget
    let c (k : Nat) : Nat := if s.pins.ospiBad.getLsbD k then 0x0F else s0.headCause k
    let s1 := [0, 1].foldl (fun t k => if c k = 0 then t else t.reject k 0 (c k) 0) s0
    let order :=
      if c 0 = 0 ∧ c 1 = 0 then if imgVersion (s0.header 1) > imgVersion (s0.header 0) then [1, 0] else [0, 1]
      else if c 0 = 0 then [0] else if c 1 = 0 then [1] else []
    s1.tryLoads (order.headD 0) order none (c 1)

def execLoadSlot (s : State) : Host.Outcome State Fault Refusal := .next s.loadSlot

/-! ## The records as commands -/

/-- The section code of IMG_SLOT_RESULT. -/
def sectCode : Sect → Nat
  | .vendor => 1
  | .operator => 2
  | .metrology => 3

/-- A record commanded on its own, in a start: applied, or its section is rejected. A rejected metrology section leaves the vendor and
operator state in place; any other reverts the load (R71). -/
def State.record (s : State) (sec : Sect) (f : State → Rec) : State :=
  if s.pwr.phase ≠ .start then s
  else
    let s0 := s.loaderRuns
    match f (s0.setLdr (fun l => { l with checked := false })) with
    | .ok t => t
    | .error c => if sec = .metrology then (s0.undoMetro).reject 0 3 c 0 else (s0.reject 0 (sectCode sec) c 0).forget

def execWriteRecord (sec : Sect) (addr value mask : Word) (s : State) : Host.Outcome State Fault Refusal :=
  .next (s.record sec (fun t => t.recWrite sec addr.toNat value.toNat mask.toNat))

def execTableRecord (sec : Sect) (table : Fin 256) (key result : Bytes) (s : State) : Host.Outcome State Fault Refusal :=
  .next (s.record sec (fun t => if sec = .operator then t.recTable table.val key result else .error 0x09))

def execBlobRecord (sec : Sect) (region : Fin 256) (offset : Fin 16777216) (data : Bytes) (s : State) : Host.Outcome State Fault Refusal :=
  .next (s.record sec (fun t => t.recBlob sec region.val offset.val data))

def execCheckRecord (sec : Sect) (addr mask expected : Word) (s : State) : Host.Outcome State Fault Refusal :=
  .next (s.record sec (fun t => t.recCheck addr.toNat mask.toNat expected.toNat))

/-- MDIO_RECORD: MDIO records stand in the operator section alone. -/
def execMdioRecord (port : Fin 256) (clause phy device : Byte) (register value : BitVec 16) (wait : BitVec 16) (s : State) :
    Host.Outcome State Fault Refusal :=
  .next (s.record .operator (fun t => t.recMdio ⟨port.val, clause.toNat, phy.toNat, device.toNat, register.toNat, value.toNat, wait.toNat⟩))

/-- DUAL_RECORD: a DUAL record stands in the operator section alone. Where it is rejected, the uses of its keys stand. -/
def State.dualRecord (s : State) (sec : Sect) (p : Bytes) : State :=
  if sec ≠ .operator then s.record sec (fun _ => .error 0x09)
  else
    match s.recDual p with
    | .ok _ => s.record sec (fun t => t.recDual p)
    | .error c => (if s.pwr.phase = .start then s.dualUsed p else s).record sec (fun _ => .error c)

def execDualRecord (sec : Sect) (payload : Bytes) (s : State) : Host.Outcome State Fault Refusal := .next (s.dualRecord sec payload)

/-- KEYSLOT_RECORD: outside a DUAL record, in the metrology section alone (R64). -/
def execKeyslotRecord (sec : Sect) (payload : Bytes) (s : State) : Host.Outcome State Fault Refusal :=
  .next (s.record sec (fun t => if sec = .metrology then t.recKeyslot true payload else .error 0x09))

def execAuthKeyRecord (payload : Bytes) (s : State) : Host.Outcome State Fault Refusal :=
  .next (s.record .metrology (fun t => t.recAuthKey payload))

def execLifecycleRecord (payload : Bytes) (s : State) : Host.Outcome State Fault Refusal :=
  .next (s.record .metrology (fun t => t.recLifecycle payload))

/-- END of a section (R75). The operator section's entries are placed and its MDIO accesses run; the metrology section's own rules are
judged, and the operator section's on the state they leave together. -/
def State.endSection (s : State) (sec : Sect) : Rec :=
  match sec with
  | .vendor => .ok s
  | .operator => s.operatorEnd.map (fun t => t.setLdr (fun l => { l with checked := t.operatorCause = 0 }))
  | .metrology =>
    if s.metrologyCause ≠ 0 then .error s.metrologyCause
    else .ok (s.setLdr (fun l => { l with metro := true, checked := s.operatorCause = 0 }))

def execEndRecord (sec : Sect) (s : State) : Host.Outcome State Fault Refusal := .next (s.record sec (fun t => t.endSection sec))

/-- SEALED_REGISTER_LOCK (R77): the final checks, then the lock; a state that fails them is rejected. -/
def State.sealLock (s : State) : State :=
  if s.pwr.phase ≠ .start then s
  else if s.ldr.checked then s.lock
  else
    match s.operatorEnd with
    | .error c => (s.reject 0 2 c 0).forget
    | .ok t => if t.operatorCause ≠ 0 then (s.reject 0 2 t.operatorCause 0).forget else t.lock

def execSealedRegisterLock (s : State) : Host.Outcome State Fault Refusal := .next s.sealLock

end Sys2Proof.Machine
end

