-- ==== Sys2Proof/Machine/Stage.lean ====
section
/-! DEFINITION. Debug unlock (R69), the anti-rollback floor (R73) and staging (R74). -/

namespace Sys2Proof.Machine

/-! ## The debug token (R69) -/

/-- Whether debug tokens are heard: the part has started. -/
def State.jtagOn (s : State) : Bool :=
  match s.pwr.phase with
  | .por | .held | .start | .sleep => false
  | _ => true

/-- Whether a token passes the checks that need no key: type, device, boot count, reserved bytes, life-cycle state. -/
def State.tokenForm (s : State) (t : Bytes) : Bool :=
  t.length = 256 && be t 0 4 = 0x44424755 && slice t 4 16 = s.otp.uid && be t 20 4 = s.rd Rg.SYS_BOOT_COUNT && be t 24 4 = 0
    && 1 ≤ s.lifecycle && s.lifecycle ≤ 3

/-- Whether a token passes every check: those, and both signatures, over bytes 0 to 27 and the nonce. -/
def State.tokenOk (s : State) (t : Bytes) : Bool :=
  let m := t.take 28 ++ s.rdBytes Rg.IMG_DBG_NONCE 4
  let good (slot : Nat) (sig : Bytes) : Bool :=
    s.useCause slot Master.image KeyOp.verify [4] = 0 && Ed.verify (s.keySlot slot).act.pub m (ascii "KD48-DEBUG") sig
  s.tokenForm t && good 2 (slice t 28 114) && good 3 (slice t 142 114)

/-- DEBUG_TOKEN: debug access is unlocked, and the metrology keys are refused from then on (R290), or the token is refused. A token that comes
to its signatures uses the keys of slots 2 and 3. -/
def State.debugToken (s0 : State) (t : Bytes) : State :=
  let s := if s0.jtagOn ∧ s0.tokenForm t then s0.dualKeys.2.2 else s0
  if ¬ s.jtagOn then s
  else if s.tokenOk t then
    ((({ s with pwr := { s.pwr with dbgMark := true } } : State).sf Rg.IMG_STATUS Fl.IMG_STATUS_DEBUG_UNLOCKED 1).raise 0x0309 noPort 0).sealKeyCheck
  else s.raise 0x0309 noPort 1

def execDebugToken (token : Bytes) (s : State) : Host.Outcome State Fault Refusal := .next (s.debugToken token)

/-! ## The floor (R73) -/

/-- A write of IMG_EPOCH_COMMIT: the floor rises to the epoch of the running image. -/
def State.epochCommit (s : State) (v : Nat) : State :=
  let e := s.fd Rg.IMG_ROLLBACK Fl.IMG_ROLLBACK_EPOCH
  if bitOf v 0 ∧ e > s.otp.floor then
    (({ s with otp := { s.otp with floor := e } } : State).sf Rg.IMG_ROLLBACK Fl.IMG_ROLLBACK_FLOOR e).raise 0x0306 noPort e
  else s

def execImgEpochCommit (value : Word) (s : State) : Host.Outcome State Fault Refusal := .next (s.fw (·.epochCommit value.toNat))

/-! ## Staging (R74, R365) -/

/-- The slot that did not supply the running image. -/
def State.otherSlot (s : State) : Nat := 1 - s.fd Rg.IMG_STATUS Fl.IMG_STATUS_ACTIVE_SLOT

/-- An operation of the staging engine begins. -/
def State.stageBegin (s : State) (j : StageJob) : State :=
  (({ s with stg := some j } : State).sf Rg.IMG_STAGE_STATUS Fl.IMG_STAGE_STATUS_BUSY 1).edPick

/-- Whether an offset is one an operation may be given: of a 64 KiB block, or of a 256-byte page, within 16 MiB. -/
def stageOffOk (op off : Nat) : Bool :=
  match op with
  | 1 => off % 65536 = 0 && off < 0x1000000
  | 2 => off % 256 = 0 && off < 0x1000000
  | _ => true

/-- A command of IMG_STAGE_CTRL: begun, or refused while one is in progress or where ADDR does not fit it. -/
def State.stageCmd (s : State) (op : Nat) : State :=
  let off := s.fd Rg.IMG_STAGE_ADDR Fl.IMG_STAGE_ADDR_ADDR
  if op = 0 then s
  else if s.stg.isSome ∨ ¬ stageOffOk op off then s.setBit Rg.IMG_STAGE_STATUS Fl.IMG_STAGE_STATUS_REFUSED.lo
  else s.stageBegin ⟨op, s.otherSlot, off, if op = 2 then s.rdBytes Rg.IMG_STAGE_BUF 64 else [], none, none⟩

def execStageErase (lapse : Nat) (s : State) : Host.Outcome State Fault Refusal := .next ((s.advance lapse).fw (·.stageCmd 1))
def execStageProgram (lapse : Nat) (s : State) : Host.Outcome State Fault Refusal := .next ((s.advance lapse).fw (·.stageCmd 2))
def execStageCheck (lapse : Nat) (s : State) : Host.Outcome State Fault Refusal := .next ((s.advance lapse).fw (·.stageCmd 3))

/-- A page as programming leaves it: a byte that was not erased is open. -/
def State.programmedPage (s : State) (a : Nat) (data : Bytes) : Bytes × State :=
  let old := s.flash0 a data.length
  let r := s.freeBytes data.length
  if old.all (· = erased) then (data, s)
  else ((List.range data.length).map (fun i => if old.getD i erased = erased then data.getD i 0 else r.1.getD i 0), r.2)

/-- Every check of the chapter over slot `k`, applied to nothing: cause and section; an absent metrology section passes. -/
def State.checkSlot (s : State) (k : Nat) : Nat × Nat :=
  let t := s.forget
  let c := t.headCause k
  if c ≠ 0 then (c, 0)
  else
    match (t.loadOnce k true).2 with
    | .full => (0, 0)
    | .metroFailed c _ => (c, if c = 0 then 0 else 3)
    | .failed sec c _ => (c, sec)

/-- The outcome of a check is shown and reported. -/
def State.checkDone (s : State) (c : Nat × Nat) : State :=
  let r := Rg.IMG_STAGE_STATUS
  let s1 := (s.setBit r Fl.IMG_STAGE_STATUS_CHECK_DONE.lo).sf r Fl.IMG_STAGE_STATUS_CHECK_PASS (b2n (decide (c.1 = 0)))
  let s2 := (s1.sf r Fl.IMG_STAGE_STATUS_CHECK_CAUSE c.1).sf r Fl.IMG_STAGE_STATUS_CHECK_SECTION c.2
  s2.raise 0x0305 noPort (b2n (decide (c.1 = 0)) + 2 * c.1)

/-- The operation in progress ends; `ok` says whether the flash did what it was asked. The number is the cause of a check. -/
def State.stageEnd (s : State) (j : StageJob) (ok : Bool) : Nat × State :=
  let s0 := (({ s with stg := none } : State).sf Rg.IMG_STAGE_STATUS Fl.IMG_STAGE_STATUS_BUSY 0).edPick
  let a := slotBase j.slot + j.off
  match j.op with
  | 1 =>
    if ok then (0, { s0 with ospi0 := sfill s0.ospi0 a erased (List.replicate 65536 erased) })
    else
      let r := s0.freeBytes 65536
      (0, { r.2 with ospi0 := sfill r.2.ospi0 a erased r.1 })
  | 2 =>
    if ok then
      let p := s0.programmedPage a j.data
      (0, p.2.setFlash0 a p.1)
    else
      let r := s0.freeBytes j.data.length
      (0, r.2.setFlash0 a r.1)
  | _ =>
    let c := if ok then s0.checkSlot j.slot else (0x0F, 0)
    (c.1, s0.checkDone c)

end Sys2Proof.Machine
end

