-- ==== Sys2Proof/Machine/Power.lean ====
section
/-! DEFINITION. Resets, the pre-reset flush, DOZE, SLEEP, watchdog, temperature and power failure (R330 to R352, R384 to R386). -/

namespace Sys2Proof.Machine

/-! ## The pre-reset flush (R332) -/

/-- Evidence that waits for its record is refused when formation stops (R326). -/
def State.refuseEvidence (s : State) : State := s.evQ.foldl (fun t f => t.evRefuse f.src 4) { s with evQ := [] }

/-- What every unit does at the start of a flush beside the seal unit: table locks go without writing, the pre-reset list is built
(R240), and the bridge reports and frees its slots (R280). -/
def State.unitsStop (s : State) : State := ((s.setTbl (fun b => { b with locks := [], expired := [] })).preReset).brgAbort

/-- A fatal fault found in a flush (R337): the flush ends in a warm reset, whose cause joins that of the flush by R335; one towards thermal
safe hold goes on as it is. DESIGN CHOICE (log 150): so do those towards DOZE and SLEEP; the emergency seal goes on too. -/
def Power.joinFatal (p : Power) : Power :=
  if ¬ p.fatal then p
  else { p with
    fatal := false
    flush := if p.flush = .therm ∨ p.flush = .pfail then p.flush else .warm
    cause := if p.flush = .doze then 4 else firstOf p.cause 4 }

/-- The power state at the start of a flush. -/
def Power.flushing (k : FlushKind) (at_ cause : Nat) (p : Power) : Power :=
  Power.joinFatal { p with
    phase := .flush
    flush := k
    flushAt := at_
    cause := cause
    tailDone := false
    eyeReset := none
    eyeReplied := false
    dozeReq := false
    wakeHeld := false
    thermTrip := false }

/-- A pre-reset flush begins: `cause` is that of the start it leads to. -/
def State.flushStart (s : State) (k : FlushKind) (cause : Nat) : State :=
  let s1 := s.noteLoss.refuseEvidence
  let s2 := match k with
    | .doze => s1.dozeSeal.setChain (fun c => { c with lastHoop := s.hoopIx })
    | .pfail => s1.sealFlush.emergencySeal
    | _ => s1.sealFlush
  s2.unitsStop.setPwr (Power.flushing k s.raw cause)

/-- Whether a frame of port 49 or port 50 is still queued. -/
def State.tailFrames (s : State) : Bool :=
  let own (f : Frame) : Bool := f.src = 49 || f.src = 50
  s.outQ.any own || s.gnd.flight.any (fun x => own x.copy && !x.lost) || s.gnd.held.any (fun x => own x.copy) || s.sending.any (fun x => own x.copy)
    || s.gnd.spread.any (fun x => x.copies.any own) || s.gnd.inj.any (fun x => own x.copy) || s.t1s.any (fun e => e.2.retry.any (fun x => own x.copy))

/-- Whether the seal of the flush is done: the tail or emergency seal programmed, or for DOZE the tail signed. -/
def State.flushSealed (s : State) : Bool := if s.pwr.flush = .doze then !s.signing else s.pwr.tailDone

/-- How long a flush lasts at most: 5.0 ms (R332); the emergency seal is programmed within 1.1 ms (R328). -/
def FlushKind.longest (k : FlushKind) : Nat := if k = .pfail then us 1100 else us 5000

/-- Time passes to the end of the flush, at 5.0 ms or earlier; by then the tail seal has been formed, signed and programmed. DESIGN CHOICE
(log 161): the power-fail hold follows the emergency seal in the same manner, 1.1 ms after the assertion or earlier. -/
def State.flushRun (s0 : State) : State :=
  let s := s0.injectDue
  if s.flushSealed ∧ ¬ s.tailFrames then s
  else
    let s1 := if s.flushSealed then s else if s.pwr.flush = .doze then s.sealSign else (s.tailSeal.sealSign).program true
    s1.advanceRaw (s.pwr.flushAt + s.pwr.flush.longest)

/-- The queues are emptied: frames received, in the ground and in the output queues, on the wire, and those on their way to the internal
units (R332, R339). -/
def State.dropQueues (s : State) : State :=
  { s with
    rxQ := []
    admQ := []
    gnd := { groundInit with lfsr := s.gnd.lfsr, nextFid := s.gnd.nextFid, backs := s.gnd.backs }
    outQ := []
    sending := []
    capQ := []
    evQ := []
    spQ := []
    brgQ := []
    egr := []
    t1s := s.t1s.map (fun e => (e.1, { e.2 with retry := none }))
    can := s.can.map (fun e => (e.1, { e.2 with txb := [], mtx := [], active := none })) }

/-- Every transmitter sends nothing, and the links go down (R349). -/
def State.linksDown (s : State) : State :=
  (List.range 24).foldl (fun t p => t.ethLinkDown p (if p < 4 then .lockLost else .syncLost)) s

/-- The state in thermal safe hold (R349): queues lost, links down, FAULT_N and LEGAL_HALT asserted. -/
def State.thermEnter (s : State) : State :=
  let s1 := s.dropQueues.linksDown
  let s2 := (s1.haltOn 6).sf Rg.FLT_THERM_STATUS Fl.FLT_THERM_STATUS_HOLD 1
  { s2 with
    pwr := { s2.pwr with phase := .thermHold, thermTrip := false, hotRuns := 0, coolSince := none }
    pins := { s2.pins with faultNLow := true, gpioDriven := false, pads := s2.pins.pads.quiet }
    lanes := [] }

/-- The part is in DOZE (R339, R340): queues emptied, working keys cleared, clocks gated. GPIO is high-impedance from the end of the flush
(R377), until the exit (DEDUCED, log 118). The records lost before DOZE stay noted for the next record's GAP (DESIGN CHOICE, log 118). A
wake held back acts now. -/
def State.dozeEnter (s : State) : State :=
  let s1 := s.sigDrain.dropQueues.setTbl (fun b => { b with akzorSeq := [] })
  let s2 : State := { s1 with
    keys := { s1.keys with work := [], msec := [], svc := none, job := none, ed := none }
    lanes := []
    sig := { s1.sig with wait := [] }
    mdioQ := []
    smp := []
    pins := { s1.pins with gpioDriven := false }
    pwr := { s1.pwr with phase := if s.pwr.wakeHeld then .dozeExit else .doze, dozeReps := 0, wakeHeld := false } }
  s2.sf Rg.SYS_PWR_STATUS Fl.SYS_PWR_STATUS_STATE (if s.pwr.wakeHeld then 3 else 2)

/-- The wake logic lies in the always-on domain (R343): its enables and levels outlast the core domain. -/
def sleepKeeps (a : Nat) : Bool := a = Rg.SYS_WAKE_EN.addr || a = Rg.SYS_WAKE_POL.addr

/-- SLEEP begins: the core domain is isolated, an armed step discarded; the always-on domain keeps the node number (R343). -/
def State.sleepEnter (s : State) : State :=
  let t := s.coreReset (fun f => f.s)
  let t1 : State := { t with regs := s.keptRegs (fun f => f.s) sleepKeeps }
  (t1.sf Rg.TIME_STATUS Fl.TIME_STATUS_TRUST s.trust).setPwr (fun p => { p with phase := .sleep, node := s.node })

/-- A start that relocks the core PLL (R29, R344). -/
def State.coldStart (s : State) (cause : Nat) : State := (s.setPwr (fun p => { p with relock := true })).startBegin cause

/-- The power-fail hold begins (R351): the core domain stops, its queues are lost and its links down. -/
def State.pfailHold (s : State) : State :=
  let t := s.dropQueues.linksDown.pfailEnter
  { t with lanes := [], chain := { t.chain with stopHoop := if s.hoopsRun then s.hoopIx else s.chain.stopHoop } }

/-- FLUSH_END (R332). -/
def State.flushEnd (s : State) : State :=
  if s.pwr.phase ≠ .flush then s
  else
    let s1 := s.flushRun
    if s1.pwr.thermTrip then s1.thermEnter
    else
      match s1.pwr.flush with
      | .therm => s1.thermEnter
      | .pfail => s1.pfailHold
      | .doze => s1.dozeEnter
      | .warm => (s1.applyStep.coreReset (fun f => f.w)).startBegin s1.pwr.cause
      | .sleep => if s1.pwr.wakeHeld then (s1.coreReset (fun f => f.s)).coldStart s1.pwr.cause else s1.sleepEnter

def execFlushEnd (s : State) : Host.Outcome State Fault Refusal := .next s.flushEnd

/-! ## Resets (R330, R331, R384, R385) -/

/-- The cause the next start records when `c` arises now (R335): with that of a flush or start in progress, the first of the two. -/
def State.joinCause (s : State) (c : Nat) : Nat :=
  match s.pwr.phase with
  | .start | .held | .pfailHold => firstOf s.pwr.cause c
  | .flush => if s.pwr.flush = .warm ∨ s.pwr.flush = .sleep ∨ s.pwr.flush = .pfail then firstOf s.pwr.cause c else c
  | _ => c

/-- The core domain resets without a flush: an armed step is discarded (R345). -/
def State.hardReset (s : State) (c : Nat) : State :=
  (s.noteLoss.coreReset (fun f => f.w)).setPwr (fun p => { p with cause := s.joinCause c })

/-- RESET_N is low, or a start begins at once where it is high. -/
def State.holdOrStart (s : State) : State :=
  if s.pwr.resetNHigh then s.coldStart s.pwr.cause
  else { s with pwr := { s.pwr with phase := .held }, pins := { s.pins with faultNLow := false } }

/-- Whether a low of `n` ns acts: from `act` on it does, up to `ignore` it does not, between the two it may. -/
def State.filtered (s : State) (n ignore act : Nat) : Bool × State :=
  if n ≥ act then (true, s) else if n ≤ ignore then (false, s) else s.freeBit

/-- RESET_N_ASSERT (R385). -/
def State.resetN (s : State) (low : Nat) : State :=
  let r := s.filtered low 1000 10000
  if ¬ r.1 then r.2
  else
    let s1 := r.2.setPwr (fun p => { p with resetNHigh := false })
    if s.pwr.phase = .por then s1 else (s1.hardReset 1).holdOrStart

def execResetNAssert (low : Nat) (s : State) : Host.Outcome State Fault Refusal := .next (s.resetN low)

/-- RESET_N_RELEASE (R385): the rising edge begins a start, unless POR is still held (R384). -/
def State.resetNRise (s : State) : State :=
  let s1 := s.setPwr (fun p => { p with resetNHigh := true })
  if s.pwr.phase = .held then s1.coldStart s.pwr.cause else s1

def execResetNRelease (s : State) : Host.Outcome State Fault Refusal := .next s.resetNRise

/-- What POR leaves: OTP, the flash, and what lies outside the part. -/
def State.porState (s0 : State) : State :=
  let s := s0.cutStage
  { State.reset with
    ospi0 := s.ospi0
    ospi1 := s.ospi1
    otp := s.otp
    sent := s.sent
    phy := s.phy
    freeCtr := s.freeCtr
    pending := s.pending
    pins := { pinsInit with gpioIn := s.pins.gpioIn, ppsOutCnt := s.pins.ppsOutCnt, ospiBad := s.pins.ospiBad, ospiBad1 := s.pins.ospiBad1 }
    pwr := { powerInit with resetNHigh := s.pwr.resetNHigh, pwrfail := s.pwr.pwrfail } }

/-- POWER_ON_RESET (R330, R384): a supply below its threshold for `dip` ns; one shorter than 2 microseconds may cause a POR or not. -/
def State.powerDip (s : State) (dip : Nat) : State :=
  let r := s.filtered dip 0 2000
  if r.1 then r.2.porState else r.2

def execPowerOnReset (dip : Nat) (s : State) : Host.Outcome State Fault Refusal := .next (s.powerDip dip)

/-- POR_RELEASE (R384): the supervisors release; the start counts from here when RESET_N is high. -/
def State.porRelease (s : State) : State := if s.pwr.phase = .por then s.holdOrStart else s

def execPorRelease (s : State) : Host.Outcome State Fault Refusal := .next s.porRelease

/-- A warm reset begins with its flush (R330). -/
def State.warmReset (s : State) (cause : Nat) : State := s.flushStart .warm cause

/-- A fatal double-bit error found by a command acts at its end: a warm reset (R330, R337). -/
def State.fatalAct (s : State) : State :=
  if ¬ s.pwr.fatal then s
  else
    match s.pwr.phase with
    | .run => (s.setPwr (fun p => { p with fatal := false })).warmReset 4
    | .flush => s.setPwr Power.joinFatal
    | _ => s.setPwr (fun p => { p with fatal := false })

/-- A write of SYS_RESET_REQ (R331, R352). -/
def State.resetReq (s : State) (v : Nat) : State :=
  let go := bitOf v 0 ∧ fieldOf v Fl.SYS_RESET_REQ_CONFIRM = 0xA5
  match s.pwr.phase with
  | .run => if go then s.warmReset 5 else s.ignored Rg.SYS_RESET_REQ.addr v
  | .flush | .start => s.ignored Rg.SYS_RESET_REQ.addr v
  | _ => s

def execFirmwareResetRequest (lapse : Nat) (value : Word) (s : State) : Host.Outcome State Fault Refusal :=
  .next ((s.advance lapse).resetReq value.toNat)

/-- PLL_REFCLK_LOSS (R337, R29): lock is lost, or REFCLK is missing for `gone` ns; TIME_RAW misses those. A REFCLK that is missing for
less than 1 microsecond is no loss. In SLEEP only TIME_RAW stops. -/
def State.pllLoss (s : State) (gone : Nat) : State :=
  let missed (t : State) : State := t.setPwr (fun p => { p with oscCount := p.oscCount + gone })
  if 0 < gone ∧ gone < 1000 then s
  else
    match s.pwr.phase with
    | .por => s
    | .sleep => missed s
    | _ => (missed ((s.lastFault 0x0F12).faultPin.hardReset 8)).holdOrStart

def execPllRefclkLoss (refclkGone : Nat) (s : State) : Host.Outcome State Fault Refusal := .next (s.pllLoss refclkGone)

/-! ## The watchdog (R336) -/

/-- WDOG_KICK: a write of FLT_WDOG_KICK. -/
def execWdogKick (value : Word) (s : State) : Host.Outcome State Fault Refusal :=
  .next (s.fw (fun t => if bitOf value.toNat 0 then t.wdogFull else t))

/-- WDOG_WARN: half the period remains. -/
def State.wdogWarn (s : State) : State :=
  let n := s.fd Rg.FLT_WDOG_CFG Fl.FLT_WDOG_CFG_PERIOD_M1 + 1
  if ¬ s.coresRun ∨ s.pwr.wdogWarned ∨ 2 * s.pwr.wdog > n then s
  else
    let s1 := (s.setBit Rg.FLT_WDOG_STATUS Fl.FLT_WDOG_STATUS_WARN.lo).setBit Rg.FLT_INT_STATUS 1
    (s1.setPwr (fun p => { p with wdogWarned := true })).raise 0x0F02 noPort s.pwr.wdog

def execWdogWarn (s : State) : Host.Outcome State Fault Refusal := .next s.wdogWarn

/-- WDOG_EXPIRY: the count has reached zero. -/
def State.wdogExpiry (s : State) : State :=
  if ¬ s.coresRun ∨ s.pwr.wdog ≠ 0 then s else ((s.lastFault 0x0F10).faultPin).warmReset 2

def execWdogExpiry (s : State) : Host.Outcome State Fault Refusal := .next s.wdogExpiry

/-- The watchdog's part of a boundary. -/
def State.wdogBoundary (s : State) : State :=
  if s.coresRun ∧ s.pwr.wdog ≠ 0 then (s.setPwr (fun p => { p with wdog := p.wdog - 1 })).wdogShow else s

/-! ## DOZE and SLEEP (R339 to R344) -/

/-- A write of SYS_PWR_CTRL. The reserved code is ignored as a forbidden write. -/
def State.pwrCtrl (s : State) (v : Nat) : State :=
  let bad := s.ignored Rg.SYS_PWR_CTRL.addr v
  match s.pwr.phase with
  | .run =>
    match fieldOf v Fl.SYS_PWR_CTRL_REQ with
    | 0 => s
    | 1 => s.setPwr (fun p => { p with dozeReq := true, dozeQuiet := p.dozeReq && p.dozeQuiet })
    | 2 => s.flushStart .sleep 6
    | _ => bad
  | .flush | .start | .safeHold | .thermHold => if fieldOf v Fl.SYS_PWR_CTRL_REQ = 0 then s else bad
  | _ => s

def execDozeRequest (lapse : Nat) (value : Word) (s : State) : Host.Outcome State Fault Refusal :=
  .next ((s.advance lapse).pwrCtrl value.toNat)

def execSleepRequest (lapse : Nat) (value : Word) (s : State) : Host.Outcome State Fault Refusal :=
  .next ((s.advance lapse).pwrCtrl value.toNat)

/-- The boundary at which DOZE entry begins. -/
def State.dozeBoundary (s : State) : State :=
  if ¬ (s.coresRun ∧ s.pwr.dozeReq) then s
  else
    let q := s.pwr.dozeQuiet
    ((s.flushStart .doze 0).sf Rg.SYS_PWR_STATUS Fl.SYS_PWR_STATUS_STATE 1).sf Rg.SYS_PWR_STATUS Fl.SYS_PWR_STATUS_QUIET (b2n q)

/-- The quiet rule, at a repeat boundary: entry follows at the next boundary. -/
def State.quietBoundary (s : State) : State :=
  let n := if s.pwr.busyRep then 0 else s.pwr.quietReps + 1
  let fire := s.flag Rg.SYS_PWR_CFG Fl.SYS_PWR_CFG_QUIET_EN ∧ n ≥ s.fd Rg.SYS_PWR_CFG Fl.SYS_PWR_CFG_QUIET_M1 + 1 ∧ ¬ s.pwr.dozeReq
  s.setPwr (fun p => { p with quietReps := n, busyRep := false, dozeReq := p.dozeReq || fire, dozeQuiet := p.dozeQuiet || fire })

/-- The wake sources among the levels of WAKE[0..7] and GPIO[0..7]: a level held 1 microsecond is latched, one of 100 ns or less is
ignored (R392). -/
def State.pinSources (s : State) (levels held : Nat) : Nat × State :=
  let r := s.filtered held 100 1000
  let pol := s.rd Rg.SYS_WAKE_POL % 65536
  (if r.1 then (List.range 16).foldl (fun n i => if bitOf levels i = bitOf pol i then n + 2 ^ i else n) 0 else 0, r.2)

def State.wakePins (s : State) (levels held : Nat) : State :=
  let r := s.pinSources levels held
  r.2.wake r.1

def execWakeEvent (lapse : Nat) (levels : BitVec 16) (held : Nat) (s : State) : Host.Outcome State Fault Refusal :=
  .next ((s.advance lapse).wakePins levels.toNat held)

/-- DOZE_TIMER_WAKE (R342). -/
def State.dozeTimer (s : State) : State :=
  if s.pwr.phase = .doze ∧ s.pwr.dozeReps ≥ s.fd Rg.SYS_PWR_CFG Fl.SYS_PWR_CFG_TIMER_M1 + 1 then s.wake (2 ^ 18) else s

def execDozeTimerWake (s : State) : Host.Outcome State Fault Refusal := .next s.dozeTimer

/-- Registers that DOZE keeps whole: the armed step (R345), the links, and what reports kept memories and units (R346). -/
def dozeKeeps (a : Nat) : Bool :=
  let p := (a - 0x10100000) / 0x1000
  a = Rg.TIME_CTRL.addr || a = Rg.TIME_STEP.addr || a = Rg.TIME_STEP.addr + 4 || a = Rg.SEAL_STATUS.addr
    || (0x10100000 ≤ a && isEth p && a = (Rg.ETH_STATUS p).addr)
    || (0x10100000 ≤ a && isCan p && ((List.range 4).any (fun k => a = (Rg.CAN_PRIO_CTRL p k).addr) || (0x200 ≤ a % 0x1000 && a % 0x1000 < 0x400)))

/-- What no register shows of the counters returns to zero (R345): the counters of the action records; and the overrun counts of the CAN
priority buffers, whose other bits report kept buffers. -/
def State.dozeCounts (s : State) : State :=
  let t : State := { s with sram := s.sram.filter (fun c => c.1 < Mm.actCnt || Mm.actCnt + 0x200000 ≤ c.1) }
  (List.range 16).foldl (fun u i => (List.range 4).foldl (fun v k =>
    v.sf (Rg.CAN_PRIO_CTRL (32 + i) k) Fl.CAN_PRIO_CTRL_OVR 0) u) t

/-- DOZE_EXIT_COMPLETE (R342, R346): clocks run, fields follow R346, signal memory is refreshed, and the cores go on; forwarding resumes
at the first boundary, in GUARD. The latch of a 64-bit register's high word is no field and stays (R4). -/
def State.dozeExit (s : State) : State :=
  if s.pwr.phase ≠ .dozeExit then s
  else
    let q := s.fd Rg.SYS_PWR_STATUS Fl.SYS_PWR_STATUS_QUIET
    let s1 : State := { s with
      regs := s.keptRegs (fun f => f.d) dozeKeeps
      latch := s.latch.filter (fun e => !latchOnly e.1)
      pwr := { s.pwr with phase := .run, fwd := false, quietReps := 0, busyRep := true, dozeQuiet := false, tempSeen := false }
      pins := { s.pins with gpioDriven := true }
      clk := { s.clk with swapped := true, built := true, repSynced := false } }
    let s2 := if s.stg.isSome then s1.dozeCounts.sf Rg.IMG_STAGE_STATUS Fl.IMG_STAGE_STATUS_BUSY 1 else s1.dozeCounts
    let s3 := (List.range 16).foldl State.laneStart ([1, 2, 3].foldl (fun t k => t.setResumed k 1) s2.refreshAll)
    let s4 := (List.range 8).foldl (fun t k => t.plcaStart (24 + k))
      ((List.range 52).foldl (fun t p => t.setEgrP p { t.egrP p with shapeAt := t.raw }) s3)
    let s5 := (s4.msecStart (s4.hoopCount + 1)).setBrg (fun b => { brgInit with gens := b.gens, order := b.order, seq := b.seq, notice := some (2, s.chain.lastHoop) })
    s5.wdogFull.raise 0x1001 noPort (s.rd Rg.SYS_WAKE_SRC + q * 2 ^ 24)

def execDozeExitComplete (s : State) : Host.Outcome State Fault Refusal := .next s.dozeExit

/-- SLEEP_WAKE (R343, R344): a start from the wake event, cause 6. -/
def State.sleepWake (s : State) (levels held : Nat) : State :=
  let r := s.pinSources levels held
  let on := r.1 &&& r.2.rd Rg.SYS_WAKE_EN &&& (2 ^ 16 - 1)
  if s.pwr.phase = .flush ∧ s.pwr.flush = .sleep then r.2.wake r.1
  else if s.pwr.phase ≠ .sleep ∨ on = 0 then r.2
  else ((r.2.wr Rg.SYS_WAKE_SRC on).coreReset (fun f => f.s)).coldStart 6

def execSleepWake (levels : BitVec 16) (held : Nat) (s : State) : Host.Outcome State Fault Refusal :=
  .next (s.sleepWake levels.toNat held)

/-! ## Temperature (R348 to R350) -/

/-- THERM_ALERT follows a reading; each change is reported (R348). -/
def State.thermAlert (s : State) (t : Int) : State :=
  let a := ((s.fd Rg.FLT_THERM_CFG Fl.FLT_THERM_CFG_ALERT : Nat) : Int)
  let on := if t ≥ a then true else if t ≤ a - 5 then false else s.pins.thermAlert
  let s1 := s.sf Rg.FLT_THERM_STATUS Fl.FLT_THERM_STATUS_ALERT_ACTIVE (b2n on)
  if on = s.pins.thermAlert then s1
  else
    let s2 : State := { s1 with pins := { s1.pins with thermAlert := on } }
    (s2.setBit Rg.FLT_INT_STATUS 2).raise 0x0F04 noPort (unsigned 9 t + 512 * b2n on)

/-- An overtemperature trip into safe hold (R28, R349, R352). -/
def State.thermTrip (s : State) : State :=
  let s1 := s.lastFault 0x0F13
  match s.pwr.phase with
  | .run => s1.flushStart .therm 9
  | .flush => if s.pwr.flush = .pfail then s else s1.setPwr (fun p => { p with thermTrip := true })
  | .start => ({ s1.dropQueues with pwr := { s1.pwr with cause := 9 } } : State).thermEnter
  | .doze | .dozeExit | .safeHold => s1.thermEnter
  | _ => s

/-- The sensor is powered with the core domain. -/
def State.sensorOn (s : State) : Bool :=
  match s.pwr.phase with
  | .por | .held | .sleep => false
  | _ => true

/-- TEMP_READING (R28, R348 to R350): nothing throttles below 120 °C; MAX holds the highest reading since the start. -/
def State.tempReading (s : State) (raw : Nat) : State :=
  if ¬ s.sensorOn then s
  else
    let t := signed 9 raw
    let m := signed 9 (s.fd Rg.FLT_THERM_STATUS Fl.FLT_THERM_STATUS_MAX)
    let s1 := (s.sf Rg.FLT_THERM_STATUS Fl.FLT_THERM_STATUS_TEMP raw).sf Rg.FLT_THERM_STATUS Fl.FLT_THERM_STATUS_MAX
      (if ¬ s.pwr.tempSeen ∨ t > m then raw else unsigned 9 m)
    let s2 := s1.thermAlert t
    let n := if t ≥ 120 then s.pwr.hotRuns + 1 else 0
    let cool := if s.pwr.phase ≠ .thermHold ∨ t ≥ ((s.fd Rg.FLT_THERM_CFG Fl.FLT_THERM_CFG_RESUME : Nat) : Int) then none
      else some (s.pwr.coolSince.getD s.raw)
    let s3 := s2.setPwr (fun p => { p with hotRuns := n, coolSince := cool, tempSeen := true })
    if n = 3 then s3.thermTrip else s3

def execTempReading (temp : BitVec 9) (s : State) : Host.Outcome State Fault Refusal := .next (s.tempReading temp.toNat)

/-- THERMAL_HOLD_EXIT (R350): TEMP has stayed below RESUME for 1 s; a warm reset without a flush follows, cause 9. -/
def State.thermExit (s : State) : State :=
  match s.pwr.phase, s.pwr.coolSince with
  | .thermHold, some t => ((s.advanceRaw (t + ms 1000)).noteLoss.applyStep.coreReset (fun f => f.w)).startBegin 9
  | _, _ => s

def execThermalHoldExit (s : State) : Host.Outcome State Fault Refusal := .next s.thermExit

/-! ## Power failure (R351, R386) -/

/-- The emergency seal, with every other unit as at the start of a flush; the power-fail hold follows at FLUSH_END (R351). A flush in progress
gives way to the seal (R352), and the loader of a start stops at once, without a seal (R386). In DOZE and the safe holds the units have
stopped before. -/
def State.powerFail (s : State) : State :=
  let c := s.joinCause 7
  let go (t : State) : State := (t.emergencySeal).setPwr (Power.flushing .pfail s.raw c)
  match s.pwr.phase with
  | .por | .held | .sleep | .pfailHold => s
  | .start => s.pfailHold.setPwr (fun p => { p with cause := c, fatal := false })
  | .flush => if s.pwr.flush = .pfail then s else go (s.noteLoss.setChain (fun x => { x with stopped := false }))
  | .run => s.flushStart .pfail c
  | _ => go s.noteLoss.sealFlush

/-- PWRFAIL_ASSERT (R351, R386): low for `low` ns; one between 0.5 and 2 microseconds may act or not. -/
def State.pwrfail (s : State) (low : Nat) : State :=
  let r := s.filtered low 499 2000
  if r.1 then (r.2.setPwr (fun p => { p with pwrfail := true })).powerFail else r.2

def execPwrfailAssert (low : Nat) (s : State) : Host.Outcome State Fault Refusal := .next (s.pwrfail low)

/-- PWRFAIL_RELEASE (R351): the pin has gone high and stays so for 10 ms; the hold, which has begun by then, ends in a RESET_N-type
start. -/
def State.pwrfailRise (s : State) : State :=
  let s1 := s.setPwr (fun p => { p with pwrfail := false })
  let s2 := if s.pwr.phase = .flush ∧ s.pwr.flush = .pfail then s1.flushEnd else s1
  if s2.pwr.phase ≠ .pfailHold then s2
  else
    let c := s2.pwr.cause
    (((s2.advanceRaw (s.raw + ms 10)).hardReset c).setPwr (fun p => { p with cause := c })).holdOrStart

def execPwrfailRelease (s : State) : Host.Outcome State Fault Refusal := .next s.pwrfailRise

end Sys2Proof.Machine
end

