-- ==== Sys2Proof/Machine/EyeServe.lean ====
section
/-! DEFINITION. The eyelet's sender (R355, R357 to R367): STATUS, TELEMETRY and EVENT datagrams, the service of requests, and the
recovery eyelet (R80). -/

namespace Sys2Proof.Machine

/-! ## Datagrams (R355) -/

/-- How a datagram is addressed. -/
structure EyeAddr where
  dst   : Bytes
  src   : Bytes
  vid   : Nat
  v6    : Bool
  srcIp : Bytes
  dstIp : Bytes
  srcPt : Nat
  dstPt : Nat

/-- The checksum of an IPv4 header. -/
def ipSum (h : Bytes) : Bytes := patch h 10 (beBytes 2 ((65535 - onesSum h) % 65535))

/-- The frame that carries a UDP payload. The fields the manual does not state (priority of the tag, traffic class, identification,
flow label, don't-fragment bit, hop limit) are open. -/
def State.eyeFrame (s : State) (a : EyeAddr) (payload : Bytes) : Bytes × State :=
  let r := s.freeBytes 8
  let n := 8 + payload.length
  let tag := [0x81, 0x00] ++ beBytes 2 (byteAt r.1 0 / 16 * 4096 + a.vid)
  let udp := beBytes 2 a.srcPt ++ beBytes 2 a.dstPt ++ beBytes 2 n ++ [0, 0] ++ payload
  let ip :=
    if a.v6 then [0x86, 0xDD] ++ beBytes 4 (6 * 2 ^ 28 + be r.1 1 4 % 2 ^ 28) ++ beBytes 2 n ++ [17] ++ slice r.1 5 1 ++ a.srcIp ++ a.dstIp
    else [0x08, 0x00] ++ ipSum ([0x45] ++ slice r.1 1 1 ++ beBytes 2 (20 + n) ++ slice r.1 2 2 ++ beBytes 2 (byteAt r.1 6 % 2 * 0x4000)
      ++ slice r.1 5 1 ++ [17, 0, 0] ++ a.srcIp ++ a.dstIp)
  (udpSum (a.dst ++ a.src ++ tag ++ ip ++ udp) 18, r.2)

/-- The bytes of a datagram of the KD48 before its tag. -/
def eyeMsg (node kind seq code detail : Nat) (body : Bytes) : Bytes :=
  beBytes 1 (16 + kind) ++ [0x80] ++ beBytes 2 node ++ beBytes 8 seq ++ beBytes 2 (detail * 256 + code) ++ beBytes 2 body.length ++ body

/-- Host and local addresses. -/
def State.eyeHost (s : State) : EyeAddr :=
  ⟨beBytes 6 (s.rd64 Rg.EYE_HOST_MAC), beBytes 6 (s.rd64 Rg.EYE_LOCAL_MAC), s.fd Rg.EYE_CFG Fl.EYE_CFG_VID, s.flag Rg.EYE_CFG Fl.EYE_CFG_IPV6,
    s.eyeIp Rg.EYE_LOCAL_IP, s.eyeIp Rg.EYE_HOST_IP, s.fd Rg.EYE_UDP Fl.EYE_UDP_LOCAL, s.fd Rg.EYE_UDP Fl.EYE_UDP_HOST⟩

/-- A frame of the eyelet as it enters the ground through port 48. -/
def State.ownFrame (s : State) (d : Bytes) (mark : Nat) : Frame :=
  { data := d
    src := 48
    cls := s.fd Rg.EYE_CFG Fl.EYE_CFG_CLASS
    eye := mark
    ts := s.lt
    sof := s.lt
    tsHoop := s.hoopOf s.ltNs
    tsTrust := s.trust }

/-- Sends a datagram. While the key may not be used nothing is sent (R356). -/
def State.eyeSend (s : State) (kind mark code detail : Nat) (body : Bytes) : State :=
  match s.eyeKey with
  | (none, s1) => s1
  | (some key, s1) =>
    let n := (s1.rd Rg.EYE_TX_SEQ + 1) % 2 ^ 32
    let m := eyeMsg s1.node kind (s1.rd Rg.EYE_EPOCH * 2 ^ 32 + n) code detail body
    let f := (s1.wr Rg.EYE_TX_SEQ n).eyeFrame s1.eyeHost (m ++ eyeTag key m)
    f.2.offer (s.ownFrame f.1 mark) (s.fd Rg.EYE_CFG Fl.EYE_CFG_PORT) (.eye kind n)

/-! ## STATUS (R359, R360) -/

/-- The image version in the header of slot `k`, zero when the header is not valid. -/
def State.slotVersion (s : State) (k : Nat) : Nat :=
  let c := s.headCause k
  if c = 2 ∨ c = 3 then 0 else imgVersion (s.header k)

/-- Whether the part is in one of the two safe holds. -/
def State.holding (s : State) : Bool := s.pwr.phase = .safeHold || s.pwr.phase = .thermHold

/-- The STATUS block. -/
def State.statusBlock (s : State) : Bytes :=
  let v := Rg.IMG_STATUS
  beBytes 1 (s.fd Rg.SYS_RESET_CAUSE Fl.SYS_RESET_CAUSE_CAUSE)
    ++ beBytes 1 (s.trust + 4 * s.fd v Fl.IMG_STATUS_METRO_VALID + 8 * b2n s.pins.legalHalt + 16 * b2n s.holding + 32 * b2n s.recoveryOpen
      + 64 * s.fd v Fl.IMG_STATUS_ACTIVE_SLOT + 128 * s.fd v Fl.IMG_STATUS_DEBUG_UNLOCKED)
    ++ beBytes 1 s.lifecycle ++ beBytes 1 (s.fd Rg.IMG_ROLLBACK Fl.IMG_ROLLBACK_FLOOR) ++ beBytes 4 (s.rd Rg.SYS_BOOT_COUNT)
    ++ beBytes 4 s.hoopIx ++ beBytes 4 (s.rd Rg.EYE_EPOCH) ++ beBytes 4 (if s.holding then 0 else s.rd Rg.IMG_ACTIVE_VERSION)
    ++ beBytes 4 (s.slotVersion 0) ++ beBytes 4 (s.slotVersion 1) ++ beBytes 4 (s.rd Rg.FLT_LAST_FAULT) ++ beBytes 4 (s.rd Rg.FLT_LAST_FAULT_HOOP)
    ++ beBytes 6 s.nextSeq ++ zeros 2 ++ beBytes 4 s.appendPage ++ beBytes 4 s.ackPage ++ beBytes 8 (unsigned 64 s.ltNs) ++ zeros 4

/-- Slot and first 12 bytes of the current one of the authority digests that OTP holds. -/
def currentDigest (l : List Bytes) : Nat × Bytes := (l.length - 1, slice (l.getLastD []) 0 12)

/-- The retention block. -/
def State.retentionBlock (s : State) : Bytes :=
  let o := currentDigest s.otp.operDig
  let m := currentDigest s.otp.metroDig
  beBytes 8 s.raw ++ beBytes 8 (s.rd64 Rg.TIME_OFFSET) ++ beBytes 2 (s.rd Rg.TIME_OFFSET_FRAC) ++ beBytes 1 s.appendSlot
    ++ beBytes 1 (b2n s.pwr.dbgMark + 2 * s.fd Rg.TIME_STATUS Fl.TIME_STATUS_RATE_CLAMPED + 4 * b2n s.otp.lockOn)
    ++ beBytes 4 (s.rd Rg.TIME_RATE) ++ beBytes 4 s.holdoverMs ++ beBytes 4 (s.rd Rg.SYS_WAKE_SRC) ++ s.chainHead
    ++ beBytes 2 (if s.otp.lockOn then s.otp.lockNode else 0) ++ beBytes 1 (o.1 % 4 + 4 * (m.1 % 4)) ++ zeros 1 ++ o.2 ++ m.2 ++ zeros 4

/-- The body of every STATUS datagram. -/
def State.statusBody (s : State) : Bytes := s.statusBlock ++ s.retentionBlock

/-! ## TELEMETRY and EVENT (R361, R362) -/

/-- A register as the telemetry shows it. -/
def State.peek (s : State) (a : Nat) : Nat :=
  if latchOnly a then s.latched a
  else
    match blockAt a with
    | none => 0
    | some b => match rowOf b.1 b.2 with
      | none => 0
      | some (r, w) => s.rowWord r w a

/-- Item `n` of the list; `q` gives the samples of queues. -/
def State.telItem (s : State) (q : Nat → List Nat) (n : Nat) : Bytes :=
  let r := Rg.EYE_TEL_LIST n
  let v := s.fd r Fl.EYE_TEL_LIST_ARG
  if s.fd r Fl.EYE_TEL_LIST_KIND = 0 then beBytes 4 (s.peek (0x10000000 + v)) else (q (v % 512)).flatMap (beBytes 4)

/-- The TELEMETRY datagram of a boundary with full hoop count `n`, where one is due. -/
def State.telemetry (s : State) (q : Nat → List Nat) (n : Nat) : State :=
  let r := Rg.EYE_TEL
  if ¬ (s.forwarding ∧ s.flag Rg.EYE_CFG Fl.EYE_CFG_EN ∧ s.flag r Fl.EYE_TEL_EN ∧ n % (s.fd r Fl.EYE_TEL_PERIOD_M1 + 1) = 0) then s
  else
    let k := s.fd r Fl.EYE_TEL_LEN
    let head := beBytes 4 s.hoopIx ++ beBytes 2 k ++ beBytes 1 (b2n s.eye.first + 2 * b2n s.eye.gap) ++ zeros 1
    let body := head ++ (if s.eye.first then s.statusBody else []) ++ (List.range k).flatMap (s.telItem q)
    let before := s.rd Rg.EYE_TX_SEQ
    let t := s.eyeSend 2 0 0 0 body
    if t.rd Rg.EYE_TX_SEQ = before then t else { t with eye := { t.eye with first := false } }

/-- An event record in network order (R371). -/
def evBytes (e : Ev) : Bytes :=
  beBytes 2 e.code ++ beBytes 1 (e.code / 256) ++ beBytes 1 e.port ++ beBytes 4 e.hoop.toNat ++ beBytes 8 e.detail.toNat

/-- The EVENT datagram of the hoop `ix` that ended with the events `l`, of which `lost` went beyond the first 64. -/
def State.eyeEvents (s : State) (ix : Nat) (l : List Ev) (lost : Nat) : State :=
  if ¬ (s.forwarding ∧ s.flag Rg.EYE_CFG Fl.EYE_CFG_EN) ∨ l = [] then s
  else s.eyeSend 3 0 0 0 (beBytes 4 ix ++ beBytes 2 l.length ++ beBytes 2 lost ++ l.flatMap evBytes)

/-! ## Requests (R358 to R366) -/

/-- Sends a reply: of the request's own kind, or a STATUS datagram for STAGE and WARM_RESET; a STATUS datagram carries its body. -/
def State.eyeReply (s : State) (kind mark code detail : Nat) (body : Bytes) : State :=
  if kind = 1 ∨ kind ≥ 6 then s.eyeSend 1 mark code detail s.statusBody else s.eyeSend kind mark code detail body

/-- Serves the oldest request when it is one that `mine` picks, at the end of `lapse`. Nothing is answered but by a part that forwards. -/
def State.eyeServe (s0 : State) (lapse : Nat) (mine : EyeReq → Bool) (f : State → EyeReq → State) : State :=
  let s := s0.advance lapse
  match s.eye.queue with
  | [] => s
  | r :: t => if s.forwarding && mine r then f { s with eye := { s.eye with queue := t } } r else s

/-- A STATUS request (R359). -/
def State.eyeStatusReq (s : State) (r : EyeReq) : State := s.eyeReply 1 0 (if r.body = [] then 0 else 2) 0 []

def execEyeletStatus (lapse : Nat) (s : State) : Host.Outcome State Fault Refusal := .next (s.eyeServe lapse (fun r => r.kind = 1) State.eyeStatusReq)

/-- Whether page `n` of the store is readable: in the ring, opened, and still there. -/
def State.pageThere (s : State) (n : Nat) : Bool :=
  n ≤ s.appendPage && s.inRing n && be (s.flash1 (s.pageAt n) 12) 0 4 = 0x4B525047 && be (s.flash1 (s.pageAt n) 12) 8 4 = n

/-- An EXPORT read (R363); a page whose read OSPI1 fails is answered FLASH_ERROR (R358). An EXPORT request that fits neither op is answered here too. -/
def State.eyeExportRead (s : State) (r : EyeReq) : State :=
  let c := byteAt r.body 1
  let n := be r.body 4 4
  if r.body.length ≠ 8 ∨ byteAt r.body 0 ≠ 0 ∨ c > 3 ∨ be r.body 2 2 ≠ 0 then s.eyeReply 4 0 2 0 []
  else if s.pins.ospiBad1.contains (n % s.storePages) then s.eyeReply 4 0 7 0 []
  else if ¬ s.pageThere n then s.eyeReply 4 0 4 0 []
  else s.eyeReply 4 0 0 0 (beBytes 4 n ++ beBytes 1 c ++ zeros 3 ++ s.flash1 (s.pageAt n + 1024 * c) 1024)

def execEyeletExportRead (lapse : Nat) (s : State) : Host.Outcome State Fault Refusal :=
  .next (s.eyeServe lapse (fun r => r.kind = 4 && byteAt r.body 0 != 1) State.eyeExportRead)

/-- An EXPORT acknowledgement (R363, R323). -/
def State.eyeExportAck (s : State) (r : EyeReq) : State :=
  if r.body.length ≠ 216 ∨ be r.body 1 3 ≠ 0 then s.eyeReply 4 0 2 0 []
  else
    let a := s.sealAck (r.body.drop 4)
    a.2.eyeReply 4 0 (if a.1 then 0 else 3) 0 []

def execEyeletExportAck (lapse : Nat) (s : State) : Host.Outcome State Fault Refusal :=
  .next (s.eyeServe lapse (fun r => r.kind = 4 && byteAt r.body 0 = 1) State.eyeExportAck)

/-- An ATTEST request (R364, R295). One whose key may not be used is REFUSED. -/
def State.eyeAttest (s : State) (r : EyeReq) : State :=
  if r.body.length ≠ 32 then s.eyeReply 5 0 2 0 []
  else
    let m := s.attestMsg r.body
    match s.attest r.body with
    | (none, s1) => s1.eyeReply 5 0 3 0 []
    | (some (tag, sig), s1) => s1.eyeReply 5 0 0 0 (m ++ tag ++ sig.getD [])

/-- Whether the oldest request must wait for the Ed448 engine (R296): an attestation with a signature, while the engine serves another. -/
def State.attestWaits (s : State) : Bool := s.edWants.contains .attest && !s.edServes .attest

def execEyeletAttest (lapse : Nat) (s : State) : Host.Outcome State Fault Refusal :=
  .next (s.eyeServe lapse (fun r => r.kind = 5 && !(s.advance lapse).attestWaits) (fun t r => (t.eyeAttest r).edPick))

/-- Why a STAGE request cannot begin, as a reply status; 0 when it can. -/
def State.stageStatus (s : State) (op off : Nat) (data : Bytes) : Nat :=
  let form : Bool := match op with
    | 1 => off % 65536 = 0 && data = []
    | 2 => off % 256 = 0 && data.length % 256 = 0 && 256 ≤ data.length && data.length ≤ 1024
    | 3 => data = []
    | _ => false
  if ¬ form then 2 else if s.stg.isSome then 1 else if off + data.length > 0x1000000 ∨ (op < 3 ∧ off ≥ 0x1000000) then 3 else 0

/-- A STAGE request (R365): the operation begins, to be answered at its end, or the reply says why not. -/
def State.eyeStage (s : State) (r : EyeReq) : State :=
  let op := byteAt r.body 0
  let off := be r.body 4 4
  let c := if r.body.length < 8 ∨ be r.body 2 2 ≠ 0 then 2 else s.stageStatus op off (r.body.drop 8)
  if c ≠ 0 then s.eyeReply 6 0 c 0 []
  else
    let s1 := s.stageBegin ⟨op, s.otherSlot, off, r.body.drop 8, some r.seq, none⟩
    { s1 with eye := { s1.eye with stage := true } }

/-- EYELET_STAGE_ERASE; a STAGE request of no op is answered here too. -/
def execEyeletStageErase (lapse : Nat) (s : State) : Host.Outcome State Fault Refusal :=
  .next (s.eyeServe lapse (fun r => r.kind = 6 && byteAt r.body 0 != 2 && byteAt r.body 0 != 3) State.eyeStage)
def execEyeletStageProgram (lapse : Nat) (s : State) : Host.Outcome State Fault Refusal :=
  .next (s.eyeServe lapse (fun r => r.kind = 6 && byteAt r.body 0 = 2) State.eyeStage)
def execEyeletStageCheck (lapse : Nat) (s : State) : Host.Outcome State Fault Refusal :=
  .next (s.eyeServe lapse (fun r => r.kind = 6 && byteAt r.body 0 = 3) State.eyeStage)

/-- A WARM_RESET request (R366); while one is pending another is answered and changes nothing. -/
def State.eyeWarmReset (s : State) (r : EyeReq) : State :=
  if r.body ≠ beBytes 4 0x57525354 then s.eyeReply 7 0 3 0 []
  else
    let s1 := if s.pwr.eyeReset.isSome then s else s.setPwr (fun p => { p with eyeReset := some s.raw, eyeReplied := false })
    s1.eyeReply 7 7 0 0 []

def execEyeletWarmReset (lapse : Nat) (s : State) : Host.Outcome State Fault Refusal := .next (s.eyeServe lapse (fun r => r.kind = 7) State.eyeWarmReset)

/-- EYELET_RESET_DELAY (R366): 1 ms after acceptance the warm reset begins. -/
def State.eyeResetDelay (s : State) : State :=
  match s.pwr.eyeReset with
  | none => s
  | some t => if s.pwr.phase = .run then (s.advanceRaw (t + ms 1)).warmReset 3 else s

def execEyeletResetDelay (s : State) : Host.Outcome State Fault Refusal := .next s.eyeResetDelay

/-- The boundary's part: the warm reset begins when the reply has left its port. -/
def State.eyeResetBoundary (s : State) : State :=
  if s.pwr.phase = .run ∧ s.pwr.eyeReset.isSome ∧ s.pwr.eyeReplied then s.warmReset 3 else s

/-! ## The recovery eyelet (R80, R367) -/

/-- UDP port of the recovery eyelet. -/
def recoveryUdp : Nat := 51411

/-- The reply to a recovery request that came in frame `d`, as it leaves the port. -/
def State.recoveryReply (s : State) (port : Nat) (d : Bytes) (code detail : Nat) : State :=
  match udpAt false d with
  | none => s
  | some u =>
    let a : EyeAddr := ⟨slice d 6 6, [0x02, 0x4B, 0x44] ++ slice s.otp.uid 13 3, s.otp.recovery / 256 % 4096, false, u.dst, u.src, recoveryUdp, be d u.udp 2⟩
    let m := eyeMsg (if s.otp.lockOn then s.otp.lockNode else 0xFFFF) 1 (be d (u.udp + 12) 8) code detail s.statusBody
    let f := s.eyeFrame a (m ++ zeros 16)
    { (f.2.count (eyeC 5)) with sent := f.2.sent ++ [⟨port, f.1, false, fcsOf f.1 false⟩] }

/-- A recovery STAGE request in frame `d`. -/
def State.recoveryServe (s : State) (port : Nat) (d : Bytes) (seq : Nat) (body : Bytes) : State :=
  let op := byteAt body 0
  let slot := byteAt body 1
  let off := be body 4 4
  let c := if body.length < 8 ∨ be body 2 2 ≠ 0 ∨ slot > 1 then 2 else s.stageStatus op off (body.drop 8)
  if c ≠ 0 then s.recoveryReply port d c 0
  else
    let s1 := s.stageBegin ⟨op, slot, off, body.drop 8, some seq, some { data := d, src := port }⟩
    { s1 with eye := { s1.eye with stage := true } }

/-- RECOVERY_STAGE: a frame that came on `port`, whose link is up, in safe hold. -/
def State.recoveryStage (s : State) (port : Nat) (d : Bytes) : State :=
  if ¬ (s.recoveryOpen ∧ port = s.otp.recovery % 64 ∧ s.linkUp port ∧ isTagged d ∧ outerTci d % 4096 = s.otp.recovery / 256 % 4096) then s
  else
    match udpAt false d with
    | none => s
    | some u =>
      let g := u.udp + 8
      let b := be d (g + 14) 2
      if be d (u.udp + 2) 2 ≠ recoveryUdp then s
      else if byteAt d g ≠ 0x16 ∨ byteAt d (g + 1) ≥ 128 ∨ be d (u.udp + 4) 2 ≠ 40 + b then s.count (eyeC 3)
      else (s.count (eyeC 0)).recoveryServe port d (be d (g + 4) 8) (slice d (g + 16) b)

def execRecoveryStage (lapse : Nat) (port : Fin 24) (frame : Bytes) (s : State) : Host.Outcome State Fault Refusal :=
  .next ((s.advance lapse).recoveryStage port.val frame)

/-! ## The end of a staging operation -/

/-- Reply status and detail of an operation that ended. -/
def stageCode (op cause : Nat) (ok : Bool) : Nat × Nat :=
  if op = 3 then (if cause = 0 then (0, 0) else (5, cause)) else if ok then (0, 0) else (7, 0)

/-- STAGE_OP_COMPLETE: a check ends only once the Ed448 engine has taken it (R296). The engine is free, the eyelet's request is answered, and in recovery a check that passes starts the warm
reset. -/
def State.stageComplete (s : State) (ok : Bool) : State :=
  match s.stg with
  | none => s
  | some j =>
    if j.op = 3 ∧ ¬ s.edServes .verifier then s
    else
    let r := s.stageEnd j ok
    let c := stageCode j.op r.1 ok
    if j.eye.isNone then r.2
    else
      let s1 : State := { r.2 with eye := { r.2.eye with stage := false } }
      match j.reply with
      | none => if s1.forwarding then s1.eyeReply 6 0 c.1 c.2 [] else s1
      | some f =>
        let s2 := s1.recoveryReply f.src f.data c.1 c.2
        if j.op = 3 ∧ r.1 = 0 then s2.warmReset 10 else s2

def execStageOpComplete (ok : Bool) (s : State) : Host.Outcome State Fault Refusal := .next (s.stageComplete ok)

end Sys2Proof.Machine
end

