-- ==== Sys2Proof/Machine/Boundary.lean ====
section
/-! DEFINITION. The hoop boundary (R46, R49 to R52): what each unit does in the boundary cycle, in the order of R49. -/

namespace Sys2Proof.Machine

/-- What a counter held when the boundary fell due: the events of the boundary cycle are credited to the new bank (R52). -/
def State.atDue (s : State) (r : Reg) : Nat := s.rd r + (2 ^ 32 - sget s.sinceDue.counts r.addr 0 % 2 ^ 32)

/-- The port counters are copied into their snapshot registers (R98). -/
def State.snapshots (s : State) : State :=
  let copy (n : Nat) (c d : Nat → Reg) (t : State) : State := (List.range n).foldl (fun u i => u.wr (d i) (s.atDue (c i))) t
  let s1 := (List.range 24).foldl (fun t p => copy 48 (Rg.ETH_CNT p) (Rg.ETH_CNT_SNAP p) t) s
  let s2 := (List.range 8).foldl (fun t k => copy 16 (Rg.T1S_CNT (24 + k)) (Rg.T1S_CNT_SNAP (24 + k)) t) s1
  (List.range 16).foldl (fun t k => copy 32 (Rg.CAN_CNT (32 + k)) (Rg.CAN_CNT_SNAP (32 + k)) t) s2

/-- A new hoop begins: what is counted by the hoop starts again. -/
def State.newHoop (s : State) : State :=
  { s with
    ev := { s.ev with marks := [], eye := [], eyeLost := 0 }
    clk := { s.clk with boundRaw := s.dueRaw, swapped := false, built := false } }

/-- Whether the latest boundary was a repeat boundary (R47). -/
def State.atRepeat (s : State) : Bool := s.fd Rg.HOOP_POS Fl.HOOP_POS_POS = 0

/-- The repeat in progress so far had trust SYNCED at each of its boundaries. -/
def State.noteSynced (s : State) : State :=
  { s with clk := { s.clk with repSynced := s.synced && (s.atRepeat || s.clk.repSynced) } }

/-- The gates of the ports 0 to 31 (R206, R210); `was` is the trust before the boundary, `first` marks the first boundary of forwarding. -/
def State.gatesBoundary (s : State) (was : Nat) (first : Bool) : State :=
  let left := decide (was = Trust.synced) && !s.synced
  let s1 := if first then (List.range 32).foldl State.gateStart s else (List.range 32).foldl (State.gateBoundary left s.atRepeat) s
  s1.noteSynced

/-- The step-1 actions of R49 in a part that runs or flushes: statistics and samplers, GPIO, index, pending swaps and commits, trust,
gates. `pins` are the levels the board drives on the GPIO pins. -/
def State.stepOne (s : State) (pins : Word) : State :=
  let was := s.trust
  let from_ := s.clk.boundRaw
  let first := decide (s.pwr.phase = .run) && !s.pwr.fwd
  let s1 := (s.snapshots.sampleBoundary s.hoopIx).gpioBoundary pins
  let s2 := s1.newHoop.hoopSync
  let s3 : State := { s2 with pwr := { s2.pwr with fwd := s2.pwr.fwd || first } }
  let s4 := (s3.parseBoundary.tblBoundary.keyCommits).msecBoundary s3.hoopCount
  let s5 := (s4.trustBoundary).gatesBoundary was first
  (((List.range 24).foldl (State.pauseBoundary from_) s5.refresh).sealBoundary).setBit Rg.SYS_IRQ_HOOP Fl.SYS_IRQ_HOOP_PEND.lo

/-- What the running units do at a boundary besides, in a part that forwards. -/
def State.runBoundary (s : State) (q : Nat → List Nat) (old : Events) (ix : Nat) : State :=
  let s1 := (s.telemetry q s.hoopCount).eyeEvents ix old.eye old.eyeLost
  let s2 := (s1.sampleRun s1.smp.length).brgBoundary (s1.rd Rg.GPIO_SAMPLE)
  let s3 := (s2.wdogBoundary.eyeResetBoundary).dozeBoundary
  if s3.atRepeat ∧ s3.pwr.phase = .run then s3.quietBoundary else s3

/-- A boundary of a part whose datapath stands: index and trust only (R340, R79, R349). -/
def State.idleBoundary (s : State) : State :=
  let s1 := ((List.range 52).foldl State.sampleStart s).newHoop.hoopSync.trustBoundary
  let s2 : State := { s1 with clk := { s1.clk with swapped := true, built := true, repSynced := false } }
  if s2.pwr.phase = .doze ∧ s2.atRepeat then s2.setPwr (fun p => { p with dozeReps := p.dozeReps + 1 }) else s2

/-- The boundary is over: what had waited for it, or was held back to the one after, counts from now on. -/
def State.settled (s : State) : State := { s with sinceDue := ⟨[], [], 0, []⟩ }

/-- HOOP_BOUNDARY: time passes to the first cycle in which LT has reached the boundary. -/
def State.boundary (s0 : State) (pins : Word) : State :=
  if ¬ s0.hoopsRun then s0
  else
    let s1 := s0.advanceTo s0.nextB
    let s := s1.injectDue
    match s1.pwr.phase with
    | .run => (((s.stepOne pins).settled).runBoundary (s.sampleOf s.hoopIx) s.ev s.hoopIx)
    | .flush => (s.stepOne pins).settled
    | _ => s1.idleBoundary.settled

def execHoopBoundary (pins : Word) (s : State) : Host.Outcome State Fault Refusal := .next (s.boundary pins).fatalAct

end Sys2Proof.Machine
end

