-- ==== Sys2Proof/Machine/Fatal.lean ====
section
/-! DEFINITION. The commands whose reads can meet a fatal double-bit error (R337, R347): each does its work, and a fatal fault it has found
acts at its end. -/

namespace Sys2Proof.Machine

/-- REG64_LOW_READ (R4): a read of a register's low word, or any other load of a management core. -/
def execReg64LowRead (lapse : Nat) (load : CoreLoad) (s : State) : Host.Outcome State Fault Refusal :=
  .next ((s.advance lapse).fw (·.coreLoad load)).fatalAct

/-- FRAME_PARSE (R131). -/
def execFrameParse (s : State) : Host.Outcome State Fault Refusal := .next (s.frameParse.txSettled s).fatalAct

/-- FRAME_ADMISSION (R184). -/
def execFrameAdmission (s : State) : Host.Outcome State Fault Refusal := .next (s.frameAdmission.txSettled s).fatalAct

/-- FRAME_CAPTURE (R216 to R219). -/
def execFrameCapture (lapse : Nat) (s : State) : Host.Outcome State Fault Refusal := .next (s.advance lapse).frameCapture.fatalAct

/-- EVIDENCE_FORM (R306). -/
def execEvidenceForm (s : State) : Host.Outcome State Fault Refusal := .next s.evidenceForm.fatalAct

/-- EMIT_BUILD_START (R236). -/
def execEmitBuildStart (s : State) : Host.Outcome State Fault Refusal := .next s.emitStart.fatalAct

/-- SWAP_DELAY_EXPIRY (R50). -/
def execSwapDelayExpiry (s : State) : Host.Outcome State Fault Refusal := .next s.swapDelay.fatalAct

/-- DMA_READ and DMA_ACT_READ (R169). -/
def execDmaRead (s : State) : Host.Outcome State Fault Refusal := .next (s.dmaStep 1 State.dmaRead).fatalAct
def execDmaActRead (s : State) : Host.Outcome State Fault Refusal := .next (s.dmaStep 8 State.dmaActRead).fatalAct

/-- POLICER_READ (R196), POLICER_SWEEP (R197). -/
def execPolicerRead (index : Fin 16384) (s : State) : Host.Outcome State Fault Refusal := .next (s.fw (·.policerRead index.val)).fatalAct
def execPolicerSweep (index : Fin 16384) (s : State) : Host.Outcome State Fault Refusal := .next (s.policerSweep index.val).fatalAct

/-- MC_GROUP_READ (R187). -/
def execMcGroupRead (group : Fin 4096) (s : State) : Host.Outcome State Fault Refusal := .next (s.fw (·.mcRead group.val)).fatalAct

/-! ## The bridge, whose reports read templates (R277) -/

/-- COP_READ_REQUEST (R267): the oldest frame at port 50 is a COP datagram other than a WRITE. -/
def execCopReadRequest (lapse : Nat) (s : State) : Host.Outcome State Fault Refusal :=
  .next ((s.advance lapse).brgTake (fun t f h => match h with
    | .cop q => if q.type = 4 then none else some (t.copRequest f q)
    | _ => none)).fatalAct

/-- COP_WRITE_REQUEST (R267): the oldest frame at port 50 is a COP WRITE. -/
def execCopWriteRequest (lapse : Nat) (s : State) : Host.Outcome State Fault Refusal :=
  .next ((s.advance lapse).brgTake (fun t f h => match h with
    | .cop q => if q.type = 4 then some (t.copRequest f q) else none
    | _ => none)).fatalAct

/-- BRG_DISPATCH (R269). -/
def execBrgDispatch (slot : Fin 256) (s : State) : Host.Outcome State Fault Refusal := .next (s.brgDispatch slot.val).brgFlush.fatalAct

/-- FAR_READ_RSP (R273): the oldest frame at port 50 is a far-side message other than WRITE_ACK and NEG_RSP. -/
def execFarReadRsp (lapse : Nat) (s : State) : Host.Outcome State Fault Refusal :=
  .next ((s.advance lapse).farTake (fun k => k != 4 && k != 5) State.readSeg).fatalAct

/-- FAR_WRITE_ACK (R275). -/
def execFarWriteAck (lapse : Nat) (s : State) : Host.Outcome State Fault Refusal :=
  .next ((s.advance lapse).farTake (fun k => k = 4) (fun t _ m => t.writeAck m)).fatalAct

/-- FAR_NEG_RSP (R275). -/
def execFarNegRsp (lapse : Nat) (s : State) : Host.Outcome State Fault Refusal :=
  .next ((s.advance lapse).farTake (fun k => k = 5) (fun t _ m => t.negRsp m)).fatalAct

/-- BRG_TRANSACTION_TIMEOUT (R270) and BRG_COLLECT_EXPIRY (R273). -/
def execBrgTransactionTimeout (slot : Fin 256) (s : State) : Host.Outcome State Fault Refusal := .next (s.brgTimeout slot.val).brgFlush.fatalAct

def execBrgCollectExpiry (slot : Fin 256) (s : State) : Host.Outcome State Fault Refusal := .next (s.brgExpire slot.val).brgFlush.fatalAct

end Sys2Proof.Machine
end

