-- ==== Sys2Proof/Machine/Regs.lean ====
section
/-! DEFINITION. REGISTER_WRITE (R4 to R7, R10, R374): a 32-bit write of a management core to any address. A register whose write does
more than store it is handed to the meaning of that write; the others are written field by field. -/

namespace Sys2Proof.Machine

/-- The index below `n` whose register lies at an address. -/
def indexAt (a n : Nat) (r : Nat → Reg) : Option Nat := (List.range n).find? (fun i => a = (r i).addr)

/-- A command field with an encoding that is reserved: nothing is done, and the write is reported. -/
def State.reservedCmd (s : State) (a v : Nat) : State := s.ignored a v

/-- A write that is ignored, with its event, while `busy` holds. -/
def State.guarded (s : State) (busy : Bool) (a v : Nat) : State := if busy then s.ignored a v else s.plainWrite a v

/-- SYS_SP_RX_BASE[r] and SYS_SP_RX_CFG[r] (R368): ignored while the ring holds slots, or where the ring would leave management memory. -/
def State.spRingWrite (s : State) (r a v : Nat) : State :=
  let t := s.plainWrite a v
  let bytes := 2048 * 2 ^ t.fd (Rg.SYS_SP_RX_CFG r) Fl.SYS_SP_RX_CFG_SLOT * 2 ^ t.fd (Rg.SYS_SP_RX_CFG r) Fl.SYS_SP_RX_CFG_LOG2
  s.guarded (s.rd (Rg.SYS_SP_RX_WR r) != s.rd (Rg.SYS_SP_RX_RD r) || !s.inMgmt (t.rd (Rg.SYS_SP_RX_BASE r)) bytes) a v

/-- Writes of block SYS. -/
def State.sysWrite (s : State) (a v : Nat) : State :=
  if a = Rg.SYS_RESET_REQ.addr then s.resetReq v
  else if a = Rg.SYS_PWR_CTRL.addr then s.pwrCtrl v
  else if a = Rg.SYS_EVT_CTRL.addr then s.wr Rg.SYS_EVT_CTRL (v % 2)
  else if a = Rg.SYS_EVT_BASE.addr ∨ a = Rg.SYS_EVT_SIZE.addr then s.guarded (s.flag Rg.SYS_EVT_CTRL Fl.SYS_EVT_CTRL_EN) a v
  else if a = Rg.SYS_SP_TX_BASE.addr ∨ a = Rg.SYS_SP_TX_SIZE.addr then s.guarded (s.rd Rg.SYS_SP_TX_TAIL != s.rd Rg.SYS_SP_TX_HEAD) a v
  else
    match indexAt a 4 Rg.SYS_SP_RX_BASE, indexAt a 4 Rg.SYS_SP_RX_CFG with
    | some r, _ => s.spRingWrite r a v
    | _, some r => s.spRingWrite r a v
    | _, _ => s.plainWrite a v

/-- Writes of block TIME/HOOP. -/
def State.timeWrite (s : State) (a v : Nat) : State :=
  if a = Rg.TIME_CTRL.addr then s.timeCtrlWrite v
  else if a = Rg.TIME_RATE.addr then s.timeRateWrite v
  else if a = Rg.TIME_ADJ.addr then s.timeAdjWrite v
  else if a = Rg.TIME_SERVO_OFFSET.addr then s.servo v
  else
    match indexAt a 8 Rg.TIME_TSQ_POP with
    | some g => s.tsqPop g v
    | none => s.plainWrite a v

/-- Writes of block IMAGE. -/
def State.imageWrite (s : State) (a v : Nat) : State :=
  if a = Rg.IMG_EPOCH_COMMIT.addr then s.epochCommit v
  else if a = Rg.IMG_STAGE_CTRL.addr then s.stageCmd (fieldOf v Fl.IMG_STAGE_CTRL_CMD)
  else s.plainWrite a v

/-- Writes of the port block of port `p`. -/
def State.portWrite (s : State) (p a v : Nat) : State :=
  if isEth p then (if a = (Rg.ETH_MDIO_CMD p).addr then s.mdioCmd p v else s.plainWrite a v)
  else if ¬ isCan p then s.plainWrite a v
  else if a = (Rg.CAN_RECOVER p).addr then s.canRecover p v
  else if a = (Rg.CAN_MFIFO_POP p).addr then
    (if bitOf v 0 then s.mfifoPop p else s)
  else if a = (Rg.CAN_MTX_CMD p).addr then
    match fieldOf v Fl.CAN_MTX_CMD_OP with
    | 0 => s
    | 1 => s.mtxLoad p (fieldOf v Fl.CAN_MTX_CMD_BUF)
    | 2 => s.mtxCancel p (fieldOf v Fl.CAN_MTX_CMD_BUF)
    | _ => s.reservedCmd a v
  else
    match indexAt a 4 (Rg.CAN_PRIO_CTRL p) with
    | some k => if bitOf v 3 then s.prioRelease p k else s
    | none => s.plainWrite a v

/-- Writes of block PARSE. -/
def State.parseWrite (s : State) (a v : Nat) : State :=
  if a = Rg.PARSE_BANK_CTRL.addr then
    match fieldOf v Fl.PARSE_BANK_CTRL_CMD with
    | 0 => s
    | 1 => s.parseValidate
    | 2 => s.swapRequest
    | _ => s.reservedCmd a v
  else s.plainWrite a v

/-- Writes of block TABLE DMA. The standby seeds cannot be written while a rehash is prepared or pending (R172). -/
def State.tableWrite (s : State) (a v : Nat) : State :=
  let seed := indexAt (a - a % 8) 4 Rg.TBL_SEED_STBY
  if a = Rg.TBL_DMA_BASE.addr ∨ a = Rg.TBL_DMA_SIZE.addr then s.guarded (s.rd Rg.TBL_DMA_TAIL != s.rd Rg.TBL_DMA_HEAD) a v
  else
    match indexAt a 4 Rg.TBL_BANK_CTRL, seed with
    | some t, _ =>
      match fieldOf v Fl.TBL_BANK_CTRL_CMD with
      | 0 => s
      | 1 => s.tblPrepare t
      | 2 => s.tblCommit t
      | _ => s.tblAbort t
    | _, some t => if hashed t ∧ s.tblState t ≠ 0 then s else s.plainWrite a v
    | _, _ => s.plainWrite a v

/-- Writes of block GROUND/BUF. -/
def State.bufWrite (s : State) (a v : Nat) : State :=
  if a = Rg.BUF_MC_CMD.addr then
    match fieldOf v Fl.BUF_MC_CMD_OP with
    | 0 => s
    | 1 => s.mcWrite (fieldOf v Fl.BUF_MC_CMD_GROUP)
    | 2 => s.mcRead (fieldOf v Fl.BUF_MC_CMD_GROUP)
    | _ => s.reservedCmd a v
  else if a = Rg.BUF_POL_CMD.addr then
    match fieldOf v Fl.BUF_POL_CMD_OP with
    | 0 => s
    | 1 => s.policerWrite (fieldOf v Fl.BUF_POL_CMD_INDEX) (bitOf v 16)
    | 2 => s.policerRead (fieldOf v Fl.BUF_POL_CMD_INDEX)
    | _ => s.reservedCmd a v
  else s.plainWrite a v

/-- Writes of block BOBBIN. -/
def State.bobWrite (s : State) (a v : Nat) : State :=
  if a = Rg.BOB_SIGW_CMD.addr then s.sigwGo v
  else if a = Rg.BOB_SIGW_STATUS.addr then s.sigDrain.plainWrite a v
  else if a = Rg.BOB_PRIV_CMD.addr then
    match fieldOf v Fl.BOB_PRIV_CMD_OP with
    | 0 => s
    | 1 => s.privRead
    | 2 => s.privWrite
    | _ => s.reservedCmd a v
  else s.plainWrite a v

/-- Writes of block KEY/CIPHER. -/
def State.keyWrite (s : State) (a v : Nat) : State :=
  if a = Rg.KEY_CMD.addr then
    match fieldOf v Fl.KEY_CMD_OP with
    | 0 => s
    | 1 => s.keyReplace (fieldOf v Fl.KEY_CMD_SLOT)
    | 2 => s.keyDestroy (fieldOf v Fl.KEY_CMD_SLOT)
    | _ => s.reservedCmd a v
  else if a = Rg.KEY_SVC_CMD.addr then (if bitOf v 0 then s.svcGo else s)
  else s.plainWrite a v

/-- Writes of an egress block, and of the global one. -/
def State.egrWrite (s : State) (a v : Nat) : State :=
  let p := (a - 0x10500000) / 0x1000
  if a = Rg.EGR_SAMPLE_BASE.addr ∨ a = Rg.EGR_SAMPLE_SIZE.addr then s.guarded (s.rd Rg.EGR_SAMPLE_WR != s.rd Rg.EGR_SAMPLE_RD) a v
  else if p < 52 ∧ a = (Rg.EGR_GATE_CTRL p).addr then s.gateTest p v
  else if (shaperAt a).isSome then s.shaperWrite a v
  else s.plainWrite a v

/-- An aligned write into the register map, by block. -/
def State.blockWrite (s : State) (a v : Nat) : State :=
  match a / 0x10000 with
  | 0x1000 => s.sysWrite a v
  | 0x1001 => s.timeWrite a v
  | 0x1002 => s.imageWrite a v
  | 0x1020 => s.parseWrite a v
  | 0x1021 => s.standbyWrite (a - 0x10210000) v
  | 0x1022 => s.standbyWrite (a - 0x10210000) v
  | 0x1030 => s.tableWrite a v
  | 0x1040 => s.bufWrite a v
  | 0x1060 => s.bobWrite a v
  | 0x1080 => s.keyWrite a v
  | 0x10C0 => if a = Rg.GPIO_OUT.addr then s.gpioWrite (BitVec.ofNat 32 v) else s.plainWrite a v
  | 0x10B0 => if a = Rg.FLT_WDOG_KICK.addr then (if bitOf v 0 then s.wdogFull else s) else s.plainWrite a v
  | _ =>
    let p := (a - 0x10100000) / 0x1000
    if 0x10100000 ≤ a ∧ p < 48 then s.portWrite p a v
    else if 0x10500000 ≤ a ∧ a < 0x10540000 then s.egrWrite a v
    else s.plainWrite a v

/-- Whether an address lies in the register map. -/
def mapped (a : Nat) : Bool := (0x10210000 ≤ a && a < 0x10230000) || (blockAt a).isSome

/-- A store of the low `n` bytes of `v` into management memory. -/
def State.memStore (s : State) (a n v : Nat) : State :=
  if s.inMgmt a n then (s.setMem a (leBytes n v)).mendedIn 8 a n else s.accessFault

/-- What an atomic operation on `n` bytes leaves, from what they held and the operand. -/
def amoResult (op : CoreOp) (n old v : Nat) : Nat :=
  let w := 8 * n
  match op with
  | .add => old + v
  | .xor => old ^^^ v
  | .and => old &&& v
  | .or => old ||| v
  | .min => if signed w old ≤ signed w (v % 2 ^ w) then old else v
  | .max => if signed w old ≥ signed w (v % 2 ^ w) then old else v
  | .minu => Nat.min old (v % 2 ^ w)
  | .maxu => Nat.max old (v % 2 ^ w)
  | _ => v

/-- An atomic operation on management memory, which brings what the bytes held; or a store-conditional, which brings 0 where it stores, under
the core's reservation of the same bytes, and 1 where it does not. PRESUMED (log 162): as the A extension of RISC-V has them. -/
def State.memAtomic (s : State) (a n : Nat) (op : CoreOp) (v : Nat) : State :=
  if ¬ s.atomicOk a n then s.accessFault
  else
    match op with
    | .storeCond c =>
      let t : State := { s with resv := s.resv.filter (fun r => r.1 ≠ c) }
      if s.resv.contains (c, a, n) then (t.memStore a n v).got 0 else t.got 1
    | _ =>
      let t := s.memLoad a n
      if t.readPort.fault then t else t.memStore a n (amoResult op n (s.memLe a n) v)

/-- A 32-bit write of a management core. -/
def State.regWrite (s : State) (a v : Nat) : State :=
  if a < 0x10000000 then s.memStore a 4 v
  else if a % 4 ≠ 0 ∨ ¬ mapped a then s.accessFault
  else s.blockWrite a v

/-- A store of a management core (R374): registers accept aligned 32-bit stores alone, management memory any width and the atomic operations. -/
def State.coreStore (s : State) (a : Nat) (x : CoreStore) : State :=
  let n := x.width.bytes
  if x.op = .store then
    if n = 4 then s.regWrite a (x.value.toNat % 2 ^ 32) else if a < 0x10000000 then s.memStore a n x.value.toNat else s.accessFault
  else s.memAtomic a n x.op x.value.toNat

/-- REGISTER_WRITE. -/
def execRegisterWrite (lapse : Nat) (addr : Word) (value : CoreStore) (s : State) : Host.Outcome State Fault Refusal :=
  .next ((s.advance lapse).fw (·.coreStore addr.toNat value)).fatalAct

end Sys2Proof.Machine
end

