-- ==== Sys2Proof/Machine/Dispatch.lean ====
section
/-! DEFINITION. The meaning of every command: one arm for each constructor of Instr. -/

namespace Sys2Proof.Machine


def exec (i : Instr) (s : State) : Host.Outcome State Fault Refusal :=
  match i with
  | .registerWrite lapse addr value => Sys2Proof.Machine.execRegisterWrite lapse addr value s
  | .reg64LowRead lapse load => Sys2Proof.Machine.execReg64LowRead lapse load s
  | .timeNowRead lapse => Sys2Proof.Machine.execTimeNowRead lapse s
  | .timeRateWrite lapse value => Sys2Proof.Machine.execTimeRateWrite lapse value s
  | .timeAdjWrite lapse value => Sys2Proof.Machine.execTimeAdjWrite lapse value s
  | .timeAdjDone => Sys2Proof.Machine.execTimeAdjDone s
  | .servoReport lapse value => Sys2Proof.Machine.execServoReport lapse value s
  | .forceLoss lapse value => Sys2Proof.Machine.execForceLoss lapse value s
  | .syncReportTimeout => Sys2Proof.Machine.execSyncReportTimeout s
  | .holdoverExpiry => Sys2Proof.Machine.execHoldoverExpiry s
  | .hoopBoundary pins => Sys2Proof.Machine.execHoopBoundary pins s
  | .swapDelayExpiry => Sys2Proof.Machine.execSwapDelayExpiry s
  | .ppsInEdge lapse k => Sys2Proof.Machine.execPpsInEdge lapse k s
  | .ppsInMissing k => Sys2Proof.Machine.execPpsInMissing k s
  | .ppsOutPulse j => Sys2Proof.Machine.execPpsOutPulse j s
  | .timeTsqPop g value => Sys2Proof.Machine.execTimeTsqPop g value s
  | .powerOnReset dip => Sys2Proof.Machine.execPowerOnReset dip s
  | .resetNAssert low => Sys2Proof.Machine.execResetNAssert low s
  | .resetNRelease => Sys2Proof.Machine.execResetNRelease s
  | .firmwareResetRequest lapse value => Sys2Proof.Machine.execFirmwareResetRequest lapse value s
  | .tailSeal => Sys2Proof.Machine.execTailSeal s
  | .flushEnd => Sys2Proof.Machine.execFlushEnd s
  | .loadSlot => Sys2Proof.Machine.execLoadSlot s
  | .writeRecord sec addr value mask => Sys2Proof.Machine.execWriteRecord sec addr value mask s
  | .tableRecord sec table key result => Sys2Proof.Machine.execTableRecord sec table key result s
  | .blobRecord sec region offset data => Sys2Proof.Machine.execBlobRecord sec region offset data s
  | .checkRecord sec addr mask expected => Sys2Proof.Machine.execCheckRecord sec addr mask expected s
  | .mdioRecord port clause phy device register value wait => Sys2Proof.Machine.execMdioRecord port clause phy device register value wait s
  | .dualRecord sec payload => Sys2Proof.Machine.execDualRecord sec payload s
  | .keyslotRecord sec payload => Sys2Proof.Machine.execKeyslotRecord sec payload s
  | .authKeyRecord payload => Sys2Proof.Machine.execAuthKeyRecord payload s
  | .lifecycleRecord payload => Sys2Proof.Machine.execLifecycleRecord payload s
  | .endRecord sec => Sys2Proof.Machine.execEndRecord sec s
  | .sealedRegisterLock => Sys2Proof.Machine.execSealedRegisterLock s
  | .debugToken token => Sys2Proof.Machine.execDebugToken token s
  | .imgEpochCommit value => Sys2Proof.Machine.execImgEpochCommit value s
  | .stageErase lapse => Sys2Proof.Machine.execStageErase lapse s
  | .stageProgram lapse => Sys2Proof.Machine.execStageProgram lapse s
  | .stageCheck lapse => Sys2Proof.Machine.execStageCheck lapse s
  | .stageOpComplete ok => Sys2Proof.Machine.execStageOpComplete ok s
  | .recoveryStage lapse port frame => Sys2Proof.Machine.execRecoveryStage lapse port frame s
  | .signalDetect lapse p => Sys2Proof.Machine.execSignalDetect lapse p s
  | .adaptFreeze p ctle dfe1 => Sys2Proof.Machine.execAdaptFreeze p ctle dfe1 s
  | .adaptRetry p => Sys2Proof.Machine.execAdaptRetry p s
  | .pcsLockAcquired lapse lock => Sys2Proof.Machine.execPcsLockAcquired lapse lock s
  | .ethLinkUp p => Sys2Proof.Machine.execEthLinkUp p s
  | .ethLinkDown lapse p loss => Sys2Proof.Machine.execEthLinkDown lapse p loss s
  | .ethFrameReceive lapse p rx => Sys2Proof.Machine.execEthFrameReceive lapse p rx s
  | .pauseReceive lapse p quanta => Sys2Proof.Machine.execPauseReceive lapse p quanta s
  | .pfcReceive lapse p enables quanta => Sys2Proof.Machine.execPfcReceive lapse p enables quanta s
  | .pauseExpiry p cls => Sys2Proof.Machine.execPauseExpiry p cls s
  | .pauseWdogTrip p cls => Sys2Proof.Machine.execPauseWdogTrip p cls s
  | .pauseIgnoreEnd p cls => Sys2Proof.Machine.execPauseIgnoreEnd p cls s
  | .txUnderrun lapse p => Sys2Proof.Machine.execTxUnderrun lapse p s
  | .mdioRead lapse p value => Sys2Proof.Machine.execMdioRead lapse p value s
  | .mdioReadDone lapse p data => Sys2Proof.Machine.execMdioReadDone lapse p data s
  | .canMessageReceive lapse n msg => Sys2Proof.Machine.execCanMessageReceive lapse n msg s
  | .canProtocolException lapse n fmt => Sys2Proof.Machine.execCanProtocolException lapse n fmt s
  | .canError lapse n err transmitting dominantAfterFlag => Sys2Proof.Machine.execCanError lapse n err transmitting dominantAfterFlag s
  | .canRecover lapse n value => Sys2Proof.Machine.execCanRecover lapse n value s
  | .canBusRecovered lapse n => Sys2Proof.Machine.execCanBusRecovered lapse n s
  | .canMfifoPop n value => Sys2Proof.Machine.execCanMfifoPop n value s
  | .prioBufRead n k => Sys2Proof.Machine.execPrioBufRead n k s
  | .prioRelease n k value => Sys2Proof.Machine.execPrioRelease n k value s
  | .canMtxLoad lapse n buf => Sys2Proof.Machine.execCanMtxLoad lapse n buf s
  | .canMtxCancel lapse n buf => Sys2Proof.Machine.execCanMtxCancel lapse n buf s
  | .canTxbufLoad lapse n c => Sys2Proof.Machine.execCanTxbufLoad lapse n c s
  | .canTxCommit lapse n => Sys2Proof.Machine.execCanTxCommit lapse n s
  | .canArbLost lapse n => Sys2Proof.Machine.execCanArbLost lapse n s
  | .canTxComplete lapse n => Sys2Proof.Machine.execCanTxComplete lapse n s
  | .canTxWindowExpire n c => Sys2Proof.Machine.execCanTxWindowExpire n c s
  | .t1sFrameReceive lapse n rx => Sys2Proof.Machine.execT1sFrameReceive lapse n rx s
  | .t1sPlcaFallback lapse n => Sys2Proof.Machine.execT1sPlcaFallback lapse n s
  | .t1sPlcaRestored lapse n => Sys2Proof.Machine.execT1sPlcaRestored lapse n s
  | .t1sPlcaCollision lapse n => Sys2Proof.Machine.execT1sPlcaCollision lapse n s
  | .csmaCollision lapse n => Sys2Proof.Machine.execCsmaCollision lapse n s
  | .t1sTxOpportunity lapse n => Sys2Proof.Machine.execT1sTxOpportunity lapse n s
  | .frameParse => Sys2Proof.Machine.execFrameParse s
  | .parseStandbyWrite offset value => Sys2Proof.Machine.execParseStandbyWrite offset value s
  | .parseValidate lapse => Sys2Proof.Machine.execParseValidate lapse s
  | .parseValidateDone lapse => Sys2Proof.Machine.execParseValidateDone lapse s
  | .parseSwapRequest lapse => Sys2Proof.Machine.execParseSwapRequest lapse s
  | .parseSwapPauseEnd => Sys2Proof.Machine.execParseSwapPauseEnd s
  | .parseDrainEnd => Sys2Proof.Machine.execParseDrainEnd s
  | .learnRequestProcess => Sys2Proof.Machine.execLearnRequestProcess s
  | .ageingVisit => Sys2Proof.Machine.execAgeingVisit s
  | .dmaRead => Sys2Proof.Machine.execDmaRead s
  | .dmaLockedRead => Sys2Proof.Machine.execDmaLockedRead s
  | .dmaWriteUnlock => Sys2Proof.Machine.execDmaWriteUnlock s
  | .dmaUnlock => Sys2Proof.Machine.execDmaUnlock s
  | .dmaWrite => Sys2Proof.Machine.execDmaWrite s
  | .dmaActWrite => Sys2Proof.Machine.execDmaActWrite s
  | .dmaActFree => Sys2Proof.Machine.execDmaActFree s
  | .dmaActRead => Sys2Proof.Machine.execDmaActRead s
  | .dmaInsert => Sys2Proof.Machine.execDmaInsert s
  | .dmaDelete => Sys2Proof.Machine.execDmaDelete s
  | .actGraceEnd index => Sys2Proof.Machine.execActGraceEnd index s
  | .tblLockExpired index => Sys2Proof.Machine.execTblLockExpired index s
  | .tblPrepare t => Sys2Proof.Machine.execTblPrepare t s
  | .tblCommit lapse t => Sys2Proof.Machine.execTblCommit lapse t s
  | .tblAbort t => Sys2Proof.Machine.execTblAbort t s
  | .frameAdmission => Sys2Proof.Machine.execFrameAdmission s
  | .spreadStall => Sys2Proof.Machine.execSpreadStall s
  | .reseqRelease g => Sys2Proof.Machine.execReseqRelease g s
  | .reseqSkip g => Sys2Proof.Machine.execReseqSkip g s
  | .mcGroupWrite group => Sys2Proof.Machine.execMcGroupWrite group s
  | .mcGroupRead group => Sys2Proof.Machine.execMcGroupRead group s
  | .policerWrite index enable => Sys2Proof.Machine.execPolicerWrite index enable s
  | .policerRead index => Sys2Proof.Machine.execPolicerRead index s
  | .policerSweep index => Sys2Proof.Machine.execPolicerSweep index s
  | .frameTransmitStart lapse p => Sys2Proof.Machine.execFrameTransmitStart lapse p s
  | .launchTimeReached p c => Sys2Proof.Machine.execLaunchTimeReached p c s
  | .frameTransmitEnd lapse p => Sys2Proof.Machine.execFrameTransmitEnd lapse p s
  | .shaperWrite lapse addr value => Sys2Proof.Machine.execShaperWrite lapse addr value s
  | .gateEntryChange p => Sys2Proof.Machine.execGateEntryChange p s
  | .gateTestWrite lapse p value => Sys2Proof.Machine.execGateTestWrite lapse p value s
  | .frameCapture lapse => Sys2Proof.Machine.execFrameCapture lapse s
  | .signalWriteGo lapse value => Sys2Proof.Machine.execSignalWriteGo lapse value s
  | .signalWriteDone => Sys2Proof.Machine.execSignalWriteDone s
  | .privRead => Sys2Proof.Machine.execPrivRead s
  | .privWrite => Sys2Proof.Machine.execPrivWrite s
  | .bEnd b q => Sys2Proof.Machine.execEnd b q s
  | .bSkip b q n => Sys2Proof.Machine.execSkip b q n s
  | .bRep b q len count => Sys2Proof.Machine.execRep b q len count s
  | .bNop b q => Sys2Proof.Machine.execNop b q s
  | .bAdd b q d x y => Sys2Proof.Machine.execAdd b q d x y s
  | .bSub b q d x y => Sys2Proof.Machine.execSub b q d x y s
  | .bAnd b q d x y => Sys2Proof.Machine.execAnd b q d x y s
  | .bOr b q d x y => Sys2Proof.Machine.execOr b q d x y s
  | .bXor b q d x y => Sys2Proof.Machine.execXor b q d x y s
  | .bSll b q d x y => Sys2Proof.Machine.execSll b q d x y s
  | .bSrl b q d x y => Sys2Proof.Machine.execSrl b q d x y s
  | .bSra b q d x y => Sys2Proof.Machine.execSra b q d x y s
  | .bMin b q d x y => Sys2Proof.Machine.execMin b q d x y s
  | .bMax b q d x y => Sys2Proof.Machine.execMax b q d x y s
  | .bMinu b q d x y => Sys2Proof.Machine.execMinu b q d x y s
  | .bMaxu b q d x y => Sys2Proof.Machine.execMaxu b q d x y s
  | .bAddi b q d x imm => Sys2Proof.Machine.execAddi b q d x imm s
  | .bAndi b q d x imm => Sys2Proof.Machine.execAndi b q d x imm s
  | .bOri b q d x imm => Sys2Proof.Machine.execOri b q d x imm s
  | .bXori b q d x imm => Sys2Proof.Machine.execXori b q d x imm s
  | .bSlli b q d x sh => Sys2Proof.Machine.execSlli b q d x sh s
  | .bSrli b q d x sh => Sys2Proof.Machine.execSrli b q d x sh s
  | .bSrai b q d x sh => Sys2Proof.Machine.execSrai b q d x sh s
  | .bLi b q d imm => Sys2Proof.Machine.execLi b q d imm s
  | .bLsh b q d imm => Sys2Proof.Machine.execLsh b q d imm s
  | .bExtu b q d x pos lenM1 => Sys2Proof.Machine.execExtu b q d x pos lenM1 s
  | .bExts b q d x pos lenM1 => Sys2Proof.Machine.execExts b q d x pos lenM1 s
  | .bIns b q d x pos lenM1 => Sys2Proof.Machine.execIns b q d x pos lenM1 s
  | .bMul b q d x y => Sys2Proof.Machine.execMul b q d x y s
  | .bMulh b q d x y => Sys2Proof.Machine.execMulh b q d x y s
  | .bMulhu b q d x y => Sys2Proof.Machine.execMulhu b q d x y s
  | .bMulq b q d x y sh => Sys2Proof.Machine.execMulq b q d x y sh s
  | .bDiv b q d x y => Sys2Proof.Machine.execDiv b q d x y s
  | .bDivu b q d x y => Sys2Proof.Machine.execDivu b q d x y s
  | .bRem b q d x y => Sys2Proof.Machine.execRem b q d x y s
  | .bRemu b q d x y => Sys2Proof.Machine.execRemu b q d x y s
  | .bFadd b q d x y => Sys2Proof.Machine.execFadd b q d x y s
  | .bFsub b q d x y => Sys2Proof.Machine.execFsub b q d x y s
  | .bFmul b q d x y => Sys2Proof.Machine.execFmul b q d x y s
  | .bFdiv b q d x y => Sys2Proof.Machine.execFdiv b q d x y s
  | .bFsqrt b q d x => Sys2Proof.Machine.execFsqrt b q d x s
  | .bFmin b q d x y => Sys2Proof.Machine.execFmin b q d x y s
  | .bFmax b q d x y => Sys2Proof.Machine.execFmax b q d x y s
  | .bFcvtf b q d x => Sys2Proof.Machine.execFcvtf b q d x s
  | .bFcvti b q d x => Sys2Proof.Machine.execFcvti b q d x s
  | .bCmp b q pd cond x y => Sys2Proof.Machine.execCmp b q pd cond x y s
  | .bCmpi b q pd cond x imm => Sys2Proof.Machine.execCmpi b q pd cond x imm s
  | .bFcmp b q pd cond x y => Sys2Proof.Machine.execFcmp b q pd cond x y s
  | .bPlog b q pd op pa pb => Sys2Proof.Machine.execPlog b q pd op pa pb s
  | .bLd b q d x imm => Sys2Proof.Machine.execLd b q d x imm s
  | .bSt b q d x imm => Sys2Proof.Machine.execSt b q d x imm s
  | .bSld b q d x imm => Sys2Proof.Machine.execSld b q d x imm s
  | .sldResult b => Sys2Proof.Machine.execSldResult b s
  | .bEmit b q f x t => Sys2Proof.Machine.execEmit b q f x t s
  | .bobbinBudgetExpiry b => Sys2Proof.Machine.execBobbinBudgetExpiry b s
  | .emitBuildStart => Sys2Proof.Machine.execEmitBuildStart s
  | .copReadRequest lapse => Sys2Proof.Machine.execCopReadRequest lapse s
  | .copWriteRequest lapse => Sys2Proof.Machine.execCopWriteRequest lapse s
  | .brgDispatch slot => Sys2Proof.Machine.execBrgDispatch slot s
  | .farReadRsp lapse => Sys2Proof.Machine.execFarReadRsp lapse s
  | .farWriteAck lapse => Sys2Proof.Machine.execFarWriteAck lapse s
  | .farNegRsp lapse => Sys2Proof.Machine.execFarNegRsp lapse s
  | .brgTransactionTimeout slot => Sys2Proof.Machine.execBrgTransactionTimeout slot s
  | .brgCollectExpiry slot => Sys2Proof.Machine.execBrgCollectExpiry slot s
  | .brgStartStallEnd => Sys2Proof.Machine.execBrgStartStallEnd s
  | .keyReplace slot => Sys2Proof.Machine.execKeyReplace slot s
  | .keyReplaceVerified => Sys2Proof.Machine.execKeyReplaceVerified s
  | .keyDestroy slot => Sys2Proof.Machine.execKeyDestroy slot s
  | .keyZeroise slot => Sys2Proof.Machine.execKeyZeroise slot s
  | .macsecKeyDerive p => Sys2Proof.Machine.execMacsecKeyDerive p s
  | .svcGcmEncrypt => Sys2Proof.Machine.execSvcGcmEncrypt s
  | .svcGcmDecrypt => Sys2Proof.Machine.execSvcGcmDecrypt s
  | .svcKmac => Sys2Proof.Machine.execSvcKmac s
  | .svcEd448Verify => Sys2Proof.Machine.execSvcEd448Verify s
  | .evidenceForm => Sys2Proof.Machine.execEvidenceForm s
  | .sealSigned => Sys2Proof.Machine.execSealSigned s
  | .flashProgramComplete ok => Sys2Proof.Machine.execFlashProgramComplete ok s
  | .blockEraseComplete block ok => Sys2Proof.Machine.execBlockEraseComplete block ok s
  | .restartRecordForm => Sys2Proof.Machine.execRestartRecordForm s
  | .wdogKick value => Sys2Proof.Machine.execWdogKick value s
  | .wdogWarn => Sys2Proof.Machine.execWdogWarn s
  | .wdogExpiry => Sys2Proof.Machine.execWdogExpiry s
  | .pllRefclkLoss refclkGone => Sys2Proof.Machine.execPllRefclkLoss refclkGone s
  | .dozeRequest lapse value => Sys2Proof.Machine.execDozeRequest lapse value s
  | .sleepRequest lapse value => Sys2Proof.Machine.execSleepRequest lapse value s
  | .wakeEvent lapse levels held => Sys2Proof.Machine.execWakeEvent lapse levels held s
  | .dozeTimerWake => Sys2Proof.Machine.execDozeTimerWake s
  | .dozeExitComplete => Sys2Proof.Machine.execDozeExitComplete s
  | .sleepWake levels held => Sys2Proof.Machine.execSleepWake levels held s
  | .tempReading temp => Sys2Proof.Machine.execTempReading temp s
  | .thermalHoldExit => Sys2Proof.Machine.execThermalHoldExit s
  | .pwrfailAssert low => Sys2Proof.Machine.execPwrfailAssert low s
  | .pwrfailRelease => Sys2Proof.Machine.execPwrfailRelease s
  | .eyeletStatus lapse => Sys2Proof.Machine.execEyeletStatus lapse s
  | .eyeletExportRead lapse => Sys2Proof.Machine.execEyeletExportRead lapse s
  | .eyeletExportAck lapse => Sys2Proof.Machine.execEyeletExportAck lapse s
  | .eyeletAttest lapse => Sys2Proof.Machine.execEyeletAttest lapse s
  | .eyeletStageErase lapse => Sys2Proof.Machine.execEyeletStageErase lapse s
  | .eyeletStageProgram lapse => Sys2Proof.Machine.execEyeletStageProgram lapse s
  | .eyeletStageCheck lapse => Sys2Proof.Machine.execEyeletStageCheck lapse s
  | .eyeletWarmReset lapse => Sys2Proof.Machine.execEyeletWarmReset lapse s
  | .spRxWrite => Sys2Proof.Machine.execSpRxWrite s
  | .spTxDirect => Sys2Proof.Machine.execSpTxDirect s
  | .spTxLookup => Sys2Proof.Machine.execSpTxLookup s
  | .eventRecordWrite => Sys2Proof.Machine.execEventRecordWrite s
  | .evtRingEnable value => Sys2Proof.Machine.execEvtRingEnable value s
  | .gpioOutWrite value => Sys2Proof.Machine.execGpioOutWrite value s
  | .debugWindowRead addr => Sys2Proof.Machine.execDebugWindowRead addr s
  | .canBusIdle lapse n => Sys2Proof.Machine.execCanBusIdle lapse n s
  | .svcDone => Sys2Proof.Machine.execSvcDone s
  | .eyeletResetDelay => Sys2Proof.Machine.execEyeletResetDelay s
  | .porRelease => Sys2Proof.Machine.execPorRelease s

end Sys2Proof.Machine
end

