-- ==== Sys2Proof/Machine/Tick.lean ====
section
/-! DEFINITION. What happens when no command waits: time goes on (R29), and the bobbins work through their programs (R228, R245). -/

namespace Sys2Proof.Machine

/-- Bobbin `b` issues the word at its program address. A word that encodes nothing issues nothing until the run's end; one with a double-bit
error halts the bobbin. -/
def State.laneStep (s : State) (b : Fin 16) : State :=
  match s.badIn 5 (Mm.prog + 0x10000 * b.val + 4 * (s.lane b.val).pc) 4 with
  | some x => s.bobHalt b.val x
  | none =>
    match bobWord b (s.progWord b.val (s.lane b.val).pc) with
    | none => s.bobExpire b.val
    | some i =>
      match exec i (s.sbeIn 5 (Mm.prog + 0x10000 * b.val + 4 * (s.lane b.val).pc) 4) with
      | .next t => t
      | .fault _ => s
      | .refused _ => s

/-- The running bobbin whose word issues in the earliest cycle (R251), the lower number of two. -/
def State.nextLane (s : State) : Option (Fin 16) :=
  ((List.finRange 16).foldl (fun (a : Option (Fin 16 × Nat)) b =>
    if ¬ s.running b.val then a
    else
      let at_ := (s.laneStep b).raw
      match a with
      | none => some (b, at_)
      | some c => if at_ < c.2 then some (b, at_) else a) none).map (·.1)

/-- One tick. While a bobbin runs it is the next issue of a program word; otherwise one core cycle, or one REFCLK cycle of 10 ns where the
core PLL does not run. Under POR nothing moves (`State.rawSteps`). Frames whose turn has come are injected (R13). -/
def State.tick (s : State) : State :=
  match s.pwr.phase with
  | .run =>
    match s.nextLane with
    | some b => s.laneStep b
    | none => (s.advance 1).injectDue
  | _ => s.advance 1

end Sys2Proof.Machine
end

