-- ==== Sys2Proof/WellFormed.lean ====
section
/-! DEFINITION. Which commands the outside can give: the operands the manual rules out are refused here.  A command of a bobbin is
well-formed when a program word can spell it (R247 to R257). -/

namespace Sys2Proof

/-- PRED 0 with NEG 1 never executes and is not a condition a word may carry (R247). -/
def Pq.wf (q : Pq) : Bool := !(q.pred.val == 0 && q.neg)

/-- The data length a DLC gives (R105): to 8 in a classical message, to 64 in an FD message; an XL message has no such code. -/
def dlcLength (fmt : CanFmt) (dlc : Nat) : Nat :=
  match fmt with
  | .classical => Nat.min dlc 8
  | .fd => if dlc ≤ 8 then dlc else [12, 16, 20, 24, 32, 48, 64].getD (dlc - 9) 0
  | .xl => 0

/-- A CAN message is one the bus can carry: its identifier fits its format, and its data its DLC (R105). -/
def CanMsg.wf (m : CanMsg) : Bool :=
  match m.fmt with
  | .xl => !m.ide && decide (m.id.toNat < 2048) && decide (1 ≤ m.data.length) && decide (m.data.length ≤ 2048)
  | f => (m.ide || decide (m.id.toNat < 2048))
      && decide (m.data.length = if f == .classical && m.rtr then 0 else dlcLength f m.dlc.toNat)

/-- The check on a command, constructor by constructor. -/
def Instr.wf (i : Instr) : Bool :=
  match i with
  | .registerWrite _ _ _ => true
  | .reg64LowRead _ _ => true
  | .timeNowRead _ => true
  | .timeRateWrite _ _ => true
  | .timeAdjWrite _ _ => true
  | .timeAdjDone => true
  | .servoReport _ _ => true
  | .forceLoss _ _ => true
  | .syncReportTimeout => true
  | .holdoverExpiry => true
  | .hoopBoundary _ => true
  | .swapDelayExpiry => true
  | .ppsInEdge _ _ => true
  | .ppsInMissing _ => true
  | .ppsOutPulse _ => true
  | .timeTsqPop _ _ => true
  | .powerOnReset _ => true
  | .resetNAssert _ => true
  | .resetNRelease => true
  | .firmwareResetRequest _ _ => true
  | .tailSeal => true
  | .flushEnd => true
  | .loadSlot => true
  | .writeRecord _ _ _ _ => true
  | .tableRecord _ _ _ _ => true
  | .blobRecord _ _ _ _ => true
  | .checkRecord _ _ _ _ => true
  | .mdioRecord _ _ _ _ _ _ _ => true
  | .dualRecord _ _ => true
  | .keyslotRecord _ _ => true
  | .authKeyRecord _ => true
  | .lifecycleRecord _ => true
  | .endRecord _ => true
  | .sealedRegisterLock => true
  | .debugToken token => token.length == 256
  | .imgEpochCommit _ => true
  | .stageErase _ => true
  | .stageProgram _ => true
  | .stageCheck _ => true
  | .stageOpComplete _ => true
  | .recoveryStage _ _ _ => true
  | .signalDetect _ _ => true
  | .adaptFreeze _ _ _ => true
  | .adaptRetry _ => true
  | .pcsLockAcquired _ _ => true
  | .ethLinkUp _ => true
  | .ethLinkDown _ _ _ => true
  | .ethFrameReceive _ _ _ => true
  | .pauseReceive _ _ _ => true
  | .pfcReceive _ _ _ quanta => quanta.length == 8
  | .pauseExpiry _ _ => true
  | .pauseWdogTrip _ _ => true
  | .pauseIgnoreEnd _ _ => true
  | .txUnderrun _ _ => true
  | .mdioRead _ _ _ => true
  | .mdioReadDone _ _ _ => true
  | .canMessageReceive _ _ msg => msg.wf
  | .canProtocolException _ _ _ => true
  | .canError _ _ _ _ _ => true
  | .canRecover _ _ _ => true
  | .canBusRecovered _ _ => true
  | .canMfifoPop _ _ => true
  | .prioBufRead _ _ => true
  | .prioRelease _ _ _ => true
  | .canMtxLoad _ _ _ => true
  | .canMtxCancel _ _ _ => true
  | .canTxbufLoad _ _ _ => true
  | .canTxCommit _ _ => true
  | .canArbLost _ _ => true
  | .canTxComplete _ _ => true
  | .canTxWindowExpire _ _ => true
  | .t1sFrameReceive _ _ _ => true
  | .t1sPlcaFallback _ _ => true
  | .t1sPlcaRestored _ _ => true
  | .t1sPlcaCollision _ _ => true
  | .csmaCollision _ _ => true
  | .t1sTxOpportunity _ _ => true
  | .frameParse => true
  | .parseStandbyWrite _ _ => true
  | .parseValidate _ => true
  | .parseValidateDone _ => true
  | .parseSwapRequest _ => true
  | .parseSwapPauseEnd => true
  | .parseDrainEnd => true
  | .learnRequestProcess => true
  | .ageingVisit => true
  | .dmaRead => true
  | .dmaLockedRead => true
  | .dmaWriteUnlock => true
  | .dmaUnlock => true
  | .dmaWrite => true
  | .dmaActWrite => true
  | .dmaActFree => true
  | .dmaActRead => true
  | .dmaInsert => true
  | .dmaDelete => true
  | .actGraceEnd _ => true
  | .tblLockExpired _ => true
  | .tblPrepare t => t.val != 0
  | .tblCommit _ t => t.val != 0
  | .tblAbort t => t.val != 0
  | .frameAdmission => true
  | .spreadStall => true
  | .reseqRelease _ => true
  | .reseqSkip _ => true
  | .mcGroupWrite _ => true
  | .mcGroupRead _ => true
  | .policerWrite _ _ => true
  | .policerRead _ => true
  | .policerSweep _ => true
  | .frameTransmitStart _ p => p.val != 49
  | .launchTimeReached p _ => p.val != 49
  | .frameTransmitEnd _ p => p.val != 49
  | .shaperWrite _ _ _ => true
  | .gateEntryChange p => decide (p.val < 32)
  | .gateTestWrite _ _ _ => true
  | .frameCapture _ => true
  | .signalWriteGo _ _ => true
  | .signalWriteDone => true
  | .privRead => true
  | .privWrite => true
  | .bEnd _ q => q.wf
  | .bSkip _ q n => q.wf && n.toNat != 0
  | .bRep _ q _ _ => q.pred.val == 0 && !q.neg
  | .bNop _ q => q.wf
  | .bAdd _ q _ _ _ => q.wf
  | .bSub _ q _ _ _ => q.wf
  | .bAnd _ q _ _ _ => q.wf
  | .bOr _ q _ _ _ => q.wf
  | .bXor _ q _ _ _ => q.wf
  | .bSll _ q _ _ _ => q.wf
  | .bSrl _ q _ _ _ => q.wf
  | .bSra _ q _ _ _ => q.wf
  | .bMin _ q _ _ _ => q.wf
  | .bMax _ q _ _ _ => q.wf
  | .bMinu _ q _ _ _ => q.wf
  | .bMaxu _ q _ _ _ => q.wf
  | .bAddi _ q _ _ _ => q.wf
  | .bAndi _ q _ _ _ => q.wf
  | .bOri _ q _ _ _ => q.wf
  | .bXori _ q _ _ _ => q.wf
  | .bSlli _ q _ _ _ => q.wf
  | .bSrli _ q _ _ _ => q.wf
  | .bSrai _ q _ _ _ => q.wf
  | .bLi _ q _ _ => q.wf
  | .bLsh _ q _ _ => q.wf
  | .bExtu _ q _ _ pos lenM1 => q.wf && decide (pos.toNat + lenM1.toNat < 64)
  | .bExts _ q _ _ pos lenM1 => q.wf && decide (pos.toNat + lenM1.toNat < 64)
  | .bIns _ q _ _ pos lenM1 => q.wf && decide (pos.toNat + lenM1.toNat < 64)
  | .bMul _ q _ _ _ => q.wf
  | .bMulh _ q _ _ _ => q.wf
  | .bMulhu _ q _ _ _ => q.wf
  | .bMulq _ q _ _ _ _ => q.wf
  | .bDiv _ q _ _ _ => q.wf
  | .bDivu _ q _ _ _ => q.wf
  | .bRem _ q _ _ _ => q.wf
  | .bRemu _ q _ _ _ => q.wf
  | .bFadd _ q _ _ _ => q.wf
  | .bFsub _ q _ _ _ => q.wf
  | .bFmul _ q _ _ _ => q.wf
  | .bFdiv _ q _ _ _ => q.wf
  | .bFsqrt _ q _ _ => q.wf
  | .bFmin _ q _ _ _ => q.wf
  | .bFmax _ q _ _ _ => q.wf
  | .bFcvtf _ q _ _ => q.wf
  | .bFcvti _ q _ _ => q.wf
  | .bCmp _ q pd _ _ _ => q.wf && pd.val != 0
  | .bCmpi _ q pd _ _ _ => q.wf && pd.val != 0
  | .bFcmp _ q pd _ _ _ => q.wf && pd.val != 0
  | .bPlog _ q pd _ _ _ => q.wf && pd.val != 0
  | .bLd _ q _ _ _ => q.wf
  | .bSt _ q _ _ _ => q.wf
  | .bSld _ q d _ _ => q.wf && d.val % 2 == 0 && d.val != 0
  | .sldResult _ => true
  | .bEmit _ q f _ _ => q.wf && (f.val == 8 || f.val == 16 || f.val == 24)
  | .bobbinBudgetExpiry _ => true
  | .emitBuildStart => true
  | .copReadRequest _ => true
  | .copWriteRequest _ => true
  | .brgDispatch _ => true
  | .farReadRsp _ => true
  | .farWriteAck _ => true
  | .farNegRsp _ => true
  | .brgTransactionTimeout _ => true
  | .brgCollectExpiry _ => true
  | .brgStartStallEnd => true
  | .keyReplace _ => true
  | .keyReplaceVerified => true
  | .keyDestroy _ => true
  | .keyZeroise _ => true
  | .macsecKeyDerive _ => true
  | .svcGcmEncrypt => true
  | .svcGcmDecrypt => true
  | .svcKmac => true
  | .svcEd448Verify => true
  | .evidenceForm => true
  | .sealSigned => true
  | .flashProgramComplete _ => true
  | .blockEraseComplete _ _ => true
  | .restartRecordForm => true
  | .wdogKick _ => true
  | .wdogWarn => true
  | .wdogExpiry => true
  | .pllRefclkLoss _ => true
  | .dozeRequest _ _ => true
  | .sleepRequest _ _ => true
  | .wakeEvent _ _ _ => true
  | .dozeTimerWake => true
  | .dozeExitComplete => true
  | .sleepWake _ _ => true
  | .tempReading _ => true
  | .thermalHoldExit => true
  | .pwrfailAssert _ => true
  | .pwrfailRelease => true
  | .eyeletStatus _ => true
  | .eyeletExportRead _ => true
  | .eyeletExportAck _ => true
  | .eyeletAttest _ => true
  | .eyeletStageErase _ => true
  | .eyeletStageProgram _ => true
  | .eyeletStageCheck _ => true
  | .eyeletWarmReset _ => true
  | .spRxWrite => true
  | .spTxDirect => true
  | .spTxLookup => true
  | .eventRecordWrite => true
  | .evtRingEnable _ => true
  | .gpioOutWrite _ => true
  | .debugWindowRead _ => true
  | .canBusIdle _ _ => true
  | .svcDone => true
  | .eyeletResetDelay => true
  | .porRelease => true

end Sys2Proof
end

