-- ==== Sys2Proof/Safety.lean ====
section
/-! DEFINITION. What counts as a safe state and a safe run, in the terms statements use. -/

namespace Sys2Proof.Safety

open Sys2Proof.Machine

/-- One-time programmable memory holds what fuses can hold (R66, R68, R73): five life-cycle states, four digest slots for each authority,
a floor of at most 128. -/
def otpOk (o : Otp) : Prop :=
  o.lifecycle ≤ 4 ∧ o.operDig.length ≤ 4 ∧ o.metroDig.length ≤ 4 ∧ o.floor ≤ 128

/-- Fuses are only ever blown (R66): the second state of OTP follows from the first. -/
def otpGrows (a b : Otp) : Prop :=
  a.lifecycle ≤ b.lifecycle ∧ a.floor ≤ b.floor ∧ a.operDig <+: b.operDig ∧ a.metroDig <+: b.metroDig ∧ (a.lockOn = true → b.lockOn = true)

/-- A run of `n` steps that meets neither fault nor refusal. -/
def runsFor (n : Nat) (s : State) : Prop := ∃ t, Host.Core.run Sys2Proof.core n s = .next t

/-- No word of any memory holds an error, of one bit or of two (R347). -/
abbrev clean (s : State) : Prop := s.dbe = [] ∧ s.sbe = []

/-- No memory holds an error, and no fatal one waits to act (R337, R347). -/
def sound (s : State) : Prop := clean s ∧ s.pwr.fatal = false

/-- Command `c` is carried out in state `s`: it meets neither fault nor refusal, and the state it leaves satisfies `P`. -/
def completes (c : Instr) (s : State) (P : State → Prop) : Prop := ∃ t, exec c s = .next t ∧ P t

/-- The loader of a start is at work: the flash is out of its reset (R390). -/
def loading (s : State) : Prop := s.pwr.phase = .start ∧ s.pins.ospiTill ≤ s.raw

/-- What waits for the end of the cycle: capture records, CAN messages, cancellations and overruns that a later command of the cycle may still
decide, and ageing visits (R44, R112, R113, R117, R167). -/
def heldBack (s : State) : Nat :=
  s.cyc.tsWait.length + s.cyc.mfWait.length + s.cyc.cancels.length + s.cyc.prioOver.length + s.cyc.ages.length

/-- The queue of events has room for `n` more (R373) beside those the end of the cycle may report. -/
def evRoom (s : State) (n : Nat) : Prop := s.ev.queue.length + 4 * heldBack s + n ≤ 64

/-- An event of this code, port byte and detail waits to be written. -/
def raised (t : State) (code port detail : Nat) : Prop :=
  ∃ e ∈ t.ev.queue, e.code = code ∧ e.port = port ∧ e.detail = BitVec.ofNat 64 detail

/-- The loader has rejected section `sec` of a load: IMG_SLOT_RESULT[0] and IMG_SLOT_REJECTED give section and cause. -/
def rejects (t : State) (sec : Sect) (cause : Nat) : Prop :=
  t.fd (Rg.IMG_SLOT_RESULT 0) Fl.IMG_SLOT_RESULT_SECTION = sectCode sec ∧ t.fd (Rg.IMG_SLOT_RESULT 0) Fl.IMG_SLOT_RESULT_CAUSE = cause ∧
  raised t 0x0301 noPort (2 * sectCode sec + 8 * cause)

/-- The counter `r` has risen by `n`, and rolls over at 2^32 (R97). -/
def counted (s t : State) (r : Reg) (n : Nat := 1) : Prop := t.rd r = (s.rd r + n) % 2 ^ 32

/-- On-die memory is as before, but for what the end of the cycle settles where time passes: table slots whose ageing visit it decides
(R167). -/
def sameRam (s t : State) : Prop := t.sram = s.sram ∨ t.sram = s.cycleEnd.sram

/-- No byte of any memory differs, but for what the end of the cycle settles. -/
def sameMemories (s t : State) : Prop := sameRam s t ∧ t.mgmt = s.mgmt ∧ t.ospi0 = s.ospi0 ∧ t.ospi1 = s.ospi1

/-- No register word outside `c` differs, but for what the end of the cycle settles where time passes: what it loses is counted (R44, R112,
R113, R117, R166). -/
def sameRegs (c : Nat → Prop) (s t : State) : Prop :=
  ∀ a, ¬ c a → ∀ d, sget t.regs a d = sget s.regs a d ∨ sget t.regs a d = sget s.cycleEnd.regs a d

/-- The words that the passing of time and the reporting of an event may change: block TIME/HOOP, block EYELET, SYS_EVT_LOST. -/
def clockWord (a : Nat) : Prop := a / 0x10000 = 0x1001 ∨ a / 0x10000 = 0x10A0 ∨ a = Rg.SYS_EVT_LOST.addr

/-- What command `c` leaves everywhere outside on-die memory [a, a + n): every other byte of every memory. -/
def ramOnly (s t : State) (a n : Nat) : Prop :=
  (∀ x, x < a ∨ a + n ≤ x → t.ram x 1 = s.ram x 1) ∧ t.mgmt = s.mgmt ∧ t.ospi0 = s.ospi0 ∧ t.ospi1 = s.ospi1

/-- The engine can take the descriptor at TAIL, whose address is `a` and whose contents are `d`, and its budget has room for `n` cycles
(R54, R168, R169). -/
def dmaFront (s : State) (a : Nat) (d : DmaDesc) (n : Nat) : Prop :=
  s.engineOn = true ∧ s.dmaWaits = true ∧ a = s.rd Rg.TBL_DMA_BASE + 16 * s.dmaTail ∧ s.dmaDesc a = d ∧ s.mayWork 2 n = true

/-- The descriptor at `a` is done: its STATUS byte, TAIL past it, and the interrupt it asks for (R169). -/
def dmaDone (s t : State) (a : Nat) (d : DmaDesc) (status : Nat) : Prop :=
  t.memLe (a + 2) 1 = status ∧ t.rd Rg.TBL_DMA_TAIL = (s.dmaTail + 1) % s.dmaSize ∧ (d.irq = true → t.bit Rg.TBL_INT_STATUS 0 = true)

/-- Management memory outside [a, a + n) and the STATUS byte of the descriptor at `b` stays. -/
def memOnly (s t : State) (a n b : Nat) : Prop :=
  (∀ x, (x < a ∨ a + n ≤ x) → x ≠ b + 2 → t.mem x 1 = s.mem x 1) ∧ t.ospi0 = s.ospi0 ∧ t.ospi1 = s.ospi1

/-- Bobbin `b` can issue in cycle `c` of its run an instruction under condition `q` that reads and writes the keys `ks`: it runs, `c` is
the first cycle in which issue has come to it and every key is ready, and neither the budget nor the emit lead comes before
(R228, R231, R251). Keys 0 to 31 are registers and 32 to 39 predicates; w0 and p0 are always ready. -/
def issuesAt (s : State) (b : Nat) (q : Pq) (ks : List Nat) (c : Nat) : Prop :=
  let l := s.lane b
  s.running b = true ∧ l.cyc ≤ c ∧ (∀ k ∈ (32 + q.pred.val) :: ks, k ≠ 0 → k ≠ 32 → sget l.ready k 0 ≤ c) ∧
  (c = l.cyc ∨ ∃ k ∈ (32 + q.pred.val) :: ks, k ≠ 0 ∧ k ≠ 32 ∧ sget l.ready k 0 = c) ∧
  c < s.bobBudget b ∧ s.ltAfter (l.started + c - s.raw) < s.leadAt * 65536

/-- What an issue on bobbin `b` in cycle `c` leaves to all else: time passes to that cycle; no other bobbin, no register beside the clock's,
no signal and no copy changes; issue goes on with the next word, or where a REP body ends. -/
def issued (s t : State) (b c gap : Nat) : Prop :=
  t.raw = (s.advance ((s.lane b).started + c - s.raw)).raw ∧ (∀ j, j ≠ b → t.lane j = s.lane j) ∧ sameRegs clockWord s t ∧ t.sig = s.sig ∧
  t.outQ = s.outQ ∧ t.gnd = s.gnd ∧ (t.lane b).cyc = c + gap ∧ (t.lane b).started = (s.lane b).started ∧ (t.lane b).out = (s.lane b).out ∧
  (t.lane b).committed = (s.lane b).committed

/-- The word address and the REPs after the instruction at the lane's address, with no jump. -/
def goesOn (s t : State) (b : Nat) : Prop :=
  ((t.lane b).pc, (t.lane b).loops) = loopBack ((s.lane b).pc + 1) (s.lane b).loops

/-- No register but those in `ds`, and no predicate but those in `ps`, of bobbin `b` differs from what `l` holds. -/
def keeps (l : Lane) (t : State) (b : Nat) (ds ps : List Nat) : Prop :=
  (∀ r, r ∉ ds → (t.lane b).w r = l.w r) ∧ (∀ k < 8, k ∉ ps → (t.lane b).p k = l.p k) ∧ (t.lane b).records = l.records

/-- Bobbin `b` has issued in cycle `c` an instruction of latency `lat` that gives register `d` the value `v`; w0 stays zero (R248). -/
def wrote (s t : State) (b c d lat : Nat) (v : BitVec 64) : Prop :=
  issued s t b c 1 ∧ goesOn s t b ∧ sameMemories s t ∧ keeps ((s.lane b).land c) t b [d] [] ∧
  (t.lane b).w d = (if d = 0 then 0 else v) ∧ (d ≠ 0 → sget (t.lane b).ready d 0 = c + lat) ∧
  (∀ k, k ≠ d → sget (t.lane b).ready k 0 = sget (s.lane b).ready k 0)

/-- Bobbin `b` has issued in cycle `c` an instruction that gives predicate `d` the value `v`. -/
def decided (s t : State) (b c d : Nat) (v : Bool) : Prop :=
  issued s t b c 1 ∧ goesOn s t b ∧ sameMemories s t ∧ keeps ((s.lane b).land c) t b [] [d] ∧
  (t.lane b).p d = (d == 0 || v) ∧ (d ≠ 0 → sget (t.lane b).ready (32 + d) 0 = c + 1)

/-- Bobbin `b` has issued in cycle `c` an instruction whose condition did not hold: nothing is written (R247). -/
def skipped (s t : State) (b c : Nat) : Prop :=
  issued s t b c 1 ∧ goesOn s t b ∧ sameMemories s t ∧ keeps ((s.lane b).land c) t b [] []

/-- Bobbin `b` has stopped as an overrun of this cause and fault code after `n` cycles (R231, R258): IDLE, its cycles, the count and the
event; it falls back to the last records committed, or, after SAFE_AFTER overruns or with none committed, to its safe table (R232). -/
def overran (s t : State) (b cause fault n : Nat) : Prop :=
  let consec := Nat.min (s.fd (Rg.BOB_STATUS b) Fl.BOB_STATUS_CONSEC + 1) 255
  t.bobState b = 1 ∧ t.rd (Rg.BOB_CYCLES_LAST b) = n % 2 ^ 24 ∧ t.fd (Rg.BOB_STATUS b) Fl.BOB_STATUS_CONSEC = consec ∧
  counted s t (Rg.BOB_BCNT b 0) ∧
  raised t 0x0A01 noPort (b + cause * 16 + fault * 2 ^ 8 + (s.lane b).pc % 16384 * 2 ^ 16 + consec * 2 ^ 32) ∧ (t.lane b).records = [] ∧
  (∀ c, (s.lane b).committed = some c → consec < s.fd Rg.BOB_CFG Fl.BOB_CFG_SAFE_AFTER →
    (t.lane b).out = c ∧ t.fd (Rg.BOB_STATUS b) Fl.BOB_STATUS_MODE = 1) ∧
  ((s.lane b).committed = none ∨ s.fd Rg.BOB_CFG Fl.BOB_CFG_SAFE_AFTER ≤ consec →
    (t.lane b).out = s.safeTable b ∧ t.fd (Rg.BOB_STATUS b) Fl.BOB_STATUS_MODE = 2)

/-- No frame decided in this cycle waits for admission: one of a lower group would go before a frame of group 7 (R184). -/
def noneDecided (s : State) : Prop := ∀ f ∈ s.admQ, f.decided ≠ s.raw

/-- Admission has room for a copy of a frame of up to `n` bytes from port 48 or 50 to queue (p, c), an intermediate is free, and no frame
waits at an internal source or, decided in this cycle, for admission (R13, R180, R184, R185). -/
def roomFor (s : State) (p c n : Nat) : Prop :=
  p < 48 ∧ c < 8 ∧ s.fd (Rg.BUF_LIMIT p c) Fl.BUF_LIMIT_LIMIT ≠ 0 ∧ s.bit (Rg.BUF_QCFG p c) 0 = false ∧
  shareOcc s.copies 1 + cellsOf n ≤ s.share 1 ∧ s.gnd.spread = [] ∧ s.gnd.inj = [] ∧ noneDecided s ∧ ∃ m < 8, s.iqLevel m (groupOf p) ≤ 56

/-- The eyelet can answer its oldest request `r`, behind which `q` waits: the part forwards, `key` is the working key, the rate of port 48
lets a frame in, admission has room for a reply, and no memory holds an error (R13, R354 to R358). -/
def eyeReady (s : State) (r : EyeReq) (q : List EyeReq) (key : Bytes) : Prop :=
  s.forwarding = true ∧ s.eye.queue = r :: q ∧ clean s ∧ s.eyeKey.1 = some key ∧ s.injFree 48 ≤ s.raw ∧
  roomFor s (s.fd Rg.EYE_CFG Fl.EYE_CFG_PORT) (s.fd Rg.EYE_CFG Fl.EYE_CFG_CLASS) 1600

/-- The request is answered: its datagram, under the next sequence number and with its tag, enters the ground for the eyelet's port, is
counted, and the request is gone (R355, R357). -/
def eyeAnswers (s t : State) (q : List EyeReq) (key : Bytes) (kind mark code : Nat) (body : Bytes) : Prop :=
  let n := (s.rd Rg.EYE_TX_SEQ + 1) % 2 ^ 32
  let m := eyeMsg s.node kind (s.rd Rg.EYE_EPOCH * 2 ^ 32 + n) code 0 body
  t.eye.queue = q ∧ t.rd Rg.EYE_TX_SEQ = n ∧ counted s t (Rg.EYE_CNT 5) ∧
  ∃ x, t.gnd.flight = s.gndRun.gnd.flight ++ [x] ∧ x.copy.egress = s.fd Rg.EYE_CFG Fl.EYE_CFG_PORT ∧ x.copy.eye = mark ∧
    m ++ eyeTag key m <:+ x.copy.data

/-- A staging operation has begun for request `r`; its reply waits for the operation's end (R365). -/
def eyeStages (s t : State) (q : List EyeReq) (r : EyeReq) (op off : Nat) (data : Bytes) : Prop :=
  t.stg = some ⟨op, s.otherSlot, off, data, some r.seq, none⟩ ∧ t.eye.stage = true ∧ t.eye.queue = q ∧
  t.fd Rg.IMG_STAGE_STATUS Fl.IMG_STAGE_STATUS_BUSY = 1 ∧ t.gnd = s.gnd ∧ sameMemories s t

/-- The couching bridge can send: the part forwards, nothing of an earlier cycle is still to be sent, no frame of this cycle waits for
admission, and no memory holds an error. -/
def brgClear (s : State) : Prop := s.forwarding = true ∧ s.brg.out = [] ∧ s.gnd.inj = [] ∧ noneDecided s ∧ sound s

/-- The couching bridge has taken the oldest frame at its port, `f`, which is `h`, and it can send. -/
def brgHas (s : State) (f : Frame) (q : List Frame) (h : Head) : Prop :=
  brgClear s ∧ s.brgQ = f :: q ∧ s.headOfBrg f = h

/-- A request passes the checks of R267 up to the route check: a known initiator, its tag under `key`, lengths that agree. -/
def copGood (s : State) (c : CopReq) (key : Bytes) : Prop :=
  c.init < 64 ∧ s.flag (Rg.BRG_INIT c.init) Fl.BRG_INIT_VALID = true ∧ (s.copKey c.init).1 = some key ∧
  copTag key (slice c.body 0 (16 + c.d)) = slice c.body (16 + c.d) 16 ∧ 1 ≤ c.len ∧ c.len ≤ 1024 ∧ c.ulen = 40 + c.d ∧
  s.brgFind c.init c.tag = none

/-- No slot of the bridge but `n` differs, nor the generation of another tag. -/
def otherSlots (s t : State) (n : Nat) : Prop := ∀ k, k ≠ n → t.brgSlot k = s.brgSlot k ∧ t.brgGen k = s.brgGen k

/-- A KEY_CMD command has ended with this cause (R291, R292): DONE, and REFUSED for a cause other than 0. -/
def keyEnded (t : State) (cause : Nat) : Prop :=
  t.fd Rg.KEY_CMD_STATUS Fl.KEY_CMD_STATUS_DONE = 1 ∧ t.fd Rg.KEY_CMD_STATUS Fl.KEY_CMD_STATUS_CAUSE = cause ∧
  (cause ≠ 0 → t.fd Rg.KEY_CMD_STATUS Fl.KEY_CMD_STATUS_REFUSED = 1)

/-- A firmware service operation has begun with this outcome, to be written at its end (R299). -/
def svcBegun (s t : State) (d : SvcDesc) (status : Nat) (out tag : Bytes) : Prop :=
  t.keys.svc = some ⟨128 * s.fd Rg.KEY_SVC_ADDR Fl.KEY_SVC_ADDR_ADDR, status, d.dst, out, tag, d.op == 4⟩ ∧
  t.fd Rg.KEY_SVC_STATUS Fl.KEY_SVC_STATUS_BUSY = 1 ∧ t.keys.slots = s.keys.slots ∧ sameMemories s t

/-- Firmware may start a service operation, and its descriptor `d` is sound: the cores run, no operation is in progress, lengths and
addresses are legal, and no memory holds an error (R299). -/
def svcReady (s : State) (d : SvcDesc) (op : Nat) : Prop :=
  s.coresRun = true ∧ s.keys.svc = none ∧ s.svcDesc (128 * s.fd Rg.KEY_SVC_ADDR Fl.KEY_SVC_ADDR_ADDR) = d ∧ d.op = op ∧
  d.lensOk = true ∧ s.svcAddrOk d = true ∧ clean s

/-- A counter of the seal unit has risen by 1; it is 64 bits wide. -/
def sealCounted (s t : State) (i : Nat) : Prop := t.rd64 (Rg.SEAL_CNT i) = (s.rd64 (Rg.SEAL_CNT i) + 1) % 2 ^ 64

/-- The store can take the chain record `i` at the front of the buffer: programming goes on, no other part's store is in place, no
memory error stands, the append page has room. -/
def storeTakes (s : State) (i : ChainItem) (rest : List ChainItem) : Prop :=
  s.storeOn = true ∧ s.chain.buf = i :: rest ∧ i.signed = true ∧ i.isSeal = false ∧ i.tail = false ∧ i.bytes.length = 128 ∧
  s.chain.stopped = false ∧ s.chain.foreign = false ∧ clean s ∧ s.appendSlot < 30

end Sys2Proof.Safety
end

