-- ==== Sys2Proof/Certificates/Slice0/Obligations.lean ====
section
/-! DEFINITION. The statements for the provers: what each command of the block does, in the terms of the manual's rules. -/

open Sys2Proof Sys2Proof.Machine Sys2Proof.Safety

/-! ## The machine -/

/-- A step takes the command at the front of the queue and carries it out with the rest of the queue. -/
def Obligations.StepRunsFrontCommand : Prop :=
  ∀ (c : Instr) (q : List Instr) (s : State), s.pending = c :: q → step s = exec c { s with pending := q }

/-- With nothing waiting the block idles for one tick: nothing under POR, one REFCLK cycle in SLEEP, and one core cycle in every phase
in which no bobbin runs; in a running part the frames whose turn has come are injected with it. The model's own choice (log entry 3). -/
def Obligations.EmptyQueueTicks : Prop :=
  ∀ s : State, s.pending = [] →
    (s.pwr.phase = .por → step s = .next s) ∧
    (s.pwr.phase = .sleep → step s = .next (s.advance 10)) ∧
    (s.pwr.phase ≠ .por → s.pwr.phase ≠ .sleep → s.pwr.phase ≠ .run → step s = .next (s.advance 1)) ∧
    (s.pwr.phase = .run → (∀ b < 16, s.running b = false) → step s = .next (s.advance 1).injectDue)

/-- No command stops the block: exec of every command, in every state, answers a next state, and so does every step. This is the model's own
choice (log entry 1): the manual names no command that stops it. -/
def Obligations.StepNeverStops : Prop := (∀ (c : Instr) (s : State), ∃ t, exec c s = .next t) ∧ ∀ s : State, ∃ t, step s = .next t

/-- What reset leaves: POR held, nothing queued, no byte of any memory listed, every register word at its Reset value, and the outputs as
R387 gives them. What the memories and OTP hold, and the fields the manual does not name, are the model's own choice (log entries 19, 20
and 21). -/
def Obligations.ResetState : Prop :=
  State.reset.pwr.phase = .por ∧ State.reset.pending = [] ∧ State.reset.readPort = ⟨0, false⟩ ∧
  State.reset.sram = [] ∧ State.reset.mgmt = [] ∧ State.reset.ospi0 = [] ∧ State.reset.ospi1 = [] ∧
  Memory.wf State.reset = true ∧ otpOk State.reset.otp ∧ (∀ r : Reg, State.reset.rd r = r.rst % 2 ^ 32) ∧
  State.reset.raw = 0 ∧ State.reset.period = 100000 ∧ State.reset.repeatLen = 1 ∧ State.reset.trust = Trust.free ∧
  State.reset.fd Rg.TIME_SLEW_MAX Fl.TIME_SLEW_MAX_PPM = 100 ∧ State.reset.fd Rg.HOOP_SWAP_DELAY Fl.HOOP_SWAP_DELAY_DELAY = 1000 ∧
  (∀ p < 52, State.reset.fd (Rg.EGR_SCHED p) Fl.EGR_SCHED_OVERHEAD = 20) ∧ (∀ b < 16, State.reset.bobState b = 0) ∧
  State.reset.pins.legalHalt = true ∧ State.reset.pins.thermAlert = false ∧ State.reset.pins.faultNLow = false ∧
  State.reset.pins.gpioDriven = false ∧ State.reset.pins.ppsOutTill = [] ∧
  State.reset.pins.pads.mdc = .low ∧ State.reset.pins.pads.canTxd = .high ∧ State.reset.pins.pads.mdio = .highZ ∧
  State.reset.pins.pads.tdo = .highZ ∧ State.reset.pins.pads.ospiDq = .highZ ∧ State.reset.pins.pads.ospiDqs = .highZ ∧
  State.reset.pins.pads.ospiCsN = .high ∧ State.reset.pins.pads.ospiResetN = .low ∧ State.reset.pins.pads.sdTx = .idle ∧
  State.reset.pins.pads.t1s = .highZ

/-! ## Registers (R4, R7, R57, R374) -/

/-- Accesses of a management core to management memory, and those no register takes. REGISTER_WRITE of any width stores the bytes of the
width, the least significant at the lowest address, and every other byte of every memory, and every register outside the clock's own, stays;
REG64_LOW_READ of any width loads them. A write of another width than 32 bits, or an atomic one, to a register takes an access fault and
changes nothing. An atomic addition, and a store-conditional under the core's reservation and without it, act as the A extension has them.
DEBUG_WINDOW_READ brings four bytes of on-die memory, the first byte lowest.
Where the manual leaves a point open it is the model's choice (log entries 16, 17 and 162). -/
def Obligations.RegisterWriteStoresMemory : Prop :=
  (∀ (l : Nat) (a : Word) (w : Width) (v : BitVec 64) (s : State), s.coresRun = true → s.pwr.fatal = false → a.toNat < 0x10000000 →
    s.inMgmt a.toNat w.bytes = true →
    completes (.registerWrite l a ⟨v, w, .store⟩) s fun t =>
      t.memLe a.toNat w.bytes = v.toNat % 2 ^ (8 * w.bytes) ∧
      (∀ x, x < a.toNat ∨ a.toNat + w.bytes ≤ x → t.mem x 1 = s.mem x 1) ∧
      sameRam s t ∧ t.ospi0 = s.ospi0 ∧ t.ospi1 = s.ospi1 ∧ sameRegs clockWord s t) ∧
  (∀ (l : Nat) (a : Word) (w : Width) (s : State), s.coresRun = true → s.pwr.fatal = false → a.toNat < 0x10000000 →
    s.inMgmt a.toNat w.bytes = true → clean s →
    completes (.reg64LowRead l ⟨a, w, none⟩) s fun t =>
      t.readPort = ⟨BitVec.ofNat 32 (s.memLe a.toNat w.bytes), false⟩ ∧
      (w = .double → t.readHigh = BitVec.ofNat 32 (s.memLe a.toNat 8 / 2 ^ 32)) ∧ sameMemories s t ∧ sameRegs clockWord s t) ∧
  (∀ (l : Nat) (a : Word) (x : CoreStore) (s : State), s.coresRun = true → s.pwr.fatal = false → 0x10000000 ≤ a.toNat →
    x.width ≠ .word ∨ x.op ≠ .store →
    completes (.registerWrite l a x) s fun t => t.readPort.fault = true ∧ sameMemories s t ∧ sameRegs clockWord s t) ∧
  (∀ (l : Nat) (a : Word) (w : Width) (v : BitVec 64) (s : State), s.coresRun = true → s.pwr.fatal = false → clean s →
    s.atomicOk a.toNat w.bytes = true →
    completes (.registerWrite l a ⟨v, w, .add⟩) s fun t =>
      t.memLe a.toNat w.bytes = (s.memLe a.toNat w.bytes + v.toNat) % 2 ^ (8 * w.bytes) ∧
      t.readPort = ⟨BitVec.ofNat 32 (s.memLe a.toNat w.bytes), false⟩ ∧
      (∀ x, x < a.toNat ∨ a.toNat + w.bytes ≤ x → t.mem x 1 = s.mem x 1)) ∧
  (∀ (l : Nat) (c : Fin 4) (a : Word) (w : Width) (v : BitVec 64) (s : State), s.coresRun = true → s.pwr.fatal = false → clean s →
    s.atomicOk a.toNat w.bytes = true →
    completes (.reg64LowRead l ⟨a, w, some c⟩) s (fun t => (c, a.toNat, w.bytes) ∈ t.resv ∧ sameMemories s t) ∧
    completes (.registerWrite l a ⟨v, w, .storeCond c⟩) s (fun t =>
      ((c, a.toNat, w.bytes) ∈ s.resv → t.readPort = ⟨0, false⟩ ∧ t.memLe a.toNat w.bytes = v.toNat % 2 ^ (8 * w.bytes)) ∧
      ((c, a.toNat, w.bytes) ∉ s.resv → t.readPort = ⟨1, false⟩ ∧ sameMemories s t) ∧ ∀ r ∈ t.resv, r.1 ≠ c)) ∧
  (∀ (a : Word) (s : State), s.coresRun = true → Mm.act ≤ a.toNat → a.toNat < Mm.act + 0x200000 → a.toNat % 4 = 0 → clean s →
    completes (.debugWindowRead a) s fun t => t.readPort = ⟨BitVec.ofNat 32 (ofLe (s.ram a.toNat 4)), false⟩ ∧ sameMemories s t)

/-- REGISTER_WRITE acts field by field on a port's ETH_INT_STATUS and ETH_INT_EN: bits 0, 2, 3 and 4 of the status clear where a 1 is
written and keep their value where a 0 is, or where hardware has set the bit in the same cycle (R8); bits 0 to 5 of the enables take the
value written. No memory changes. -/
def Obligations.RegisterWriteActsByField : Prop :=
  ∀ (l : Nat) (p : Fin 24) (v : Word) (s : State), s.coresRun = true → s.pwr.fatal = false →
    completes (.registerWrite l (BitVec.ofNat 32 (Rg.ETH_INT_STATUS p.val).addr) (.word v)) s (fun t =>
      (∀ k ∈ [0, 2, 3, 4], bitOf (t.rd (Rg.ETH_INT_STATUS p.val)) k = (bitOf (s.rd (Rg.ETH_INT_STATUS p.val)) k &&
        (!v.getLsbD k || bitOf (sget (s.advance l).cyc.sets (Rg.ETH_INT_STATUS p.val).addr 0) k))) ∧
      sameMemories s t) ∧
    completes (.registerWrite l (BitVec.ofNat 32 (Rg.ETH_INT_EN p.val).addr) (.word v)) s (fun t =>
      t.rd (Rg.ETH_INT_EN p.val) % 64 = v.toNat % 64 ∧ sameMemories s t)

/-- REGISTER_WRITE to SYS_CHIP_ID, which holds read-only fields alone, changes no register beside the clock's own, and raises
SYS_WRITE_IGNORED with the address and the value. -/
def Obligations.ReadOnlyWriteIgnored : Prop :=
  ∀ (l : Nat) (v : Word) (s : State), s.coresRun = true → s.pwr.fatal = false → evRoom s 8 →
    completes (.registerWrite l (BitVec.ofNat 32 Rg.SYS_CHIP_ID.addr) (.word v)) s fun t =>
      sameRegs clockWord s t ∧ sameMemories s t ∧
      raised t 0x0110 noPort (Rg.SYS_CHIP_ID.addr * 2 ^ 32 + v.toNat)

/-- Reads of 64-bit registers. The low word of HOOP_COUNT comes with its high word latched, and the later read of the high word brings the
latched value whatever the register holds by then (REG64_LOW_READ). A read of the low word of TIME_NOW brings that word of LT and latches the
high word, the fraction and the hoop index, all of the same cycle (TIME_NOW_READ); that of TIME_PPS_IN_TS[i] latches its high word and
TIME_PPS_IN_FRAC[i]; the later reads of these words bring what was latched. -/
def Obligations.ReadsLatch : Prop :=
  (∀ (l : Nat) (s : State), s.coresRun = true → s.pwr.fatal = false →
    completes (.reg64LowRead l (.word (BitVec.ofNat 32 Rg.HOOP_COUNT.addr))) s fun t =>
      t.readPort = ⟨BitVec.ofNat 32 ((s.advance l).hoopCount % 2 ^ 32), false⟩ ∧
      (t.latched (Rg.HOOP_COUNT.addr + 4)) = (s.advance l).hoopCount / 2 ^ 32 ∧ sameMemories s t) ∧
  (∀ (l : Nat) (s : State), s.coresRun = true → s.pwr.fatal = false →
    ∀ a ∈ [Rg.HOOP_COUNT.addr + 4, Rg.TIME_NOW.addr + 4, Rg.TIME_NOW_FRAC.addr, Rg.TIME_NOW_HOOP.addr, (Rg.TIME_PPS_IN_TS 0).addr + 4,
        (Rg.TIME_PPS_IN_TS 1).addr + 4, (Rg.TIME_PPS_IN_FRAC 0).addr, (Rg.TIME_PPS_IN_FRAC 1).addr],
      completes (.reg64LowRead l (.word (BitVec.ofNat 32 a))) s fun t =>
        t.readPort = ⟨BitVec.ofNat 32 (s.latched a), false⟩ ∧ sameMemories s t) ∧
  (∀ (l : Nat) (s : State), s.coresRun = true →
    completes (.timeNowRead l) s fun t =>
      t.readPort.fault = false ∧
      t.readPort.data.toNat + t.latched (Rg.TIME_NOW.addr + 4) * 2 ^ 32 = unsigned 64 (s.advance l).ltNs ∧
      t.latched Rg.TIME_NOW_FRAC.addr = unsigned 16 (s.advance l).lt ∧
      t.latched Rg.TIME_NOW_HOOP.addr = (s.advance l).hoopIx ∧ sameMemories s t) ∧
  (∀ (l : Nat) (i : Fin 2) (s : State), s.coresRun = true → s.pwr.fatal = false →
    completes (.reg64LowRead l (.word (BitVec.ofNat 32 (Rg.TIME_PPS_IN_TS i.val).addr))) s fun t =>
      t.readPort.fault = false ∧
      t.readPort.data.toNat + t.latched ((Rg.TIME_PPS_IN_TS i.val).addr + 4) * 2 ^ 32 = s.rd64 (Rg.TIME_PPS_IN_TS i.val) ∧
      t.latched (Rg.TIME_PPS_IN_FRAC i.val).addr = s.rd (Rg.TIME_PPS_IN_FRAC i.val) ∧ sameMemories s t)

/-! ## Time (R29 to R57) -/

/-- TIME_RATE_WRITE: a value within ±109,951,163 is stored and takes effect one core cycle later; TIME_OFFSET gives up
TIME_RAW × (new rate − old rate) in that cycle, so LT is where the old rate had it; a value outside is clamped to the nearer limit, and TIME_RATE_BOUND carries the written value.
That the command lets that one cycle pass, and how TIME_OFFSET gives up its share, is the model's choice (log entry 24). -/
def Obligations.TimeRateWriteClamps : Prop :=
  ∀ (l : Nat) (v : Word) (s : State), s.coresRun = true → evRoom s 8 →
    completes (.timeRateWrite l v) s fun t =>
      t.rate = max (-109951163) (min 109951163 v.toInt) ∧
      (t.flag Rg.TIME_STATUS Fl.TIME_STATUS_RATE_CLAMPED = true ↔ (v.toInt < -109951163 ∨ 109951163 < v.toInt)) ∧
      ((v.toInt < -109951163 ∨ 109951163 < v.toInt) → raised t 0x0201 noPort v.toNat) ∧
      t.raw = ((s.advance l).advance 1).raw ∧
      (((s.advance l).advance 1).raw < 2 ^ 60 → ((s.advance l).advance 1).offset.natAbs < 2 ^ 76 →
        t.offset = ((s.advance l).advance 1).offset -
          (scaledRaw ((s.advance l).advance 1).raw t.rate - scaledRaw ((s.advance l).advance 1).raw ((s.advance l).advance 1).rate) ∧
        t.lt = ((s.advance l).advance 1).lt) ∧ sameMemories s t

/-- TIME_ADJ_WRITE replaces the remaining amount of the slew, in sixteenths of a nanosecond; zero ends it. TIME_ADJ_DONE: time passes to
the end of the slew, whose remaining amount is then zero, and the event carries the adjustment.
Where the manual leaves a point open it is the model's choice (log entries 24 and 25). -/
def Obligations.SlewStartsAndEnds : Prop :=
  (∀ (l : Nat) (v : Word) (s : State), s.coresRun = true →
    completes (.timeAdjWrite l v) s fun t =>
      t.rdw Rg.TIME_ADJ_REMAIN = v ∧ (t.flag Rg.TIME_STATUS Fl.TIME_STATUS_SLEWING = true ↔ v ≠ 0) ∧ sameMemories s t) ∧
  (∀ s : State, s.pwr.phase ≠ .por → s.clk.slewRemain ≠ 0 → 0 < s.fd Rg.TIME_SLEW_MAX Fl.TIME_SLEW_MAX_PPM → s.clk.slewAcc < 1000000 → evRoom s 8 →
    completes .timeAdjDone s fun t =>
      t.clk.slewRemain = 0 ∧ t.rd Rg.TIME_ADJ_REMAIN = 0 ∧ t.flag Rg.TIME_STATUS Fl.TIME_STATUS_SLEWING = false ∧
      raised t 0x0205 noPort (unsigned 32 s.clk.slewAdj) ∧ sameMemories s t)

/-- Time trust. A report of at most 1,000 ns counts in GOOD_RUN, and the sixteenth in a row asks for SYNCED; every report above returns GOOD_RUN
to 0, and leaves the trust where it is not above LOSS_THRESH or trust is not SYNCED. FORCE_LOSS, three sync intervals without a report, and a
report above LOSS_THRESH lose sync: GOOD_RUN is 0, SYNCED asks for HOLDOVER, and the holdover clock counts from then; 60 s of it ask for
DEGRADED. What is asked for takes effect at the next boundary, with its event (R37).
Where the manual leaves a point open it is the model's choice (log entry 130). -/
def Obligations.TrustFollowsServo : Prop :=
  (∀ (l : Nat) (v : Word) (s : State), s.coresRun = true → v.toInt.natAbs ≤ 1000 →
    s.trust ≠ Trust.synced ∨ (s.advance l).raw ≤ (s.advance l).reportDue →
    completes (.servoReport l v) s fun t =>
      t.fd Rg.TIME_STATUS Fl.TIME_STATUS_GOOD_RUN = Nat.min (s.fd Rg.TIME_STATUS Fl.TIME_STATUS_GOOD_RUN + 1) 16 ∧
      (s.fd Rg.TIME_STATUS Fl.TIME_STATUS_GOOD_RUN ≥ 15 → t.wantTrust = Trust.synced) ∧ sameMemories s t) ∧
  (∀ (l : Nat) (v : Word) (s : State), s.coresRun = true → v.toInt.natAbs ≤ 1000 → s.trust = Trust.synced → s.wantTrust = Trust.synced →
    (s.advance l).reportDue < (s.advance l).raw →
    completes (.servoReport l v) s fun t =>
      t.fd Rg.TIME_STATUS Fl.TIME_STATUS_GOOD_RUN = 1 ∧ t.wantTrust = Trust.holdover ∧ t.clk.lostAt = (s.advance l).reportDue) ∧
  (∀ (l : Nat) (v : Word) (s : State), s.coresRun = true → 1000 < v.toInt.natAbs →
    completes (.servoReport l v) s fun t =>
      t.fd Rg.TIME_STATUS Fl.TIME_STATUS_GOOD_RUN = 0 ∧ t.clk.reportAt = t.raw ∧
      (s.wantTrust ≠ Trust.synced → t.wantTrust = s.wantTrust) ∧
      ((s.advance l).raw ≤ (s.advance l).reportDue → v.toInt.natAbs ≤ 1000 * s.fd Rg.TIME_SYNC_CFG Fl.TIME_SYNC_CFG_LOSS_THRESH →
        t.wantTrust = s.wantTrust) ∧
      ((s.advance l).raw ≤ (s.advance l).reportDue → 1000 * s.fd Rg.TIME_SYNC_CFG Fl.TIME_SYNC_CFG_LOSS_THRESH < v.toInt.natAbs →
        s.trust = Trust.synced → s.wantTrust = Trust.synced → t.wantTrust = Trust.holdover ∧ t.clk.lostAt = t.raw) ∧ sameMemories s t) ∧
  (∀ (l : Nat) (v : Word) (s : State), s.coresRun = true → v.getLsbD 1 = true →
    completes (.forceLoss l v) s fun t =>
      t.fd Rg.TIME_STATUS Fl.TIME_STATUS_GOOD_RUN = 0 ∧ (s.wantTrust ≠ Trust.synced → t.wantTrust = s.wantTrust) ∧
      (s.trust = Trust.synced → s.wantTrust = Trust.synced → t.wantTrust = Trust.holdover ∧ t.clk.lostAt = t.raw) ∧ sameMemories s t) ∧
  (∀ s : State, s.trust = Trust.synced → s.wantTrust = Trust.synced → s.lossNoted = false →
    completes .syncReportTimeout s fun t =>
      t.fd Rg.TIME_STATUS Fl.TIME_STATUS_GOOD_RUN = 0 ∧ t.wantTrust = Trust.holdover ∧
      t.clk.lostAt = s.clk.reportAt + 3 * s.syncNs ∧ sameMemories s t) ∧
  (∀ s : State, s.wantTrust = Trust.holdover →
    completes .holdoverExpiry s fun t => t.wantTrust = Trust.degraded ∧
      (s.hoopsRun = true → s.raw ≤ s.clk.lostAt + 60000000000 → s.clk.lostAt + 60000000000 < 2 ^ 64 →
        t.raw = s.clk.lostAt + 60000000000) ∧ sameMemories s t) ∧
  (∀ (pins : Word) (s : State), s.hoopsRun = true → s.dueTrust < 4 →
    (s.wantTrust = Trust.synced → s.trust = Trust.synced → (s.advanceTo s.nextB).dueRaw ≤ (s.advanceTo s.nextB).reportDue) →
    (s.wantTrust = Trust.holdover → (s.advanceTo s.nextB).dueRaw ≤ s.clk.lostAt + 60000000000) →
    completes (.hoopBoundary pins) s fun t =>
      t.trust = s.dueTrust ∧
      (s.pwr.phase ≠ .run → s.pwr.phase ≠ .flush → s.dueTrust ≠ s.trust → evRoom s 8 → raised t 0x0202 noPort (s.trust + 4 * s.dueTrust)))

/-- PPS and timestamp records: an edge on an enabled input is captured with the LT of its cycle and counted, one on a disabled input
changes nothing but the time; 2 s without an edge raise PPS_IN_MISSING; PPS_OUT gives a pulse of WIDTH × 100 ns at a boundary not yet
pulsed; a write of 1 to TIME_TSQ_POP removes the oldest record of its group, and no other group's, and a record of the same cycle that has
found the queue full takes the room.
Where the manual leaves a point open it is the model's choice (log entries 27 and 28). -/
def Obligations.PpsAndTimestamps : Prop :=
  (∀ (l : Nat) (i : Fin 2) (s : State), s.ppsOn i.val = true →
    completes (.ppsInEdge l i) s fun t =>
      t.rd64 (Rg.TIME_PPS_IN_TS i.val) = unsigned 64 (s.advance l).ltNs ∧
      t.rd (Rg.TIME_PPS_IN_FRAC i.val) = unsigned 16 (s.advance l).lt ∧
      t.rd (Rg.TIME_PPS_IN_CNT i.val) = (s.rd (Rg.TIME_PPS_IN_CNT i.val) + 1) % 2 ^ 32 ∧ sameMemories s t) ∧
  (∀ (l : Nat) (i : Fin 2) (s : State), s.ppsOn i.val = false → completes (.ppsInEdge l i) s fun t => t = s.advance l) ∧
  (∀ (i : Fin 2) (s : State), s.ppsOn i.val = true → evRoom s 8 →
    completes (.ppsInMissing i) s fun t => raised t 0x0207 noPort i.val ∧ sget t.clk.ppsAt i.val 0 = sget s.clk.ppsAt i.val 0 + 2000000000) ∧
  (∀ (j : Fin 4) (s : State), s.hoopsRun = true → s.fd (Rg.TIME_PPS_OUT_CFG j.val) Fl.TIME_PPS_OUT_CFG_SRC = 2 →
    0 < s.fd (Rg.TIME_PPS_OUT_CFG j.val) Fl.TIME_PPS_OUT_CFG_WIDTH → s.clk.lockRaw < s.clk.boundRaw → sget s.pins.ppsOutTill j.val 0 ≤ s.clk.boundRaw →
    completes (.ppsOutPulse j) s fun t =>
      sget t.pins.ppsOutTill j.val 0 = s.clk.boundRaw + 100 * s.fd (Rg.TIME_PPS_OUT_CFG j.val) Fl.TIME_PPS_OUT_CFG_WIDTH ∧
      sget t.pins.ppsOutCnt j.val 0 = sget s.pins.ppsOutCnt j.val 0 + 1 ∧ t.regs = s.regs) ∧
  (∀ (g : Fin 8) (v : Word) (s : State), s.coresRun = true → v.getLsbD 0 = true →
    completes (.timeTsqPop g v) s fun t =>
      (s.cyc.tsWait.all (fun w => groupOf w.1.val ≠ g.val) = true → t.tsqOf g.val = (s.tsqOf g.val).tail) ∧
      (s.cyc.tsWait.any (fun w => groupOf w.1.val = g.val) = true → ∃ r, t.tsqOf g.val = (s.tsqOf g.val).tail ++ [r]) ∧ (∀ h < 8, h ≠ g.val → t.tsqOf h = s.tsqOf h) ∧ t.regs = s.regs ∧ sameMemories s t)

/-- HOOP_BOUNDARY: the full hoop count, its low 32 bits as the index, the position in the repeat and the latest boundary follow R46 and R47 from
the LT of the first cycle at or after the boundary, in a part whose datapath stands, in a flush, and in a running part; in a flush line 1 of
the interrupts becomes pending besides; in a running part forwarding has begun. SWAP_DELAY_EXPIRY: time passes to B + SWAP_DELAY, and every
bobbin with a budget that is not halted starts there at address 0 with the hoop's index, its own number, B and the trust in w1 to w4; all
this comes once a hoop. The read view has swapped with it: a signal read of a bobbin serves the hoop before that index, the one that ended
at B.
Where the manual leaves a point open it is the model's choice (log entries 2, 7, 9 and 31). -/
def Obligations.BoundaryFollowsLocalTime : Prop :=
  (∀ (pins : Word) (s : State), s.hoopsRun = true →
    let u := s.advanceTo s.nextB
    let n := u.countAt u.ltNs
    completes (.hoopBoundary pins) s fun t =>
      t.hoopCount = unsigned 64 n ∧ t.hoopIx = unsigned 32 n ∧
      t.fd Rg.HOOP_POS Fl.HOOP_POS_POS = (n % ((Nat.max 1 s.repeatLen : Nat) : Int)).toNat % 2 ^ 12 ∧
      t.rd64 Rg.HOOP_LAST_B = unsigned 64 (n * ((s.period : Nat) : Int) + ((s.phase : Nat) : Int)) ∧ t.clk.boundRaw = u.dueRaw ∧
      t.raw = u.raw ∧
      (s.pwr.phase ∈ [Phase.doze, .dozeExit, .safeHold, .thermHold, .pfailHold] → sameMemories s t) ∧
      (s.pwr.phase = .flush → t.flag Rg.SYS_IRQ_HOOP Fl.SYS_IRQ_HOOP_PEND = true ∧ t.pwr.fwd = s.pwr.fwd) ∧
      (s.pwr.phase = .run → sound s → t.clk.swapped = false ∧ t.pwr.fwd = true)) ∧
  (∀ s : State, s.forwarding = true → s.clk.swapped = false → sound s →
    completes .swapDelayExpiry s fun t =>
      t.clk.swapped = true ∧
      t.raw = (s.advanceTo (s.lastB + ((s.fd Rg.HOOP_SWAP_DELAY Fl.HOOP_SWAP_DELAY_DELAY : Nat) : Int))).raw ∧
      (∀ b < 16, 0 < s.bobBudget b → s.bobState b ≠ 3 →
        t.running b = true ∧ (t.lane b).started = t.raw ∧ (t.lane b).pc = 0 ∧ (t.lane b).records = [] ∧
        (t.lane b).w 1 = (s.rdw Rg.HOOP_INDEX).setWidth 64 ∧ (t.lane b).w 2 = BitVec.ofNat 64 b ∧
        (t.lane b).w 3 = BitVec.ofInt 64 s.lastB ∧ (t.lane b).w 4 = BitVec.ofNat 64 s.trust)) ∧
  (∀ s : State, s.forwarding = true → s.clk.swapped = true → s.pwr.fatal = false → completes .swapDelayExpiry s fun t => t = s) ∧
  (∀ (b : Fin 16) (q : Pq) (d x : RegIx) (imm : BitVec 12) (c : Nat) (s : State), issuesAt s b.val q [x.val, d.val, d.val + 1] c →
    clean s → s.sig.wait = [] → s.cyc.sigOld = [] → (s.lane b.val).slices = [] → 2 ≤ d.val → ((s.lane b.val).land c).holds q = true →
    (((s.lane b.val).land c).w x.val + imm.signExtend 64).toNat ≤ 65535 →
    completes (.bSld b q d x imm) s fun t =>
      ∃ e ∈ (t.lane b.val).sld, e.due = c + 20 ∧ e.reg = d.val ∧
        e.value = (s.sigRead (s.rdw Rg.HOOP_INDEX - 1) (((s.lane b.val).land c).w x.val + imm.signExtend 64).toNat).1.value)

/-! ## Resets, low power and faults (R330 to R352, R384 to R386) -/

/-- The reset inputs. A supply below its threshold for 2 µs or more: POR, with registers and memories as after reset, OTP and flash kept.
The release of POR: with RESET_N high a start begins, counted in SYS_BOOT_COUNT, with its cause in SYS_RESET_CAUSE; with RESET_N low the
part is held. RESET_N low for 10 µs or more: held, SRAM and management memory lost, OTP kept, TIME_RAW not; low for 1 µs or less:
nothing. The rising edge of RESET_N begins the start. A loss of lock is a RESET_N-type start of cause 8.
Where the manual leaves a point open it is the model's choice (log entries 19 and 120). -/
def Obligations.ResetInputs : Prop :=
  (∀ (n : Nat) (s : State), 2000 ≤ n → s.stg = none →
    completes (.powerOnReset n) s fun t =>
      t.pwr.phase = .por ∧ t.regs = [] ∧ t.sram = [] ∧ t.mgmt = [] ∧ t.ospi0 = s.ospi0 ∧ t.ospi1 = s.ospi1 ∧ t.otp = s.otp ∧
      t.pins.legalHalt = true) ∧
  (∀ s : State, s.pwr.phase = .por → s.pwr.resetNHigh = true → s.pwr.pwrfail = false →
    completes .porRelease s fun t =>
      t.pwr.phase = .start ∧ t.fd Rg.SYS_RESET_CAUSE Fl.SYS_RESET_CAUSE_CAUSE = s.pwr.cause % 16 ∧
      t.rd Rg.SYS_BOOT_COUNT = (s.rd Rg.SYS_BOOT_COUNT + 1) % 2 ^ 32 ∧ t.otpRead = s.otp) ∧
  (∀ s : State, s.pwr.phase = .por → s.pwr.resetNHigh = false → completes .porRelease s fun t => t.pwr.phase = .held) ∧
  (∀ (n : Nat) (s : State), 10000 ≤ n → s.pwr.phase ≠ .por → srising s.regs = true →
    completes (.resetNAssert n) s fun t =>
      t.pwr.phase = .held ∧ t.pwr.cause = s.joinCause 1 ∧ t.sram = [] ∧ t.mgmt = [] ∧ t.otp = s.otp ∧ t.raw = s.raw) ∧
  (∀ (n : Nat) (s : State), n ≤ 1000 → completes (.resetNAssert n) s fun t => t = s) ∧
  (∀ s : State, s.pwr.phase = .held → s.pwr.pwrfail = false →
    completes .resetNRelease s fun t =>
      t.pwr.phase = .start ∧ t.pwr.resetNHigh = true ∧ t.fd Rg.SYS_RESET_CAUSE Fl.SYS_RESET_CAUSE_CAUSE = s.pwr.cause % 16) ∧
  (∀ s : State, s.pwr.phase = .run → s.pwr.resetNHigh = true → s.pwr.pwrfail = false →
    completes (.pllRefclkLoss 0) s fun t =>
      t.pwr.phase = .start ∧ t.pwr.cause = 8 ∧ t.pins.faultNLow = true ∧ t.sram = [] ∧ t.otp = s.otp)

/-- What opens a flush: a write of SYS_RESET_REQ with GO and CONFIRM 0xA5 together (cause 5), a SLEEP request (cause 6), the expiry of the watchdog
that a core has stopped serving (cause 2). Any other write of SYS_RESET_REQ changes no phase and raises SYS_WRITE_IGNORED; a DOZE request waits for the boundary. A kick
restarts the watchdog at its full period; half a period without one sets WARN and raises its event. The causes stand where no fatal fault
joins them. -/
def Obligations.FlushesOpen : Prop :=
  (∀ (l : Nat) (v : Word) (s : State), s.pwr.phase = .run → v.getLsbD 0 = true → fieldOf v.toNat Fl.SYS_RESET_REQ_CONFIRM = 0xA5 →
    sound s →
    completes (.firmwareResetRequest l v) s fun t =>
      t.pwr.phase = .flush ∧ t.pwr.flush = .warm ∧ t.pwr.cause = 5 ∧ t.pwr.flushAt = (s.advance l).raw) ∧
  (∀ (l : Nat) (v : Word) (s : State), s.pwr.phase = .run →
    ¬ (v.getLsbD 0 = true ∧ fieldOf v.toNat Fl.SYS_RESET_REQ_CONFIRM = 0xA5) → evRoom s 8 →
    completes (.firmwareResetRequest l v) s fun t =>
      t.pwr.phase = .run ∧ raised t 0x0110 noPort (Rg.SYS_RESET_REQ.addr * 2 ^ 32 + v.toNat) ∧ sameMemories s t) ∧
  (∀ (l : Nat) (v : Word) (s : State), s.pwr.phase = .run → fieldOf v.toNat Fl.SYS_PWR_CTRL_REQ = 1 →
    completes (.dozeRequest l v) s fun t => t.pwr.phase = .run ∧ t.pwr.dozeReq = true ∧ sameMemories s t) ∧
  (∀ (l : Nat) (v : Word) (s : State), s.pwr.phase = .run → fieldOf v.toNat Fl.SYS_PWR_CTRL_REQ = 2 → sound s →
    completes (.sleepRequest l v) s fun t => t.pwr.phase = .flush ∧ t.pwr.flush = .sleep ∧ t.pwr.cause = 6) ∧
  (∀ (v : Word) (s : State), s.coresRun = true → v.getLsbD 0 = true →
    completes (.wdogKick v) s fun t =>
      t.pwr.wdog = s.fd Rg.FLT_WDOG_CFG Fl.FLT_WDOG_CFG_PERIOD_M1 + 1 ∧ t.pwr.wdogWarned = false ∧ sameMemories s t) ∧
  (∀ s : State, s.coresRun = true → s.pwr.wdogWarned = false → 2 * s.pwr.wdog ≤ s.fd Rg.FLT_WDOG_CFG Fl.FLT_WDOG_CFG_PERIOD_M1 + 1 →
    evRoom s 8 →
    completes .wdogWarn s fun t =>
      t.flag Rg.FLT_WDOG_STATUS Fl.FLT_WDOG_STATUS_WARN = true ∧ t.pwr.wdogWarned = true ∧ raised t 0x0F02 noPort s.pwr.wdog ∧
      sameMemories s t) ∧
  (∀ s : State, s.coresRun = true → s.pwr.wdog = 0 → sound s →
    completes .wdogExpiry s fun t => t.pwr.phase = .flush ∧ t.pwr.flush = .warm ∧ t.pwr.cause = 2)

/-- The end of a flush whose seal is programmed and whose frames have gone: a warm flush leads into a start with the cause it was opened
with and SRAM lost; a DOZE flush into DOZE; a thermal one into thermal safe hold with FAULT_N and LEGAL_HALT asserted; a SLEEP flush
without a wake into SLEEP.
Where the manual leaves a point open it is the model's choice (log entries 117 and 118). -/
def Obligations.FlushEnds : Prop :=
  (∀ s : State, s.pwr.phase = .flush → s.pwr.flush = .warm → s.pwr.tailDone = true → s.tailFrames = false → s.pwr.thermTrip = false →
    s.pwr.pwrfail = false →
    completes .flushEnd s fun t => t.pwr.phase = .start ∧ t.pwr.cause = s.pwr.cause ∧ t.sram = [] ∧ t.outQ = [] ∧ t.otp = s.otp) ∧
  (∀ s : State, s.pwr.phase = .flush → s.pwr.flush = .doze → s.signing = false → s.tailFrames = false → s.pwr.thermTrip = false →
    s.pwr.wakeHeld = false → s.gnd.inj = [] →
    completes .flushEnd s fun t =>
      t.pwr.phase = .doze ∧ t.fd Rg.SYS_PWR_STATUS Fl.SYS_PWR_STATUS_STATE = 2 ∧ t.outQ = [] ∧ t.pins.gpioDriven = false ∧
      t.tsqLost = s.tsqLost ∧ sameMemories s t) ∧
  (∀ s : State, s.pwr.phase = .flush → s.pwr.flush = .therm → s.pwr.tailDone = true → s.tailFrames = false →
    completes .flushEnd s fun t => t.pwr.phase = .thermHold ∧ t.pins.faultNLow = true ∧ t.pins.legalHalt = true ∧ t.outQ = []) ∧
  (∀ s : State, s.pwr.phase = .flush → s.pwr.flush = .sleep → s.pwr.tailDone = true → s.tailFrames = false → s.pwr.thermTrip = false →
    s.pwr.wakeHeld = false → completes .flushEnd s fun t => t.pwr.phase = .sleep ∧ t.sram = [] ∧ t.otp = s.otp)

/-- Wakes. In DOZE an enabled pin at its level for 1 µs, or the wake timer, begins the exit and is latched in SYS_WAKE_SRC; the exit ends
with the cores running, forwarding to come at the first boundary, the counters of the action records at zero, and every other byte of
memory as it was. In SLEEP an enabled pin begins a start of cause 6.
Where the manual leaves a point open it is the model's choice (log entries 118 and 120). -/
def Obligations.Wakes : Prop :=
  (∀ (l : Nat) (lv : BitVec 16) (n i : Nat) (s : State), s.pwr.phase = .doze → 1000 ≤ n → i < 16 →
    bitOf (s.rd Rg.SYS_WAKE_EN) i = true → lv.getLsbD i = bitOf (s.rd Rg.SYS_WAKE_POL) i →
    completes (.wakeEvent l lv n) s fun t =>
      t.pwr.phase = .dozeExit ∧ bitOf (t.rd Rg.SYS_WAKE_SRC) i = true ∧ t.fd Rg.SYS_PWR_STATUS Fl.SYS_PWR_STATUS_STATE = 3 ∧
      sameMemories s t) ∧
  (∀ s : State, s.pwr.phase = .doze → s.fd Rg.SYS_PWR_CFG Fl.SYS_PWR_CFG_TIMER_M1 + 1 ≤ s.pwr.dozeReps →
    bitOf (s.rd Rg.SYS_WAKE_EN) 18 = true →
    completes .dozeTimerWake s fun t => t.pwr.phase = .dozeExit ∧ t.rd Rg.SYS_WAKE_SRC = 2 ^ 18 ∧ sameMemories s t) ∧
  (∀ s : State, s.pwr.phase = .dozeExit →
    completes .dozeExitComplete s fun t => t.pwr.phase = .run ∧ t.pwr.fwd = false ∧ ramOnly s t Mm.actCnt 0x200000 ∧
      (∀ x, Mm.actCnt ≤ x → x < Mm.actCnt + 0x200000 → t.ram x 1 = [0])) ∧
  (∀ (lv : BitVec 16) (n i : Nat) (s : State), s.pwr.phase = .sleep → 1000 ≤ n → i < 16 → s.pwr.pwrfail = false →
    bitOf (s.rd Rg.SYS_WAKE_EN) i = true → lv.getLsbD i = bitOf (s.rd Rg.SYS_WAKE_POL) i →
    completes (.sleepWake lv n) s fun t => t.pwr.phase = .start ∧ t.pwr.cause = 6)

/-- Temperature and power failure. A reading is shown in TEMP; the third in a row at 120 °C or above opens the thermal flush of cause 9; 1 s
below RESUME ends the thermal hold with a start of cause 9. PWRFAIL_N low for 2 µs or more asserts LEGAL_HALT in a running part and opens the
flush of its emergency seal (cause 7), whose end leads into the power-fail hold with FAULT_N and LEGAL_HALT asserted, GPIO high-impedance and
the queues lost; the rise of the pin leads to a start that keeps the cause.
Where the manual leaves a point open it is the model's choice (log entries 117, 119, 121 and 161). -/
def Obligations.TemperatureAndPowerFail : Prop :=
  (∀ (v : BitVec 9) (s : State), s.sensorOn = true → s.pwr.hotRuns ≠ 2 →
    completes (.tempReading v) s fun t => t.fd Rg.FLT_THERM_STATUS Fl.FLT_THERM_STATUS_TEMP = v.toNat ∧
      t.pwr.phase = s.pwr.phase ∧ sameMemories s t) ∧
  (∀ (v : BitVec 9) (s : State), s.pwr.phase = .run → s.pwr.hotRuns = 2 → 120 ≤ v.toInt →
    completes (.tempReading v) s fun t => t.pwr.phase = .flush ∧ t.pwr.flush = .therm ∧ t.pwr.cause = 9) ∧
  (∀ (r : Nat) (s : State), s.pwr.phase = .thermHold → s.pwr.coolSince = some r → s.pwr.pwrfail = false →
    completes .thermalHoldExit s fun t => t.pwr.phase = .start ∧ t.pwr.cause = 9) ∧
  (∀ (n : Nat) (s : State), s.pwr.phase = .run → 2000 ≤ n → sound s →
    completes (.pwrfailAssert n) s fun t =>
      t.pwr.phase = .flush ∧ t.pwr.flush = .pfail ∧ t.pwr.cause = 7 ∧ t.pwr.flushAt = s.raw ∧ t.pins.legalHalt = true ∧ t.otp = s.otp) ∧
  (∀ s : State, s.pwr.phase = .flush → s.pwr.flush = .pfail → s.pwr.thermTrip = false →
    completes .flushEnd s fun t =>
      t.pwr.phase = .pfailHold ∧ t.pwr.cause = s.pwr.cause ∧ t.pins.faultNLow = true ∧ t.pins.legalHalt = true ∧
      t.pins.gpioDriven = false ∧ t.outQ = [] ∧ t.otp = s.otp) ∧
  (∀ s : State, s.pwr.phase = .flush → s.pwr.flush = .pfail → s.pwr.thermTrip = false → s.pwr.resetNHigh = true →
    completes .pwrfailRelease s fun t => t.pwr.phase = .start ∧ t.pwr.pwrfail = false ∧ t.pwr.cause = s.pwr.cause) ∧
  (∀ s : State, s.pwr.phase = .pfailHold → s.pwr.resetNHigh = true →
    completes .pwrfailRelease s fun t => t.pwr.phase = .start ∧ t.pwr.pwrfail = false ∧ t.pwr.cause = s.pwr.cause)

/-! ## The loader (R58 to R80) -/

/-- WRITE and CHECK records. In a start an operator section's WRITE to a port's ETH_INT_EN gives its six fields the value's bits where the
mask is 1 and leaves them where it is 0; it changes no other register and no memory. A WRITE of a vendor section is rejected with
cause 0x09. A CHECK whose register reads as expected changes nothing; another rejects its section with cause 0x0C.
Where the manual leaves a point open it is the model's choice (log entries 32, 33 and 34). -/
def Obligations.LoaderWritesAndChecks : Prop :=
  (∀ (p : Fin 24) (v m : Word) (s : State), loading s → v.toNat < 64 → m ≠ 0 →
    completes (.writeRecord .operator (BitVec.ofNat 32 (Rg.ETH_INT_EN p.val).addr) v m) s fun t =>
      (∀ k < 6, bitOf (t.rd (Rg.ETH_INT_EN p.val)) k = if m.getLsbD k then v.getLsbD k else bitOf (s.rd (Rg.ETH_INT_EN p.val)) k) ∧
      sameRegs (· = (Rg.ETH_INT_EN p.val).addr) s t ∧ sameMemories s t) ∧
  (∀ (a v m : Word) (s : State), s.pwr.phase = .start → evRoom s 8 →
    completes (.writeRecord .vendor a v m) s fun t => rejects t .vendor 0x09 ∧ t.sram = [] ∧ t.mgmt = []) ∧
  (∀ (sec : Sect) (a m e : Word) (r : RegD) (w : Nat) (s : State), loading s → regRow a.toNat = some (r, w) →
    (s.setLdr (fun l => { l with checked := false })).rowWord r w a.toNat &&& m.toNat = e.toNat →
    completes (.checkRecord sec a m e) s fun t => t.regs = s.regs ∧ sameMemories s t ∧ t.ev = s.ev) ∧
  (∀ (sec : Sect) (a m e : Word) (r : RegD) (w : Nat) (s : State), loading s → regRow a.toNat = some (r, w) →
    (s.setLdr (fun l => { l with checked := false })).rowWord r w a.toNat &&& m.toNat ≠ e.toNat → evRoom s 8 →
    completes (.checkRecord sec a m e) s fun t => rejects t sec 0x0C ∧ t.otp = s.otp)

/-- TABLE, BLOB and MDIO records. An entry of an operator section whose lengths and fields fit its table waits for END; a BLOB's data
stand in their region from the offset on and no other byte changes, and one outside the part of a region its section may fill is
rejected with cause 0x09; an MDIO access whose fields fit waits, and no PHY is written before END.
Where the manual leaves a point open it is the model's choice (log entries 32, 35, 37 and 40). -/
def Obligations.LoaderCollects : Prop :=
  (∀ (n : Fin 256) (key res : Bytes) (s : State), loading s → tableLens n.val = some (key.length, res.length) →
    tableFieldBad n.val key res = false →
    completes (.tableRecord .operator n key res) s fun t =>
      t.ldr.entries = s.ldr.entries ++ [(n.val, if n.val = 4 then key ++ res else eMake n.val 0xE0 key res)] ∧ t.regs = s.regs ∧
      sameMemories s t) ∧
  (∀ (r : Fin 256) (off : Fin 16777216) (data : Bytes) (base size : Nat) (s : State), loading s → 1 ≤ r.val → r.val ≤ 10 →
    regionAt r.val = some (base, size) → off.val + data.length ≤ size →
    completes (.blobRecord .operator r off data) s fun t =>
      t.ram (base + off.val) data.length = data ∧
      (∀ x, x < base + off.val ∨ base + off.val + data.length ≤ x → t.ram x 1 = s.ram x 1) ∧ t.mgmt = s.mgmt ∧ t.regs = s.regs) ∧
  (∀ (off : Fin 16777216) (data : Bytes) (s : State), loading s → off.val + data.length ≤ 0x400000 →
    completes (.blobRecord .vendor 0 off data) s fun t =>
      t.mem off.val data.length = data ∧ (∀ x, x < off.val ∨ off.val + data.length ≤ x → t.mem x 1 = s.mem x 1) ∧ t.sram = s.sram ∧
      t.regs = s.regs) ∧
  (∀ (r : Fin 256) (off : Fin 16777216) (data : Bytes) (s : State), s.pwr.phase = .start → 1 ≤ r.val → evRoom s 8 →
    completes (.blobRecord .vendor r off data) s fun t => rejects t .vendor 0x09) ∧
  (∀ (p : Fin 256) (phy device : Byte) (reg v : BitVec 16) (wait : BitVec 16) (s : State), loading s → 4 ≤ p.val → p.val < 24 →
    phy.toNat < 32 → device.toNat < 32 → wait.toNat ≤ 10000 →
    completes (.mdioRecord p 45 phy device reg v wait) s fun t =>
      t.ldr.mdio = s.ldr.mdio ++ [⟨p.val, 45, phy.toNat, device.toNat, reg.toNat, v.toNat, wait.toNat⟩] ∧ t.phy = s.phy ∧
      t.regs = s.regs ∧ sameMemories s t)

/-- Records that touch keys and fuses. KEYSLOT defines an empty slot with the derived material of SRC 1; AUTH_KEY fuses the digest of a
key into the authority's next free slot, and with four fused is rejected with cause 0x0E; LIFECYCLE fuses the next state and the
state in force stays; DUAL, both signatures good, applies its inner record, and one whose vendor may not use it is rejected.
Where the manual leaves a point open it is the model's choice (log entries 32, 38 and 39). -/
def Obligations.LoaderKeysAndFuses : Prop :=
  (∀ (p : Bytes) (s : State), loading s → clean s → ksFieldsOk p = true → ksWorldOk p = true → ksSrc p = 1 →
    (s.keySlot (byteAt p 0)).st = 0 → s.ksParentOk p = true →
    completes (.keyslotRecord .metrology p) s fun t =>
      (t.keySlot (byteAt p 0)).st = 1 ∧ (t.keySlot (byteAt p 0)).attr.take 12 = p.take 12 ∧
      (t.keySlot (byteAt p 0)).act = halfOf (ksType p) (kdf (s.parentMat (ksParent p)) ((p.drop 20).take (byteAt p 8)) (matLen (ksType p))) ∧
      (∀ k, k ≠ byteAt p 0 → t.keySlot k = s.keySlot k) ∧ t.otp = s.otp ∧ t.regs = s.regs ∧ sameMemories s t) ∧
  (∀ (p : Bytes) (s : State), s.pwr.phase = .start → p.length = 64 → be p 0 4 = 0x02000000 → be p 61 3 = 0 → s.otp.operDig.length < 4 →
    evRoom s 8 →
    completes (.authKeyRecord p) s fun t =>
      t.otp = { s.otp with operDig := s.otp.operDig ++ [shake512 (slice p 4 57)] } ∧
      raised t 0x0307 noPort (2 + 4 * s.otp.operDig.length) ∧ sameMemories s t) ∧
  (∀ (p : Bytes) (s : State), s.pwr.phase = .start → p.length = 64 → be p 0 4 = 0x03000000 → be p 61 3 = 0 → 4 ≤ s.otp.metroDig.length →
    evRoom s 8 →
    completes (.authKeyRecord p) s fun t => rejects t .metrology 0x0E ∧ t.otp = s.otp) ∧
  (∀ (p : Bytes) (s : State), s.pwr.phase = .start → p.length = 4 → be p 1 3 = 0 → byteAt p 0 = s.lifecycle + 1 → 2 ≤ byteAt p 0 →
    byteAt p 0 ≤ 4 → s.otp.lifecycle = s.lifecycle → evRoom s 8 →
    completes (.lifecycleRecord p) s fun t =>
      t.otp = { s.otp with lifecycle := byteAt p 0 } ∧ t.lifecycle = s.lifecycle ∧
      raised t 0x0308 noPort (s.lifecycle + 8 * byteAt p 0) ∧ sameMemories s t) ∧
  (∀ (inner sig1 sig2 : Bytes) (s : State), s.pwr.phase = .start → clean s → inner.length = 68 → be inner 0 4 = 0x11000044 →
    sig1.length = 114 → sig2.length = 114 → s.ldr.duals < 8 → s.useCause 2 Master.image KeyOp.verify [4] = 0 → s.useCause 3 Master.image KeyOp.verify [4] = 0 →
    Ed.verify (s.keySlot 2).act.pub (beBytes 2 s.node ++ beBytes 1 (s.fd Rg.IMG_ROLLBACK Fl.IMG_ROLLBACK_EPOCH) ++ inner) (ascii "KD48-DUAL") sig1 = true →
    Ed.verify (s.keySlot 3).act.pub (beBytes 2 s.node ++ beBytes 1 (s.fd Rg.IMG_ROLLBACK Fl.IMG_ROLLBACK_EPOCH) ++ inner) (ascii "KD48-DUAL") sig2 = true →
    be inner 4 4 = 0x02000000 → be inner 65 3 = 0 → s.otp.operDig.length < 4 → evRoom s 8 →
    completes (.dualRecord .operator (inner ++ sig1 ++ sig2)) s fun t =>
      t.otp = { s.otp with operDig := s.otp.operDig ++ [shake512 (slice inner 8 57)] } ∧ t.ldr.duals = s.ldr.duals + 1 ∧
      raised t 0x0307 noPort (2 + 4 * s.otp.operDig.length)) ∧
  (∀ (p : Bytes) (s : State), s.pwr.phase = .start → evRoom s 8 →
    completes (.dualRecord .vendor p) s fun t => rejects t .vendor 0x09 ∧ t.otp = s.otp)

/-- END. The vendor section's changes nothing. The operator section's copies the seeds of the first bank, puts a waiting entry of a hashed table
into the lowest free slot of its first candidate bucket under those seeds, or, where that is full, of its second, and changes no other byte
with it; it rejects the section where the entry's table is absent; it runs the held MDIO accesses, and notes whether every rule holds of the
state left. The metrology section's notes a metrology section whose own rules hold, and rejects one whose rules do not.
Where the manual leaves a point open it is the model's choice (log entries 41 and 42). -/
def Obligations.SectionsEnd : Prop :=
  (∀ s : State, loading s → completes (.endRecord .vendor) s fun t => t.regs = s.regs ∧ sameMemories s t ∧ t.otp = s.otp) ∧
  (∀ (w : PhyWrite) (s : State), s.pwr.phase = .start → s.ldr.entries = [] → s.ldr.mdio = [w] → w.wait ≤ 1000 →
    completes (.endRecord .operator) s fun t =>
      (∀ k, 1 ≤ k → k ≤ 3 → t.rd64 (Rg.TBL_SEED k) = s.rd64 (Rg.TBL_SEED_INIT k)) ∧ t.phy = s.phy ++ [w] ∧ t.ldr.mdio = [] ∧
      t.ldr.checked = decide (t.operatorCause = 0) ∧ sameMemories s t) ∧
  (∀ (n j : Nat) (e : Bytes) (s : State), loading s → clean s → 1 ≤ n → n ≤ 3 → s.tblSize n ≠ 0 → s.tbl.locks = [] →
    (n = 3 → s.routePort (e.drop 4) = true) → e.length = entBytes n → s.ldr.entries = [(n, e)] → s.ldr.mdio = [] → j < 4 →
    let sd := s.rd64 (Rg.TBL_SEED_INIT n)
    let x := crc32 (beBytes 4 (sd % 2 ^ 32) ++ eKey n e) * s.tblSize n / 2 ^ 32
    let y := crc32c (beBytes 4 (sd / 2 ^ 32) ++ eKey n e) * s.tblSize n / 2 ^ 32
    let firstFree (i : Nat) : Prop := eValid (s.entry n i j) = false ∧ ∀ k < j, eValid (s.entry n i k) = true
    let placed (i : Nat) : Prop := completes (.endRecord .operator) s fun t =>
      t.entry n i j = e ∧ ramOnly s t (s.slotAt n i j) (entBytes n) ∧ t.ldr.entries = [] ∧ t.rd64 (Rg.TBL_SEED n) = sd ∧
      t.ldr.checked = decide (t.operatorCause = 0)
    (firstFree x → placed x) ∧ ((∀ k < 4, eValid (s.entry n x k) = true) → firstFree y → placed y)) ∧
  (∀ (n : Nat) (e : Bytes) (s : State), s.pwr.phase = .start → 1 ≤ n → n ≤ 3 → s.tblSize n = 0 → s.ldr.entries = [(n, e)] → evRoom s 8 →
    completes (.endRecord .operator) s fun t => rejects t .operator 0x0B ∧ t.otp = s.otp) ∧
  (∀ s : State, loading s → s.metrologyCause = 0 →
    completes (.endRecord .metrology) s fun t =>
      t.ldr.metro = true ∧ t.ldr.checked = decide (t.operatorCause = 0) ∧ t.regs = s.regs ∧ sameMemories s t) ∧
  (∀ s : State, s.pwr.phase = .start → s.rd Rg.SEAL_TIMING = 0 → evRoom s 8 →
    completes (.endRecord .metrology) s fun t => rejects t .metrology 0x0A ∧ t.ldr.metro = false ∧ t.mgmt = s.mgmt)

/-- LOAD_SLOT and SEALED_REGISTER_LOCK. With no header in either slot, or none that can be read, the part goes into safe hold with FAULT_N and LEGAL_HALT asserted.
With one candidate whose vendor and operator sections load and which has no good metrology section, that slot is noted as tried, used and active. The
lock of a checked load leaves a running part whose registers are locked, with FAULT_N released and its GPIO outputs driven, whose
forwarding waits for the first boundary; one whose END rules fail is rejected, and the part stays in its start.
Where the manual leaves a point open it is the model's choice (log entries 41, 42 and 45). -/
def Obligations.ImageLoadsAndLocks : Prop :=
  (∀ s : State, s.pwr.phase = .start → (∀ k < 2, s.pins.ospiBad.getLsbD k = false → be (s.flash0 (slotBase k) 4) 0 4 ≠ 0x5052434B) →
    completes .loadSlot s fun t =>
      t.pwr.phase = .safeHold ∧ t.pins.faultNLow = true ∧ t.pins.legalHalt = true ∧
      (∀ k < 2, t.fd (Rg.IMG_SLOT_RESULT k) Fl.IMG_SLOT_RESULT_CAUSE = if s.pins.ospiBad.getLsbD k then 0x0F else 0x02) ∧
      t.sram = [] ∧ t.otp = s.otp ∧ t.ospi0 = s.ospi0) ∧
  (∀ s : State, s.pwr.phase = .start → s.pins.ospiBad.getLsbD 0 = false → s.loaderRuns.forget.headCause 0 = 0 →
    s.pins.ospiBad.getLsbD 1 = true ∨ be (s.flash0 (slotBase 1) 4) 0 4 ≠ 0x5052434B →
    completes .loadSlot s fun t => ∀ u : State,
      (((s.loaderRuns.forget.reject 1 0 (if s.pins.ospiBad.getLsbD 1 then 0x0F else 2) 0).sf (Rg.IMG_SLOT_RESULT 0) Fl.IMG_SLOT_RESULT_TRIED 1).loadOnce 0 true) =
        (u, .metroFailed 0 0) →
      t.pwr.phase = u.pwr.phase ∧ t.ldr.checked = true ∧ t.ldr.image = true ∧ t.fd Rg.IMG_STATUS Fl.IMG_STATUS_ACTIVE_SLOT = 0 ∧
      t.fd Rg.IMG_STATUS Fl.IMG_STATUS_FALLBACK = 0 ∧ t.fd (Rg.IMG_SLOT_RESULT 0) Fl.IMG_SLOT_RESULT_USED = 1 ∧
      t.rd Rg.IMG_ACTIVE_VERSION = imgVersion (u.header 0) ∧ sameMemories u t) ∧
  (∀ s : State, s.pwr.phase = .start → s.ldr.checked = true →
    completes .sealedRegisterLock s fun t =>
      t.pwr.phase = .run ∧ t.pwr.fwd = false ∧ t.pins.faultNLow = false ∧ t.pins.gpioDriven = true ∧ t.pins.legalHalt = true ∧
      t.fd Rg.IMG_STATUS Fl.IMG_STATUS_LOCKED = 1 ∧ t.fd Rg.IMG_STATUS Fl.IMG_STATUS_METRO_VALID = b2n s.ldr.metro ∧
      t.pwr.wdog = t.fd Rg.FLT_WDOG_CFG Fl.FLT_WDOG_CFG_PERIOD_M1 + 1 ∧ t.otp = s.otp ∧ t.mgmt = s.mgmt) ∧
  (∀ (c : Nat) (s : State), s.pwr.phase = .start → s.ldr.checked = false → s.operatorEnd = .error c → c < 64 → evRoom s 8 →
    completes .sealedRegisterLock s fun t => rejects t .operator c ∧ t.pwr.phase = .start)

/-- Debug unlock and the floor. A token that passes every check sets the mark of the always-on domain and DEBUG_UNLOCKED; one that fails any
changes neither and raises IMG_DEBUG_UNLOCK with detail 1. A commit raises the fused floor, and FLOOR, to the epoch of the running
image where that is higher, and blows no other fuse; where it is not higher the write changes nothing.
Where the manual leaves a point open it is the model's choice (log entries 47 and 56). -/
def Obligations.TokensAndFloor : Prop :=
  (∀ (k : Bytes) (s : State), s.jtagOn = true → clean s → s.tokenOk k = true → evRoom s 8 →
    completes (.debugToken k) s fun t =>
      t.pwr.dbgMark = true ∧ t.fd Rg.IMG_STATUS Fl.IMG_STATUS_DEBUG_UNLOCKED = 1 ∧ raised t 0x0309 noPort 0 ∧ sameMemories s t) ∧
  (∀ (k : Bytes) (s : State), s.jtagOn = true → s.tokenOk k = false → evRoom s 8 →
    completes (.debugToken k) s fun t =>
      t.pwr = s.pwr ∧ t.fd Rg.IMG_STATUS Fl.IMG_STATUS_DEBUG_UNLOCKED = s.fd Rg.IMG_STATUS Fl.IMG_STATUS_DEBUG_UNLOCKED ∧
      raised t 0x0309 noPort 1 ∧ sameMemories s t) ∧
  (∀ (v : Word) (s : State), s.coresRun = true → v.getLsbD 0 = true → s.otp.floor < s.fd Rg.IMG_ROLLBACK Fl.IMG_ROLLBACK_EPOCH → evRoom s 8 →
    completes (.imgEpochCommit v) s fun t =>
      t.otp = { s.otp with floor := s.fd Rg.IMG_ROLLBACK Fl.IMG_ROLLBACK_EPOCH } ∧
      t.fd Rg.IMG_ROLLBACK Fl.IMG_ROLLBACK_FLOOR = s.fd Rg.IMG_ROLLBACK Fl.IMG_ROLLBACK_EPOCH ∧
      raised t 0x0306 noPort (s.fd Rg.IMG_ROLLBACK Fl.IMG_ROLLBACK_EPOCH) ∧ sameMemories s t) ∧
  (∀ (v : Word) (s : State), s.coresRun = true → s.fd Rg.IMG_ROLLBACK Fl.IMG_ROLLBACK_EPOCH ≤ s.otp.floor →
    completes (.imgEpochCommit v) s fun t => t = s)

/-- Staging. Each command of IMG_STAGE_CTRL begins its operation on the slot that did not supply the running image and shows BUSY; one
given while another is in progress only shows REFUSED. An erase leaves 64 KiB of 0xFF, a program of an erased page leaves the data, and
no other byte of the flash changes; a check reports, and waits
while the Ed448 engine serves another. In recovery a request with a wrong first byte is counted and not served, and a good
erase request begins the operation on the slot it names.
Where the manual leaves a point open it is the model's choice (log entries 53, 54, 55, 104 and 147). -/
def Obligations.StagingWritesTheOtherSlot : Prop :=
  (∀ (l : Nat) (s : State), s.coresRun = true → s.stg = none → s.fd Rg.IMG_STAGE_ADDR Fl.IMG_STAGE_ADDR_ADDR % 65536 = 0 →
    completes (.stageErase l) s fun t =>
      t.stg = some ⟨1, s.otherSlot, s.fd Rg.IMG_STAGE_ADDR Fl.IMG_STAGE_ADDR_ADDR, [], none, none⟩ ∧
      t.fd Rg.IMG_STAGE_STATUS Fl.IMG_STAGE_STATUS_BUSY = 1 ∧ sameMemories s t) ∧
  (∀ (l : Nat) (s : State), s.coresRun = true → s.stg = none → s.fd Rg.IMG_STAGE_ADDR Fl.IMG_STAGE_ADDR_ADDR % 256 = 0 →
    completes (.stageProgram l) s fun t =>
      t.stg = some ⟨2, s.otherSlot, s.fd Rg.IMG_STAGE_ADDR Fl.IMG_STAGE_ADDR_ADDR, s.rdBytes Rg.IMG_STAGE_BUF 64, none, none⟩ ∧
      t.fd Rg.IMG_STAGE_STATUS Fl.IMG_STAGE_STATUS_BUSY = 1 ∧ sameMemories s t) ∧
  (∀ (l : Nat) (s : State), s.coresRun = true → s.stg = none →
    completes (.stageCheck l) s fun t =>
      (∃ off, t.stg = some ⟨3, s.otherSlot, off, [], none, none⟩) ∧ t.fd Rg.IMG_STAGE_STATUS Fl.IMG_STAGE_STATUS_BUSY = 1 ∧ sameMemories s t) ∧
  (∀ (l : Nat) (s : State), s.coresRun = true → s.stg.isSome = true → ∀ c ∈ [Instr.stageErase l, .stageProgram l, .stageCheck l],
    completes c s fun t => t.stg = s.stg ∧ t.fd Rg.IMG_STAGE_STATUS Fl.IMG_STAGE_STATUS_REFUSED = 1 ∧ sameMemories s t) ∧
  (∀ (k off : Nat) (d : Bytes) (s : State), s.stg = some ⟨1, k, off, d, none, none⟩ →
    completes (.stageOpComplete true) s fun t =>
      t.flash0 (slotBase k + off) 65536 = List.replicate 65536 erased ∧
      (∀ x, x < slotBase k + off ∨ slotBase k + off + 65536 ≤ x → t.flash0 x 1 = s.flash0 x 1) ∧
      t.fd Rg.IMG_STAGE_STATUS Fl.IMG_STAGE_STATUS_BUSY = 0 ∧ t.stg = none ∧ t.sram = s.sram) ∧
  (∀ (k off : Nat) (d : Bytes) (s : State), s.stg = some ⟨2, k, off, d, none, none⟩ →
    s.flash0 (slotBase k + off) d.length = List.replicate d.length erased →
    completes (.stageOpComplete true) s fun t =>
      t.flash0 (slotBase k + off) d.length = d ∧
      (∀ x, x < slotBase k + off ∨ slotBase k + off + d.length ≤ x → t.flash0 x 1 = s.flash0 x 1) ∧ t.stg = none ∧ t.ospi1 = s.ospi1) ∧
  (∀ (k off : Nat) (d : Bytes) (s : State), s.stg = some ⟨3, k, off, d, none, none⟩ → s.edServes .verifier = true → evRoom s 8 →
    completes (.stageOpComplete false) s fun t =>
      t.fd Rg.IMG_STAGE_STATUS Fl.IMG_STAGE_STATUS_CHECK_DONE = 1 ∧ t.fd Rg.IMG_STAGE_STATUS Fl.IMG_STAGE_STATUS_CHECK_PASS = 0 ∧
      t.fd Rg.IMG_STAGE_STATUS Fl.IMG_STAGE_STATUS_CHECK_CAUSE = 0x0F ∧ raised t 0x0305 noPort (2 * 0x0F) ∧ sameMemories s t) ∧
  (∀ (k off : Nat) (d : Bytes) (ok : Bool) (s : State), s.stg = some ⟨3, k, off, d, none, none⟩ → s.edServes .verifier = false →
    completes (.stageOpComplete ok) s fun t => t = s) ∧
  (∀ (l : Nat) (p : Fin 24) (d : Bytes) (u : UdpAt) (s : State), (s.advance l).recoveryOpen = true → (s.advance l).linkUp p.val = true →
    p.val = s.otp.recovery % 64 →
    isTagged d = true → outerTci d % 4096 = s.otp.recovery / 256 % 4096 → udpAt false d = some u → be d (u.udp + 2) 2 = recoveryUdp →
    byteAt d (u.udp + 8) ≠ 0x16 →
    completes (.recoveryStage l p d) s fun t =>
      t.rd (Rg.EYE_CNT 3) = (s.rd (Rg.EYE_CNT 3) + 1) % 2 ^ 32 ∧ t.stg = s.stg ∧ t.sent = s.sent) ∧
  (∀ (l : Nat) (p : Fin 24) (d : Bytes) (u : UdpAt) (s : State), (s.advance l).recoveryOpen = true → (s.advance l).linkUp p.val = true →
    p.val = s.otp.recovery % 64 →
    isTagged d = true → outerTci d % 4096 = s.otp.recovery / 256 % 4096 → udpAt false d = some u → be d (u.udp + 2) 2 = recoveryUdp →
    be d (u.udp + 8) 2 = 0x1600 → be d (u.udp + 4) 2 = 48 → be d (u.udp + 22) 2 = 8 → byteAt d (u.udp + 24) = 1 →
    byteAt d (u.udp + 25) ≤ 1 → be d (u.udp + 26) 2 = 0 → be d (u.udp + 28) 4 % 65536 = 0 → be d (u.udp + 28) 4 < 0x1000000 → s.stg = none →
    completes (.recoveryStage l p d) s fun t =>
      (∃ q f, t.stg = some ⟨1, byteAt d (u.udp + 25), be d (u.udp + 28) 4, [], some q, some f⟩) ∧
      t.fd Rg.IMG_STAGE_STATUS Fl.IMG_STAGE_STATUS_BUSY = 1 ∧ t.eye.stage = true ∧ t.sent = s.sent)

/-! ## Ports (R81 to R127, R402) -/

/-- An Ethernet link comes up and goes down. Signal detect on an enabled port whose link is down starts adaptation where it is enabled; 8 ms
later the results freeze; without lock it restarts, and says how often; lock is shown in ETH_STATUS; lock held brings the link up with
its interrupt and event; lock under another FEC does not come; a loss of what the port has takes the link down, counts it, abandons the frame on the wire and
ends the frame in reception as broken; lock lost before the link is up leaves the signal and its adaptation as they are.
Where the manual leaves a point open it is the model's choice (log entry 133). -/
def Obligations.EthernetLinkFollowsLock : Prop :=
  (∀ (l : Nat) (p : Fin 24) (s : State), s.serdesOn = true → s.ethOn p.val = true → s.linkUp p.val = false → (s.ethP p.val).signalAt = none →
    completes (.signalDetect l p) s fun t =>
      (t.ethP p.val).signalAt = some t.raw ∧ (t.ethP p.val).adapting = s.adapts p.val ∧
      t.flag (Rg.ETH_STATUS p.val) Fl.ETH_STATUS_ADAPTING = s.adapts p.val ∧ sameMemories s t) ∧
  (∀ (p : Fin 24) (ctle : BitVec 5) (dfe1 : BitVec 6) (r : Nat) (s : State), (s.ethP p.val).signalAt = some r → (s.ethP p.val).adapting = true →
    completes (.adaptFreeze p ctle dfe1) s fun t =>
      (t.ethP p.val).adapting = false ∧ t.fd (Rg.ETH_STATUS p.val) Fl.ETH_STATUS_ADAPTING = 0 ∧
      t.fd (Rg.ETH_ADAPT_RESULT p.val) Fl.ETH_ADAPT_RESULT_CTLE = ctle.toNat ∧
      t.fd (Rg.ETH_ADAPT_RESULT p.val) Fl.ETH_ADAPT_RESULT_DFE1 = dfe1.toNat ∧
      t.fd (Rg.ETH_ADAPT_RESULT p.val) Fl.ETH_ADAPT_RESULT_RUNS = (s.fd (Rg.ETH_ADAPT_RESULT p.val) Fl.ETH_ADAPT_RESULT_RUNS + 1) % 65536 ∧
      sameMemories s t) ∧
  (∀ (p : Fin 24) (r : Nat) (s : State), (s.ethP p.val).signalAt = some r → s.adapts p.val = true →
    (s.ethP p.val).lockAt = none → evRoom s 8 →
    completes (.adaptRetry p) s fun t =>
      (t.ethP p.val).retries = (s.ethP p.val).retries + 1 ∧ t.fd (Rg.ETH_STATUS p.val) Fl.ETH_STATUS_ADAPTING = 1 ∧
      raised t 0x0406 p.val (((s.ethP p.val).retries + 1) % 256) ∧ sameMemories s t) ∧
  (∀ (l : Nat) (p : Fin 24) (fec : BitVec 2) (s : State), (s.ethP p.val).signalAt.isSome = true → (s.ethP p.val).lockAt = none →
    fec.toNat = s.fd (Rg.ETH_CFG p.val) Fl.ETH_CFG_FEC →
    completes (.pcsLockAcquired l ⟨p, fec⟩) s fun t =>
      t.fd (Rg.ETH_STATUS p.val) Fl.ETH_STATUS_PCS_LOCK = 1 ∧ t.fd (Rg.ETH_STATUS p.val) Fl.ETH_STATUS_HI_BER = 0 ∧
      (t.fd (Rg.ETH_STATUS p.val) Fl.ETH_STATUS_AM_LOCK = 1 ↔ s.fd (Rg.ETH_CFG p.val) Fl.ETH_CFG_FEC = 2) ∧ (t.ethP p.val).lockAt = some t.raw) ∧
  (∀ (l : Nat) (p : Fin 24) (fec : BitVec 2) (s : State), fec.toNat ≠ s.fd (Rg.ETH_CFG p.val) Fl.ETH_CFG_FEC →
    completes (.pcsLockAcquired l ⟨p, fec⟩) s fun t => t = s.advance l) ∧
  (∀ (p : Fin 24) (r : Nat) (s : State), (s.ethP p.val).lockAt = some r → s.linkUp p.val = false → (s.ethP p.val).adapting = false →
    s.fd (Rg.ETH_STATUS p.val) Fl.ETH_STATUS_HI_BER = 0 → evRoom s 8 →
    completes (.ethLinkUp p) s fun t =>
      t.linkUp p.val = true ∧ t.bit (Rg.ETH_INT_STATUS p.val) 0 = true ∧
      raised t 0x0401 p.val (s.rd (Rg.ETH_ADAPT_RESULT p.val) % 65536) ∧ sameMemories s t) ∧
  (∀ (l : Nat) (p : Fin 24) (c : LinkCause) (rx : Option Bytes) (s : State), s.linkUp p.val = true → s.causeFits p.val c = true → evRoom s 8 →
    completes (.ethLinkDown l p ⟨c, rx⟩) s fun t =>
      t.linkUp p.val = false ∧ (∀ x ∈ t.sending, x.port ≠ p.val) ∧ counted s t (Rg.ETH_LINK_DOWNS p.val) ∧
      t.bit (Rg.ETH_INT_STATUS p.val) 0 = true ∧ raised t 0x0402 p.val (linkCauseCode c) ∧
      (s.forwarding = true → rx.isSome = true → counted s t (Rg.ETH_CNT p.val 18)) ∧ sameMemories s t) ∧
  (∀ (l : Nat) (p : Fin 24) (c : LinkCause) (s : State), s.linkUp p.val = false → s.causeFits p.val c = true →
    completes (.ethLinkDown l p ⟨c, none⟩) s fun t =>
      (t.ethP p.val).lockAt = none ∧ (t.ethP p.val).signalAt = (s.ethP p.val).signalAt ∧
      (t.ethP p.val).adapting = (s.ethP p.val).adapting ∧ t.linkUp p.val = false ∧
      t.fd (Rg.ETH_STATUS p.val) Fl.ETH_STATUS_ADAPTING = s.fd (Rg.ETH_STATUS p.val) Fl.ETH_STATUS_ADAPTING ∧
      t.rd (Rg.ETH_LINK_DOWNS p.val) = s.rd (Rg.ETH_LINK_DOWNS p.val) ∧ sameMemories s t) ∧
  (∀ (l : Nat) (p : Fin 24) (c : LinkCause) (rx : Option Bytes) (s : State), s.causeFits p.val c = false →
    completes (.ethLinkDown l p ⟨c, rx⟩) s fun t => t = s.advance l)

/-- Ethernet reception on a forwarding part. A good frame that no filter matches, on a port without MACsec, is counted and goes to the
parser with its bytes, its port and its default class; a runt is counted and goes nowhere; a port whose link is down takes nothing. A
PAUSE frame gives the port a pause of its quanta, and a PFC frame each class it names; neither reaches the parser. -/
def Obligations.EthernetReceives : Prop :=
  (∀ (l : Nat) (p : Fin 24) (rx : RxFrame) (s : State), s.forwarding = true → s.linkUp p.val = true → s.msecOn p.val = false →
    clean s → badCounter (rx.data.length + 4) (s.maxFrame p.val) (s.afterFec p.val rx) = none → be rx.data 12 2 ≠ 0x8808 →
    (∀ f < 32, s.fd (Rg.ETH_STEER_ACT p.val f) Fl.ETH_STEER_ACT_VALID = 0) →
    completes (.ethFrameReceive l p rx) s fun t =>
      (∃ fr, t.rxQ = s.rxQ ++ [fr] ∧ fr.data = rx.data ∧ fr.src = p.val ∧ fr.cls = s.defaultClass p.val rx.data ∧ fr.stomp = false) ∧
      counted s t (Rg.ETH_CNT p.val 1) ∧ counted s t (Rg.ETH_CNT p.val 0) (rx.data.length + 4) ∧ sameMemories s t) ∧
  (∀ (l : Nat) (p : Fin 24) (rx : RxFrame) (s : State), s.forwarding = true → s.linkUp p.val = true → s.msecOn p.val = false →
    rx.data.length < 60 →
    completes (.ethFrameReceive l p rx) s fun t =>
      t.rxQ = s.rxQ ∧ t.admQ = s.admQ ∧ counted s t (Rg.ETH_CNT p.val 15) ∧ sameMemories s t) ∧
  (∀ (l : Nat) (p : Fin 24) (rx : RxFrame) (s : State), s.linkUp p.val = false →
    completes (.ethFrameReceive l p rx) s fun t => t = s.advance l) ∧
  (∀ (l : Nat) (p : Fin 24) (q : BitVec 16) (s : State), s.forwarding = true → s.linkUp p.val = true → 64 ≤ s.maxFrame p.val →
    clean s → s.msecOos p.val = false → s.flag (Rg.ETH_FC_CFG p.val) Fl.ETH_FC_CFG_PAUSE_EN = true →
    completes (.pauseReceive l p q) s fun t =>
      sget (t.ethP p.val).pauseEnd 8 0 = (if q = 0 then 0 else t.raw + s.pauseNs p.val q.toNat) ∧ t.rxQ = s.rxQ ∧
      counted s t (Rg.ETH_CNT p.val 12) ∧ sameMemories s t) ∧
  (∀ (l : Nat) (p : Fin 24) (en : BitVec 8) (qs : List (BitVec 16)) (n : Nat) (s : State), s.forwarding = true → s.linkUp p.val = true →
    64 ≤ s.maxFrame p.val → clean s → s.msecOos p.val = false → qs.length = 8 → n < 8 →
    completes (.pfcReceive l p en qs) s fun t =>
      sget (t.ethP p.val).pauseEnd n 0 =
        (if en.getLsbD n ∧ s.bit (Rg.ETH_FC_CFG p.val) (8 + n) then (if qs.getD n 0 = 0 then 0 else t.raw + s.pauseNs p.val (qs.getD n 0).toNat)
         else sget (s.ethP p.val).pauseEnd n 0) ∧
      t.rxQ = s.rxQ ∧ counted s t (Rg.ETH_CNT p.val 13))

/-- Pause timers, the transmitter, MDIO. A timer that runs out holds nothing; a port or class whose watchdog count reaches its limit
ignores pause, with its event, until that period ends. A cut-through frame whose transmitter runs dry leaves stomped, with the
bytes sent so far, at least those in hand at its start and the four of its FCS among them, and CURRENT rises by 64 up to its limit. An MDIO read waits with BUSY set, and its end brings the data.
Where the manual leaves a point open it is the model's choice (log entries 59 and 134). -/
def Obligations.PauseUnderrunMdio : Prop :=
  (∀ (p : Fin 24) (c : Option (Fin 8)) (s : State), sget (s.ethP p.val).pauseEnd (pauseKey c) 0 ≠ 0 →
    completes (.pauseExpiry p c) s fun t =>
      sget (t.ethP p.val).pauseEnd (pauseKey c) 0 = 0 ∧ t.pauseRuns p.val (pauseKey c) = false ∧
      (∀ k, k ≠ pauseKey c → sget (t.ethP p.val).pauseEnd k 0 = sget (s.ethP p.val).pauseEnd k 0) ∧ sameMemories s t) ∧
  (∀ (p : Fin 24) (c : Option (Fin 8)) (s : State), 0 < s.fd (Rg.ETH_PAUSE_WDOG p.val) Fl.ETH_PAUSE_WDOG_HOOPS →
    s.fd (Rg.ETH_PAUSE_WDOG p.val) Fl.ETH_PAUSE_WDOG_HOOPS ≤ sget (s.ethP p.val).wdogCnt (pauseKey c) 0 →
    s.pauseIgnored p.val (pauseKey c) = false → evRoom s 8 →
    completes (.pauseWdogTrip p c) s fun t =>
      t.pauseIgnored p.val (pauseKey c) = true ∧ sget (t.ethP p.val).wdogCnt (pauseKey c) 0 = 0 ∧ raised t 0x0404 p.val (pauseKey c) ∧
      counted s t (Rg.ETH_CNT p.val 35) ∧ sameMemories s t) ∧
  (∀ (p : Fin 24) (c : Option (Fin 8)) (s : State), sget (s.ethP p.val).ignLeft (pauseKey c) 0 = 1 →
    completes (.pauseIgnoreEnd p c) s fun t =>
      t.pauseIgnored p.val (pauseKey c) = false ∧ sget (t.ethP p.val).wdogCnt (pauseKey c) 0 = 0 ∧ t.regs = s.regs ∧ sameMemories s t) ∧
  (∀ (l : Nat) (p : Fin 24) (x : Sending) (s : State), s.sending = [x] → x.port = p.val → x.copy.ct = true → x.dead = false →
    x.thresh < x.slen → (s.advance l).gone p.val x < x.slen → s.maxFrame p.val ≤ 9216 →
    completes (.txUnderrun l p) s fun t =>
      (∃ b, t.sent = s.sent ++ [⟨p.val, b, true, fcsOf b true⟩] ∧ b <+: x.bytes ++ fcsOf x.bytes x.stomp ∧
        Nat.min x.thresh (x.bytes.length + 4) ≤ b.length) ∧ t.sending = [] ∧ counted s t (Rg.ETH_CNT p.val 34) ∧
      t.fd (Rg.ETH_TX_THRESH p.val) Fl.ETH_TX_THRESH_CURRENT =
        (let cur := s.fd (Rg.ETH_TX_THRESH p.val) Fl.ETH_TX_THRESH_CURRENT
         if cdiv (s.maxFrame p.val) 64 * 64 ≤ cur then cur else Nat.min (cdiv (s.maxFrame p.val) 64 * 64) (cur + 64)) ∧ sameMemories s t) ∧
  (∀ (l : Nat) (p : Fin 24) (v : Word) (s : State), s.coresRun = true → v.getLsbD 31 = true →
    s.fd (Rg.ETH_MDIO_DATA p.val) Fl.ETH_MDIO_DATA_BUSY = 0 →
    completes (.mdioRead l p v) s fun t =>
      t.mdioQ = s.mdioQ ++ [p.val] ∧ t.fd (Rg.ETH_MDIO_DATA p.val) Fl.ETH_MDIO_DATA_BUSY = 1 ∧
      t.rd (Rg.ETH_MDIO_CMD p.val) = v.toNat % 2 ^ 21 ∧ sameMemories s t) ∧
  (∀ (l : Nat) (p : Fin 24) (v : BitVec 16) (q : List Nat) (s : State), s.mdioQ = p.val :: q →
    completes (.mdioReadDone l p v) s fun t =>
      t.mdioQ = q ∧ t.fd (Rg.ETH_MDIO_DATA p.val) Fl.ETH_MDIO_DATA_DATA = v.toNat ∧
      t.fd (Rg.ETH_MDIO_DATA p.val) Fl.ETH_MDIO_DATA_BUSY = 0 ∧ t.fd (Rg.ETH_MDIO_DATA p.val) Fl.ETH_MDIO_DATA_DONE = 1 ∧ sameMemories s t)

/-- CAN reception. Every message of an enabled format is counted, and its first filter decides: one for the datapath goes to the parser as
header and data; one for the management FIFO joins it; one for a priority buffer that is not read-locked fills it and sets NEW; one that no
filter matches is counted and dropped. One of a format not enabled puts the controller into the protocol exception, which bus idle ends; in
bus-off each idle occurrence raises REC by 1 up to 128.
Where the manual leaves a point open it is the model's choice (log entry 64). -/
def Obligations.CanReceives : Prop :=
  (∀ (l : Nat) (n : Fin 16) (m : CanMsg) (f : Nat) (s : State), s.coresRun = true → s.canMode (32 + n.val) ≠ 0 → s.busOff (32 + n.val) = false →
    (s.canP (32 + n.val)).excState = false → s.fmtOn (32 + n.val) m.fmt = true →
    f < 128 → (∀ g < f, s.canHit (32 + n.val) m g = false) → s.canHit (32 + n.val) m f = true →
    (s.fd (Rg.CAN_FILT_ACT (32 + n.val) f) Fl.CAN_FILT_ACT_TARGET = 0 → s.pwr.fwd = true →
      completes (.canMessageReceive l n m) s fun t =>
        (∃ fr, t.rxQ = s.rxQ ++ [fr] ∧ fr.data = canHeader m f ++ canData m ∧ fr.isCan = true ∧ fr.src = 32 + n.val ∧
          fr.cls = s.fd (Rg.CAN_FILT_ACT (32 + n.val) f) Fl.CAN_FILT_ACT_CLASS) ∧ counted s t (Rg.CAN_CNT (32 + n.val) 0) ∧ sameMemories s t) ∧
    (s.fd (Rg.CAN_FILT_ACT (32 + n.val) f) Fl.CAN_FILT_ACT_TARGET = 1 → (canData m).length ≤ 64 →
      (s.canP (32 + n.val)).mfifo.length < 64 →
      completes (.canMessageReceive l n m) s fun t =>
        (t.canP (32 + n.val)).mfifo = (s.canP (32 + n.val)).mfifo ++ [canImage m f] ∧ t.rxQ = s.rxQ ∧
        counted s t (Rg.CAN_CNT (32 + n.val) 0) ∧ sameMemories s t) ∧
    (∀ k < 4, s.fd (Rg.CAN_FILT_ACT (32 + n.val) f) Fl.CAN_FILT_ACT_TARGET = 2 + k → (canData m).length ≤ 64 →
      s.fd (Rg.CAN_PRIO_CTRL (32 + n.val) k) Fl.CAN_PRIO_CTRL_READ_LOCK = 0 →
      completes (.canMessageReceive l n m) s fun t =>
        t.rdBytes (Rg.CAN_PRIO_BUF (32 + n.val) k) 20 = canImage m f ∧ t.fd (Rg.CAN_PRIO_CTRL (32 + n.val) k) Fl.CAN_PRIO_CTRL_NEW = 1 ∧
        t.rxQ = s.rxQ ∧ counted s t (Rg.CAN_CNT (32 + n.val) 0) ∧ sameMemories s t)) ∧
  (∀ (l : Nat) (n : Fin 16) (m : CanMsg) (s : State), s.coresRun = true → s.canMode (32 + n.val) ≠ 0 → s.busOff (32 + n.val) = false →
    (s.canP (32 + n.val)).excState = false → s.fmtOn (32 + n.val) m.fmt = true → (∀ g < 128, s.canHit (32 + n.val) m g = false) →
      completes (.canMessageReceive l n m) s fun t =>
        counted s t (Rg.CAN_CNT (32 + n.val) 5) ∧ counted s t (Rg.CAN_CNT (32 + n.val) 0) ∧ t.rxQ = s.rxQ ∧
        (t.canP (32 + n.val)).mfifo = (s.canP (32 + n.val)).mfifo ∧ sameMemories s t) ∧
  (∀ (l : Nat) (n : Fin 16) (f : CanFmt) (s : State), s.canPowered = true → s.canMode (32 + n.val) ≠ 0 → s.busOff (32 + n.val) = false →
    (s.canP (32 + n.val)).excState = false → s.fmtOn (32 + n.val) f = false →
    completes (.canProtocolException l n f) s fun t =>
      (t.canP (32 + n.val)).excState = true ∧ t.fd (Rg.CAN_STATUS (32 + n.val)) Fl.CAN_STATUS_IDLE = 0 ∧
      counted s t (Rg.CAN_CNT (32 + n.val) 27) ∧ sameMemories s t) ∧
  (∀ (l : Nat) (n : Fin 16) (s : State), s.canPowered = true → s.canMode (32 + n.val) ≠ 0 →
    completes (.canBusIdle l n) s fun t =>
      (t.canP (32 + n.val)).excState = false ∧ t.fd (Rg.CAN_STATUS (32 + n.val)) Fl.CAN_STATUS_IDLE = 1 ∧
      t.recCnt (32 + n.val) = (if s.busOff (32 + n.val) then Nat.min 128 (s.recCnt (32 + n.val) + 1) else s.recCnt (32 + n.val)) ∧
      sameMemories s t)

/-- Management buffers and priority buffers of a CAN controller: a pop removes the oldest message, and one that came in
the same cycle takes the place; the read of word 0 takes the lock and
brings the word; a release frees the lock, and puts a full shadow in the buffer with NEW set, or clears NEW but for a message of the same cycle; a load of a sound image
leaves it PENDING as it is to be sent; a cancellation of a PENDING one makes it CANCELLED, and is counted with the end of the cycle; one of an ACTIVE one is held.
Where the manual leaves a point open it is the model's choice (log entry 67). -/
def Obligations.CanBuffers : Prop :=
  (∀ (n : Fin 16) (v : Word) (s : State), s.coresRun = true → v.getLsbD 0 = true →
    ((∀ w ∈ s.cyc.mfWait, w.1 ≠ n) →
      completes (.canMfifoPop n v) s fun t =>
        (t.canP (32 + n.val)).mfifo = (s.canP (32 + n.val)).mfifo.tail ∧ t.regs = s.regs ∧ sameMemories s t) ∧
    (∀ (f : Nat) (img : Bytes), s.cyc.mfWait = [(n, f, img)] → (s.canP (32 + n.val)).mfifo.length = 64 →
      completes (.canMfifoPop n v) s fun t =>
        (t.canP (32 + n.val)).mfifo = (s.canP (32 + n.val)).mfifo.tail ++ [img] ∧ t.cyc.mfWait = [] ∧ t.regs = s.regs ∧ sameMemories s t)) ∧
  (∀ (n : Fin 16) (k : Fin 4) (s : State), s.coresRun = true →
    completes (.prioBufRead n k) s fun t =>
      t.fd (Rg.CAN_PRIO_CTRL (32 + n.val) k.val) Fl.CAN_PRIO_CTRL_READ_LOCK = 1 ∧
      t.readPort = ⟨s.rdw (Rg.CAN_PRIO_BUF (32 + n.val) k.val), false⟩ ∧
      sameRegs (· = (Rg.CAN_PRIO_CTRL (32 + n.val) k.val).addr) s t ∧ sameMemories s t) ∧
  (∀ (n : Fin 16) (k : Fin 4) (v : Word) (s : State), s.coresRun = true → v.getLsbD 3 = true →
    s.fd (Rg.CAN_PRIO_CTRL (32 + n.val) k.val) Fl.CAN_PRIO_CTRL_SHADOW_FULL = 0 →
    completes (.prioRelease n k v) s fun t =>
      t.fd (Rg.CAN_PRIO_CTRL (32 + n.val) k.val) Fl.CAN_PRIO_CTRL_READ_LOCK = 0 ∧
      t.fd (Rg.CAN_PRIO_CTRL (32 + n.val) k.val) Fl.CAN_PRIO_CTRL_NEW =
        (if (n, k) ∈ s.cyc.prioIn then s.fd (Rg.CAN_PRIO_CTRL (32 + n.val) k.val) Fl.CAN_PRIO_CTRL_NEW else 0) ∧
      sameRegs (· = (Rg.CAN_PRIO_CTRL (32 + n.val) k.val).addr) s t) ∧
  (∀ (n : Fin 16) (k : Fin 4) (v : Word) (s : State), s.coresRun = true → v.getLsbD 3 = true →
    s.fd (Rg.CAN_PRIO_CTRL (32 + n.val) k.val) Fl.CAN_PRIO_CTRL_SHADOW_FULL = 1 → (sget (s.canP (32 + n.val)).shadow k.val []).length = 80 →
    completes (.prioRelease n k v) s fun t =>
      t.rdBytes (Rg.CAN_PRIO_BUF (32 + n.val) k.val) 20 = sget (s.canP (32 + n.val)).shadow k.val [] ∧
      t.fd (Rg.CAN_PRIO_CTRL (32 + n.val) k.val) Fl.CAN_PRIO_CTRL_READ_LOCK = 0 ∧
      t.fd (Rg.CAN_PRIO_CTRL (32 + n.val) k.val) Fl.CAN_PRIO_CTRL_NEW = 1 ∧
      t.fd (Rg.CAN_PRIO_CTRL (32 + n.val) k.val) Fl.CAN_PRIO_CTRL_SHADOW_FULL = 0) ∧
  (∀ (l : Nat) (n b : Fin 16) (s : State), s.coresRun = true → s.canMode (32 + n.val) = 1 → s.mtxState (32 + n.val) b.val ≠ 1 →
    s.mtxState (32 + n.val) b.val ≠ 2 →
    s.canRefusal (32 + n.val) ((s.rdBytes (Rg.CAN_MTX_STAGE (32 + n.val)) 20).take (16 + be (s.rdBytes (Rg.CAN_MTX_STAGE (32 + n.val)) 20) 12 2)) = none →
    completes (.canMtxLoad l n b) s fun t =>
      t.mtxState (32 + n.val) b.val = 1 ∧
      sget (t.canP (32 + n.val)).mtx b.val [] = s.canAsSent (32 + n.val)
        ((s.rdBytes (Rg.CAN_MTX_STAGE (32 + n.val)) 20).take (16 + be (s.rdBytes (Rg.CAN_MTX_STAGE (32 + n.val)) 20) 12 2)) ∧ sameMemories s t) ∧
  (∀ (l : Nat) (n b : Fin 16) (s : State), s.coresRun = true → s.mtxState (32 + n.val) b.val = 1 →
    completes (.canMtxCancel l n b) s fun t =>
      t.mtxState (32 + n.val) b.val = 4 ∧ (t.cyc.cancels = [(n, b)] → counted t t.cycleEnd (Rg.CAN_CNT (32 + n.val) 11)) ∧ sameMemories s t) ∧
  (∀ (l : Nat) (n b : Fin 16) (s : State), s.coresRun = true → s.mtxState (32 + n.val) b.val = 2 →
    completes (.canMtxCancel l n b) s fun t =>
      t.mtxState (32 + n.val) b.val = 2 ∧ t.fd (Rg.CAN_MTX_STATUS (32 + n.val) b.val) Fl.CAN_MTX_STATUS_CANCEL_HELD = 1 ∧ sameMemories s t)

/-- CAN sending. The head of a queue leaves it for the empty buffer of its class as it is to be sent; the winner of the offered messages
begins, and the bus is no longer idle; a lost arbitration is counted and leaves the message loaded; a completed message has left the
part, is counted, and its buffer is empty; one whose window closes under the drop policy is dropped and counted.
Where the manual leaves a point open it is the model's choice (log entry 67). -/
def Obligations.CanSends : Prop :=
  (∀ (l : Nat) (n : Fin 16) (c : Fin 8) (f : Frame) (s : State), s.egressOn = true → s.canMode (32 + n.val) = 1 →
    s.busOff (32 + n.val) = false → (s.canP (32 + n.val)).txb = [] → s.shOn (32 + n.val) c.val = false →
    s.headOf (32 + n.val) c.val = some f → f.launchV = false → f.rewrite = 0 → f.hopAt = 0 → clean s → s.canRefusal (32 + n.val) f.data = none →
    completes (.canTxbufLoad l n c) s fun t =>
      t.outQ = s.outQ.erase f ∧
      (∃ g, (t.canP (32 + n.val)).txb = [(c.val, ⟨g, false, false⟩)] ∧ g.data = s.canAsSent (32 + n.val) f.data) ∧ sameMemories s t) ∧
  (∀ (l : Nat) (n : Fin 16) (k : Nat) (s : State), s.coresRun = true → s.canMode (32 + n.val) = 1 → s.busOff (32 + n.val) = false →
    (s.canP (32 + n.val)).excState = false → (s.canP (32 + n.val)).active = none →
    firstOffer ((s.advance l).onOffer (32 + n.val)) = some k →
    completes (.canTxCommit l n) s fun t =>
      (t.canP (32 + n.val)).active = some k ∧ t.fd (Rg.CAN_STATUS (32 + n.val)) Fl.CAN_STATUS_IDLE = 0 ∧
      (8 ≤ k → t.mtxState (32 + n.val) (k - 8) = 2) ∧ t.sent = s.sent ∧ sameMemories s t) ∧
  (∀ (l : Nat) (n : Fin 16) (k : Nat) (s : State), (s.canP (32 + n.val)).active = some k → k < 24 → s.cancelHeld (32 + n.val) k = false →
    completes (.canArbLost l n) s fun t =>
      (t.canP (32 + n.val)).active = none ∧ (t.canP (32 + n.val)).txb = (s.canP (32 + n.val)).txb ∧
      (8 ≤ k → t.mtxState (32 + n.val) (k - 8) = 1) ∧ counted s t (Rg.CAN_CNT (32 + n.val) 19) ∧ sameMemories s t) ∧
  (∀ (l : Nat) (n : Fin 16) (k : Nat) (b : CanTx) (s : State), (s.canP (32 + n.val)).active = some k → k < 8 →
    (s.canP (32 + n.val)).txb = [(k, b)] →
    completes (.canTxComplete l n) s fun t =>
      t.sent = s.sent ++ [⟨32 + n.val, b.copy.data, false, []⟩] ∧ (t.canP (32 + n.val)).active = none ∧ (t.canP (32 + n.val)).txb = [] ∧
      counted s t (Rg.CAN_CNT (32 + n.val) 9) ∧ sameMemories s t) ∧
  (∀ (n : Fin 16) (c : Fin 8) (b : CanTx) (s : State), (s.canP (32 + n.val)).txb = [(c.val, b)] → b.copy.launchV = true → b.copy.lateDone = false → b.cancel = false →
    b.copy.brg = 0 → s.fd (Rg.EGR_LAUNCH (32 + n.val)) Fl.EGR_LAUNCH_POLICY = 0 → (s.canP (32 + n.val)).active = none →
    completes (.canTxWindowExpire n c) s fun t =>
      (t.canP (32 + n.val)).txb = [] ∧ counted s t (Rg.CAN_CNT (32 + n.val) 13) ∧ t.sent = s.sent ∧ sameMemories s t)

/-- CAN errors and bus-off. An error met while receiving is counted by its kind and raises REC by 1, and by 8 more when a dominant
bit follows its flag, or by 8 in the flag itself; a transmitter whose TEC passes 255 enters bus-off: its buffers are empty and TEC reads 255; firmware starts the recovery, outside
bus-off its write is ignored and reported; when 128 idle
periods have come both counters read 0 and its event comes.
Where the manual leaves a point open it is the model's choice (log entries 64 and 65). -/
def Obligations.CanErrorsAndBusOff : Prop :=
  (∀ (l : Nat) (n : Fin 16) (k : CanErr) (at_ : CanErrAt) (ed dom : Bool) (s : State), s.coresRun = true → s.canMode (32 + n.val) = 1 →
    s.busOff (32 + n.val) = false → (s.canP (32 + n.val)).excState = false →
    completes (.canError l n ⟨k, at_, ed⟩ false dom) s fun t =>
      t.recCnt (32 + n.val) =
        Nat.min (s.recCnt (32 + n.val) + (if at_ = .flag ∨ at_ = .dominantRun then 8 else 1 + (if dom then 8 else 0))) 255 ∧
      t.tecCnt (32 + n.val) = s.tecCnt (32 + n.val) ∧
      (at_ ≠ .dominantRun → counted s t (Rg.CAN_CNT (32 + n.val) (20 + errCode k))) ∧ t.fd (Rg.CAN_STATUS (32 + n.val)) Fl.CAN_STATUS_IDLE = 0 ∧ sameMemories s t) ∧
  (∀ (l : Nat) (n : Fin 16) (k : CanErr) (at_ : CanErrAt) (ed dom : Bool) (b : Nat) (s : State), s.coresRun = true → s.canMode (32 + n.val) = 1 →
    s.busOff (32 + n.val) = false → (s.canP (32 + n.val)).excState = false → (s.canP (32 + n.val)).active = some b → b < 24 → k ≠ .ack →
    (k = .stuff → at_ ≠ .arbitration) → 247 < s.tecCnt (32 + n.val) →
    completes (.canError l n ⟨k, at_, ed⟩ true dom) s fun t =>
      t.busOff (32 + n.val) = true ∧ t.tecCnt (32 + n.val) = 255 ∧ t.recCnt (32 + n.val) = 0 ∧ (t.canP (32 + n.val)).txb = [] ∧
      (∀ m < 16, t.mtxState (32 + n.val) m ≠ 1 ∧ t.mtxState (32 + n.val) m ≠ 2)) ∧
  (∀ (l : Nat) (n : Fin 16) (v : Word) (s : State), s.coresRun = true → v.getLsbD 0 = true → s.canState (32 + n.val) = 2 →
    completes (.canRecover l n v) s fun t => t.canState (32 + n.val) = 3 ∧ sameMemories s t) ∧
  (∀ (l : Nat) (n : Fin 16) (v : Word) (s : State), s.coresRun = true → v.getLsbD 0 = true → s.canState (32 + n.val) < 2 → evRoom s 8 →
    completes (.canRecover l n v) s fun t =>
      t.canState (32 + n.val) = s.canState (32 + n.val) ∧ raised t 0x0110 noPort ((Rg.CAN_RECOVER (32 + n.val)).addr * 2 ^ 32 + v.toNat)) ∧
  (∀ (l : Nat) (n : Fin 16) (s : State), s.canState (32 + n.val) = 3 → (s.canP (32 + n.val)).recov = 128 → evRoom s 8 →
    completes (.canBusRecovered l n) s fun t =>
      t.canState (32 + n.val) = 0 ∧ t.tecCnt (32 + n.val) = 0 ∧ t.recCnt (32 + n.val) = 0 ∧ t.bit (Rg.CAN_INT_STATUS (32 + n.val)) 2 = true ∧
      raised t 0x0503 (32 + n.val) 0 ∧ sameMemories s t)

/-- 10BASE-T1S. A good frame of a declared member goes to the parser; a stranger's is counted, and under STRANGER_ACT 0 dropped; a bad one
is counted under what it met, and goes nowhere. A follower without BEACONs falls back to CSMA/CD and returns with its events. A collision under PLCA is counted and
reported; one in CSMA/CD is counted, and at the sixteenth attempt the frame is abandoned. At its opportunity a port sends its frame, or again
the frame that met a collision.
Where the manual leaves a point open it is the model's choice (log entries 68, 69 and 135). -/
def Obligations.T1sPorts : Prop :=
  (∀ (l : Nat) (n : Fin 8) (rx : RxFrame) (s : State), s.forwarding = true → s.t1sOn (24 + n.val) = true → clean s →
    badCounter (rx.data.length + 4) (s.maxFrame (24 + n.val)) rx = none →
    (s.t1sMember (24 + n.val) (be rx.data 6 6) = true →
      completes (.t1sFrameReceive l n rx) s fun t =>
        (∃ fr, t.rxQ = s.rxQ ++ [fr] ∧ fr.data = rx.data ∧ fr.src = 24 + n.val ∧ fr.cls = s.t1sClass (24 + n.val) rx.data) ∧
        counted s t (Rg.T1S_CNT (24 + n.val) 1) ∧ sameMemories s t) ∧
    (s.t1sMember (24 + n.val) (be rx.data 6 6) = false →
      s.fd (Rg.T1S_MEMBER_CFG (24 + n.val)) Fl.T1S_MEMBER_CFG_STRANGER_ACT = 0 →
      completes (.t1sFrameReceive l n rx) s fun t =>
        t.rxQ = s.rxQ ∧ t.admQ = s.admQ ∧ counted s t (Rg.T1S_CNT (24 + n.val) 8) ∧ sameMemories s t)) ∧
  (∀ (l : Nat) (n : Fin 8) (rx : RxFrame) (c : Nat) (s : State), s.forwarding = true → s.t1sOn (24 + n.val) = true → clean s →
    badCounter (rx.data.length + 4) (s.maxFrame (24 + n.val)) rx = some c →
    completes (.t1sFrameReceive l n rx) s fun t =>
      t.rxQ = s.rxQ ∧ t.admQ = s.admQ ∧
      counted s t (Rg.T1S_CNT (24 + n.val) (if c = 14 then 2 else if c = 15 then 3 else if c = 18 then 5 else 4)) ∧ sameMemories s t) ∧
  (∀ (l : Nat) (n : Fin 8) (s : State), s.t1sLive (24 + n.val) = true → s.t1sCoord (24 + n.val) = false → s.t1sFallen (24 + n.val) = false →
    evRoom s 8 →
    completes (.t1sPlcaFallback l n) s fun t =>
      t.t1sFallen (24 + n.val) = true ∧ t.fd (Rg.T1S_STATUS (24 + n.val)) Fl.T1S_STATUS_PLCA_ACTIVE = 0 ∧
      counted s t (Rg.T1S_CNT (24 + n.val) 12) ∧ raised t 0x0507 (24 + n.val) 0 ∧ sameMemories s t) ∧
  (∀ (l : Nat) (n : Fin 8) (s : State), s.t1sLive (24 + n.val) = true → s.t1sFallen (24 + n.val) = true → evRoom s 8 →
    completes (.t1sPlcaRestored l n) s fun t =>
      t.t1sFallen (24 + n.val) = false ∧ t.fd (Rg.T1S_STATUS (24 + n.val)) Fl.T1S_STATUS_PLCA_ACTIVE = 1 ∧
      raised t 0x0508 (24 + n.val) 0 ∧ sameMemories s t) ∧
  (∀ (l : Nat) (n : Fin 8) (s : State), s.t1sLive (24 + n.val) = true → s.t1sFallen (24 + n.val) = false → evRoom s 8 →
    completes (.t1sPlcaCollision l n) s fun t =>
      (∀ x ∈ t.sending, x.port = 24 + n.val → x.dead = true) ∧ counted s t (Rg.T1S_CNT (24 + n.val) 9) ∧
      raised t 0x0506 (24 + n.val) (s.fd (Rg.T1S_CFG (24 + n.val)) Fl.T1S_CFG_NODE_ID) ∧ sameMemories s t) ∧
  (∀ (l : Nat) (n : Fin 8) (x : Sending) (s : State), s.t1sLive (24 + n.val) = true → s.t1sFallen (24 + n.val) = true → s.sending = [x] →
    x.port = 24 + n.val →
    ((s.t1sP (24 + n.val)).attempts < 15 →
      completes (.csmaCollision l n) s fun t =>
        t.sending = [{ x with dead := true }] ∧ (t.t1sP (24 + n.val)).attempts = (s.t1sP (24 + n.val)).attempts + 1 ∧
        counted s t (Rg.T1S_CNT (24 + n.val) 10) ∧ sameMemories s t) ∧
    ((s.t1sP (24 + n.val)).attempts = 15 →
      completes (.csmaCollision l n) s fun t =>
        t.sending = [] ∧ (t.t1sP (24 + n.val)).attempts = 0 ∧ counted s t (Rg.T1S_CNT (24 + n.val) 11) ∧ sameMemories s t)) ∧
  (∀ (l : Nat) (n : Fin 8) (f : Frame) (s : State), s.forwarding = true → s.t1sOn (24 + n.val) = true → s.t1sFallen (24 + n.val) = false →
    s.busy (24 + n.val) = false → (s.t1sP (24 + n.val)).retry = none → clean s → s.outQ = [f] → f.egress = 24 + n.val → f.cls = 7 → s.akzorAt f.data = none → f.launchV = false → f.rewrite = 0 → f.hopAt = 0 →
    f.ct = false → f.tsCap = false → s.fd (Rg.EGR_GATE_CFG (24 + n.val)) Fl.EGR_GATE_CFG_LEN = 0 →
    (∀ k < 9, s.shOn (24 + n.val) k = false) → 1 ≤ s.fd (Rg.EGR_SCHED (24 + n.val)) Fl.EGR_SCHED_STRICT →
    (padded f.data).length + 4 ≤ s.maxFrame (24 + n.val) →
    completes (.t1sTxOpportunity l n) s fun t =>
      t.outQ = [] ∧ (∃ x, t.sending = s.sending ++ [x] ∧ x.port = 24 + n.val ∧ x.bytes = padded f.data ∧ x.copy = f) ∧ sameMemories s t) ∧
  (∀ (l : Nat) (n : Fin 8) (x : Sending) (s : State), s.forwarding = true → s.t1sOn (24 + n.val) = true → s.t1sFallen (24 + n.val) = false →
    s.busy (24 + n.val) = false → (s.t1sP (24 + n.val)).retry = some x → clean s →
    s.fd (Rg.EGR_GATE_CFG (24 + n.val)) Fl.EGR_GATE_CFG_LEN = 0 →
    completes (.t1sTxOpportunity l n) s fun t =>
      t.sending = s.sending ++ [{ x with started := t.raw }] ∧ (t.t1sP (24 + n.val)).retry = none ∧ t.outQ = s.outQ ∧ sameMemories s t)

/-! ## Parser, tables, ground (R129 to R200) -/

/-- FRAME_PARSE. The frame at the front, of a parse without exception whose profile enables no lookup, goes on by its port's default action
record: among the frames decided in its cycle, by group, to admission with the record's port and number and its bytes unchanged. A frame whose hop
count is 0 is counted and goes nowhere; one with an exception that the bank drops is counted under its deciding cause.
That PARSE_CNT[0] counts those frames too is the model's choice (log entry 137). -/
def Obligations.FramesAreParsed : Prop :=
  ∀ (f : Frame) (q : List Frame) (s : State), s.rxQ = f :: q → s.forwarding = true → s.prs.paused = false → f.stomp = false → f.src < 52 →
    sound s →
    let w := s.parse { f with bank := if f.bank = 0 then s.activeBank else f.bank } true
    let bank := if f.bank = 0 then s.activeBank else f.bank
    let i := s.fd (Rg.TBL_PORT_CFG f.src) Fl.TBL_PORT_CFG_DEFAULT_ACT
    let r := s.actRec i
    (w.hopZero = false → w.cause = none → s.eyeHit f.src f.data = none → f.pass = false →
      (s.keysOf bank w).flowEn = false → (s.keysOf bank w).fdbEn = false → (s.keysOf bank w).nodeEn = false →
      s.actLive i = true → bitOf (byteAt r 0) 7 = true → byteAt r 0 / 32 % 4 = 1 →
      completes .frameParse s fun t =>
        (∃ g, t.admQ = joinDecided g s.admQ ∧ g.decided = s.raw ∧ g.acted = true ∧ g.data = f.data ∧ g.src = f.src ∧ g.goKind = 0 ∧ g.goDest = be r 2 2 % 64 ∧ g.action = i ∧
          g.cls = (if bitOf (byteAt r 1) 7 then byteAt r 1 / 16 % 8 else f.cls)) ∧
        t.rxQ = q ∧ counted s t (Rg.PARSE_CNT f.src 0) ∧ sameMemories s t) ∧
    (w.hopZero = true → f.txDesc = 0 →
      completes .frameParse s fun t =>
        t.rxQ = q ∧ t.admQ = s.admQ ∧ counted s t (Rg.PARSE_CNT f.src 0) ∧ counted s t (Rg.PARSE_CNT f.src 11) ∧ sameMemories s t) ∧
    (∀ c, w.hopZero = false → w.cause = some c → c ≠ 0 → c ≤ 5 → s.excSlow bank c = false → f.txDesc = 0 →
      completes .frameParse s fun t =>
        t.rxQ = q ∧ t.admQ = s.admQ ∧ counted s t (Rg.PARSE_CNT f.src (1 + c)) ∧ counted s t (Rg.PARSE_CNT f.src 9) ∧ t.mgmt = s.mgmt)

/-- The standby bank. A write of a word of the window stores it there, least significant byte first, and clears VALIDATED; during a swap or
the checks it is ignored with its event. CMD 1 begins the checks; at their end the bank is VALIDATED, or VAL_CAUSE and VAL_NODE give
the first fault with PARSE_VAL_FAIL; which of several comes first is the model's choice (log entry 139). CMD 2 is accepted for a validated bank at rest, else refused with its event; the end of the pause
makes the standby bank the active one, and the end of the drain returns STATE to 0. -/
def Obligations.ParseBankSwaps : Prop :=
  (∀ (o : Fin 131072) (v : Word) (s : State), s.coresRun = true → o.val % 4 = 0 → s.swapState = 0 → s.valBusy = false →
    completes (.parseStandbyWrite o v) s fun t =>
      t.ram (bankAt s.standbyBank + o.val) 4 = leBytes 4 v.toNat ∧ t.fd Rg.PARSE_BANK_STATUS Fl.PARSE_BANK_STATUS_VALIDATED = 0 ∧
      ramOnly s t (bankAt s.standbyBank + o.val) 4) ∧
  (∀ (o : Fin 131072) (v : Word) (s : State), s.coresRun = true → s.swapState ≠ 0 ∨ s.valBusy = true → evRoom s 8 →
    completes (.parseStandbyWrite o v) s fun t =>
      raised t 0x0110 noPort ((0x10210000 + o.val) * 2 ^ 32 + v.toNat) ∧ sameMemories s t) ∧
  (∀ (l : Nat) (s : State), s.coresRun = true → s.valBusy = false →
    completes (.parseValidate l) s fun t => t.valBusy = true ∧ sameMemories s t) ∧
  (∀ (l : Nat) (s : State), s.valBusy = true → s.bankCause (bankAt s.standbyBank) = (0, 0) →
    completes (.parseValidateDone l) s fun t =>
      t.valBusy = false ∧ t.fd Rg.PARSE_BANK_STATUS Fl.PARSE_BANK_STATUS_VALIDATED = 1 ∧ t.bit Rg.PARSE_INT_STATUS 1 = true ∧ sameMemories s t) ∧
  (∀ (l : Nat) (c n : Nat) (s : State), s.valBusy = true → s.bankCause (bankAt s.standbyBank) = (c, n) → c ≠ 0 → evRoom s 8 →
    completes (.parseValidateDone l) s fun t =>
      t.valBusy = false ∧ t.fd Rg.PARSE_BANK_STATUS Fl.PARSE_BANK_STATUS_VAL_FAIL = 1 ∧
      t.fd Rg.PARSE_BANK_STATUS Fl.PARSE_BANK_STATUS_VAL_CAUSE = c ∧ t.fd Rg.PARSE_BANK_STATUS Fl.PARSE_BANK_STATUS_VAL_NODE = n ∧
      t.fd Rg.PARSE_BANK_STATUS Fl.PARSE_BANK_STATUS_VALIDATED = s.fd Rg.PARSE_BANK_STATUS Fl.PARSE_BANK_STATUS_VALIDATED ∧
      raised t 0x0603 noPort (c + 16 * n) ∧ sameMemories s t) ∧
  (∀ (l : Nat) (s : State), s.coresRun = true → s.fd Rg.PARSE_BANK_STATUS Fl.PARSE_BANK_STATUS_VALIDATED = 1 → s.swapState = 0 →
    completes (.parseSwapRequest l) s fun t => t.swapState = 1 ∧ t.activeBank = s.activeBank ∧ sameMemories s t) ∧
  (∀ (l : Nat) (s : State), s.coresRun = true → s.fd Rg.PARSE_BANK_STATUS Fl.PARSE_BANK_STATUS_VALIDATED = 0 ∨ s.swapState ≠ 0 → evRoom s 8 →
    completes (.parseSwapRequest l) s fun t =>
      t.swapState = s.swapState ∧ t.fd Rg.PARSE_BANK_STATUS Fl.PARSE_BANK_STATUS_REFUSED = 1 ∧
      raised t 0x0602 noPort (s.swapState + 4 * s.fd Rg.PARSE_BANK_STATUS Fl.PARSE_BANK_STATUS_VALIDATED) ∧ sameMemories s t) ∧
  (∀ s : State, s.prs.paused = true → evRoom s 8 →
    completes .parseSwapPauseEnd s fun t =>
      t.prs.paused = false ∧ t.activeBank = s.standbyBank ∧ t.swapState = 2 ∧ t.bit Rg.PARSE_INT_STATUS 0 = true ∧
      raised t 0x0601 noPort ((s.standbyBank - 1) + s.rd Rg.PARSE_SWAP_HOOP * 2 ^ 32) ∧ sameMemories s t) ∧
  (∀ s : State, s.coresRun = true → s.swapState = 2 → s.prs.paused = false → s.tagged51 s.standbyBank = [] → s.prs.pauseEnd + 256 < 2 ^ 64 →
    completes .parseDrainEnd s fun t =>
      t.swapState = 0 ∧ t.activeBank = s.activeBank ∧ t.raw = Nat.max s.raw (s.prs.pauseEnd + 256) ∧ sameMemories s t)

/-- Learning and ageing. A request for a known, unpinned address moves its entry to the request's port, sets ACTIVE and counts a move, or waits
again while its bucket is locked; for a pinned one it only counts; a new address goes into the lowest free slot of its first candidate bucket and is counted. A visit of the
ageing scan leaves pinned and free slots and those hit in its cycle, marks active entries idle, and frees and counts idle ones, with the
end of the cycle.
Where the manual leaves a point open it is the model's choice (log entry 75). -/
def Obligations.TablesLearnAndAge : Prop :=
  (∀ (r : LearnReq) (q : List LearnReq) (s : State), s.tbl.learnQ = r :: q → s.engineOn = true → s.dmaWaits = false → s.tblState 1 = 0 →
    s.tblSize 1 ≠ 0 → s.mayWork 0 3 = true → r.mac.length = 6 → clean s →
    let key := beBytes 2 r.vid ++ r.mac
    (∀ a, s.find 1 key = some a → be (s.ram a 16) 10 2 ≠ r.port → ePinned (s.ram a 16) = false → s.locked 1 (s.bucketOf 1 a) = false →
      completes .learnRequestProcess s fun t =>
        t.tbl.learnQ = q ∧ t.ram (a + 10) 2 = beBytes 2 r.port ∧ eActive (t.ram a 16) = true ∧ counted s t (Rg.TBL_CNT 1) ∧
        t.ram (a + 1) 9 = s.ram (a + 1) 9 ∧ t.ram (a + 12) 4 = s.ram (a + 12) 4 ∧ ramOnly s t a 16) ∧
    (∀ a, s.find 1 key = some a → be (s.ram a 16) 10 2 ≠ r.port → ePinned (s.ram a 16) = false → s.locked 1 (s.bucketOf 1 a) = true →
      completes .learnRequestProcess s fun t => t.tbl.learnQ = q ++ [r] ∧ counted s t (Rg.TBL_CNT 4) ∧ sameMemories s t) ∧
    (∀ a, s.find 1 key = some a → be (s.ram a 16) 10 2 ≠ r.port → ePinned (s.ram a 16) = true →
      completes .learnRequestProcess s fun t => t.tbl.learnQ = q ∧ counted s t (Rg.TBL_CNT 6) ∧ sameMemories s t) ∧
    (∀ j, s.find 1 key = none → s.locked 1 (s.cands 1 (s.tblActive 1) key).1 = false →
      s.freeSlot 1 (s.cands 1 (s.tblActive 1) key).1 = some j →
      completes .learnRequestProcess s fun t =>
        t.tbl.learnQ = q ∧ counted s t (Rg.TBL_CNT 0) ∧
        t.ram (s.slotAt 1 (s.cands 1 (s.tblActive 1) key).1 j) 16 =
          [0xA0, 0] ++ key ++ beBytes 2 r.port ++ beBytes 4 (s.fd (Rg.TBL_VLAN r.vid) Fl.TBL_VLAN_FLOOD_ACT) ∧
        ramOnly s t (s.slotAt 1 (s.cands 1 (s.tblActive 1) key).1 j) 16)) ∧
  (∀ (n : Nat) (s : State), 1 ≤ n → n ≤ 3 → 0 < s.scanOwed n → s.tblHeld n = false → (∀ m, 1 ≤ m → m < n → s.scanOwed m = 0) →
    s.engineOn = true → s.dmaWaits = false → s.tbl.learnQ = [] → s.mayWork 1 2 = true → clean s → s.locked n (s.scanNext n) = false →
    sget s.tbl.scanHold n 0 ≤ s.hoopCount → s.cyc.ages = [] →
    let i := s.scanNext n
    let stays (j : Nat) : Bool := !eValid (s.entry n i j) || ePinned (s.entry n i j) || s.cyc.hits.contains (s.slotAt n i j)
    completes .ageingVisit s fun t =>
      t.scanOwed n = s.scanOwed n - 1 ∧ t.scanNext n = (i + 1) % s.tblSize n ∧ sameMemories s t ∧
      (∀ j < 4, t.cycleEnd.ram (s.slotAt n i j) (entBytes n) =
        (let e := s.entry n i j
         if stays j then e else if eActive e then BitVec.ofNat 8 (byteAt e 0 - 32) :: e.drop 1 else zeros (entBytes n))) ∧
      counted s t.cycleEnd (Rg.TBL_CNT 5) ((List.range 4).filter (fun j => !stays j && !eActive (s.entry n i j))).length ∧
      ramOnly s t.cycleEnd (s.slotAt n i 0) (bktBytes n))

/-- The management DMA, one descriptor a time: READ and LOCKED_READ bring a bucket, the latter with its lock; WRITE_UNLOCK stores one and
UNLOCK none, and both end the lock; WRITE fills a bucket of a prepared standby bank, or a NODE entry; ACT_WRITE makes a free record LIVE
with zero counters, ACT_FREE puts a LIVE one into GRACE for two boundaries after its cycle, and ACT_READ brings one; INSERT replaces the entry of its key
or takes the first free slot; DELETE frees the entry of its key. Each reports STATUS 1 and moves TAIL.
Where the manual leaves a point open it is the model's choice (log entry 75). -/
def Obligations.TableDmaOperates : Prop :=
  ∀ (a : Nat) (d : DmaDesc) (s : State), sound s →
    let n := bktBytes d.table
    let b := s.bktAt d.table (s.tblActive d.table) d.index
    let hashes := 1 ≤ d.table ∧ d.table ≤ 3 ∧ d.index < s.tblSize d.table
    let key := eKey d.table (s.mem d.addr (entBytes d.table))
    let c := s.cands d.table (s.tblActive d.table) key
    (dmaFront s a d 1 → d.op = 1 → hashes → d.bank = 0 → s.inMgmt d.addr n = true → d.addr + n ≤ a + 2 ∨ a + 3 ≤ d.addr →
      completes .dmaRead s fun t => dmaDone s t a d 1 ∧ t.mem d.addr n = s.ram b n ∧ t.sram = s.sram ∧ memOnly s t d.addr n a) ∧
    (dmaFront s a d 1 → d.op = 2 → hashes → d.bank = 0 → s.inMgmt d.addr n = true → d.addr + n ≤ a + 2 ∨ a + 3 ≤ d.addr →
      s.locked d.table d.index = false → s.locksHeld < 64 →
      completes .dmaLockedRead s fun t =>
        dmaDone s t a d 1 ∧ t.mem d.addr n = s.ram b n ∧ t.locked d.table d.index = true ∧ t.sram = s.sram ∧ memOnly s t d.addr n a) ∧
    (dmaFront s a d 1 → d.op = 2 → hashes → d.bank = 0 → s.inMgmt d.addr n = true → d.addr + n ≤ a + 2 ∨ a + 3 ≤ d.addr →
      s.locked d.table d.index = true →
      completes .dmaLockedRead s fun t => dmaDone s t a d 4 ∧ t.tbl.locks = s.tbl.locks ∧ t.mem d.addr n = s.ram b n ∧ t.sram = s.sram) ∧
    (dmaFront s a d 1 → d.op = 3 → hashes → d.bank = 0 → s.inMgmt d.addr n = true → s.tblHeld d.table = false →
      s.locked d.table d.index = true → s.imageOk d.table (s.tblActive d.table) d.index (s.mem d.addr n) = true →
      completes .dmaWriteUnlock s fun t =>
        dmaDone s t a d 1 ∧ t.ram b n = keepActive d.table (s.ram b n) (s.mem d.addr n) ∧ t.locked d.table d.index = false ∧
        (∀ x, x < b ∨ b + n ≤ x → t.ram x 1 = s.ram x 1) ∧ memOnly s t 0 0 a) ∧
    (dmaFront s a d 1 → d.op = 4 → hashes → d.bank = 0 → s.locked d.table d.index = true →
      completes .dmaUnlock s fun t => dmaDone s t a d 1 ∧ t.locked d.table d.index = false ∧ t.sram = s.sram ∧ memOnly s t 0 0 a) ∧
    (dmaFront s a d 1 → d.op = 5 → hashes → d.bank = 1 → s.inMgmt d.addr n = true → s.tblState d.table = 1 →
      s.imageOk d.table (1 - s.tblActive d.table) d.index (s.mem d.addr n) = true →
      completes .dmaWrite s fun t =>
        dmaDone s t a d 1 ∧ t.ram (s.bktAt d.table (1 - s.tblActive d.table) d.index) n = s.mem d.addr n ∧
        (∀ x, x < s.bktAt d.table (1 - s.tblActive d.table) d.index ∨ s.bktAt d.table (1 - s.tblActive d.table) d.index + n ≤ x →
          t.ram x 1 = s.ram x 1) ∧ memOnly s t 0 0 a) ∧
    (dmaFront s a d 1 → d.op = 5 → d.table = 4 → d.bank = 0 → d.index < 65536 → s.inMgmt d.addr 8 = true → be (s.mem d.addr 8) 4 4 < 65536 →
      completes .dmaWrite s fun t => dmaDone s t a d 1 ∧ t.ram (Mm.node + 8 * d.index) 8 = s.mem d.addr 8 ∧ memOnly s t 0 0 a) ∧
    (dmaFront s a d 1 → d.op = 6 → d.table = 5 → d.bank = 0 → d.index < 65536 → s.inMgmt d.addr 32 = true → s.actLive d.index = false →
      s.actGrace d.index = false → s.actOk d.index (s.mem d.addr 32) = true →
      completes .dmaActWrite s fun t =>
        dmaDone s t a d 1 ∧ t.actRec d.index = s.mem d.addr 32 ∧ t.ram (Mm.actCnt + 32 * d.index) 32 = zeros 32 ∧
        t.actLive d.index = true ∧ memOnly s t 0 0 a) ∧
    (dmaFront s a d 1 → d.op = 7 → d.table = 5 → d.bank = 0 → d.index < 65536 → s.actLive d.index = true →
      completes .dmaActFree s fun t =>
        dmaDone s t a d 1 ∧ t.actLive d.index = false ∧ (d.index, if t.boundDue then 3 else 2) ∈ t.tbl.grace ∧ t.sram = s.sram ∧ memOnly s t 0 0 a) ∧
    (dmaFront s a d 1 → d.op = 8 → d.table = 5 → d.bank = 0 → d.index < 65536 → s.inMgmt d.addr 64 = true →
      d.addr + 64 ≤ a + 2 ∨ a + 3 ≤ d.addr →
      completes .dmaActRead s fun t =>
        dmaDone s t a d 1 ∧ t.mem d.addr 32 = s.actRec d.index ∧
        (∀ k < 4, t.memLe (d.addr + 32 + 8 * k) 8 = s.ramBe (Mm.actCnt + 32 * d.index + 8 * k) 8) ∧ t.sram = s.sram ∧
        memOnly s t d.addr 64 a) ∧
    (dmaFront s a d 3 → d.op = 9 → 1 ≤ d.table → d.table ≤ 3 → d.bank = 0 → s.tblSize d.table ≠ 0 → s.tblHeld d.table = false →
      s.inMgmt d.addr (entBytes d.table) = true →
      s.entryOk d.table (eFlag (eFlag (s.mem d.addr (entBytes d.table)) 128 true) 32 true) = true →
      s.locked d.table c.1 = false → s.locked d.table c.2 = false →
      (∀ x, s.find d.table key = some x →
        completes .dmaInsert s fun t =>
          dmaDone s t a d 1 ∧ t.ram (x + 1) (entBytes d.table - 1) = (s.mem d.addr (entBytes d.table)).drop 1 ∧
          eValid (t.ram x 1) = true ∧ eActive (t.ram x 1) = true ∧
          (∀ y, y < x ∨ x + entBytes d.table ≤ y → t.ram y 1 = s.ram y 1) ∧ memOnly s t 0 0 a) ∧
      (∀ j, s.find d.table key = none → s.freeSlot d.table c.1 = some j →
        completes .dmaInsert s fun t =>
          dmaDone s t a d 1 ∧ t.ram (s.slotAt d.table c.1 j + 1) (entBytes d.table - 1) = (s.mem d.addr (entBytes d.table)).drop 1 ∧
          eValid (t.ram (s.slotAt d.table c.1 j) 1) = true ∧ eActive (t.ram (s.slotAt d.table c.1 j) 1) = true ∧
          (∀ y, y < s.slotAt d.table c.1 j ∨ s.slotAt d.table c.1 j + entBytes d.table ≤ y → t.ram y 1 = s.ram y 1) ∧ memOnly s t 0 0 a)) ∧
    (dmaFront s a d 3 → d.op = 10 → 1 ≤ d.table → d.table ≤ 3 → d.bank = 0 → s.tblSize d.table ≠ 0 → s.tblHeld d.table = false →
      s.inMgmt d.addr (entBytes d.table) = true → s.locked d.table c.1 = false → s.locked d.table c.2 = false →
      ∀ x, s.find d.table key = some x →
        completes .dmaDelete s fun t =>
          dmaDone s t a d 1 ∧ t.ram x (entBytes d.table) = zeros (entBytes d.table) ∧
          (∀ y, y < x ∨ x + entBytes d.table ≤ y → t.ram y 1 = s.ram y 1) ∧ memOnly s t 0 0 a)

/-- Ends and banks of the tables: a record whose GRACE has run is free again; a lock of two hoops ago expires, is counted and reported;
PREPARE of an idle table with two banks copies its standby seeds and counts no bucket written; COMMIT of one with every bucket written is
PENDING; ABORT returns to idle; out of order each is refused with its event. -/
def Obligations.TableBanksAndLocks : Prop :=
  (∀ (i : Fin 65536) (s : State), (∀ g ∈ s.tbl.grace, g.1 = i.val → g.2 = 0) →
    completes (.actGraceEnd i) s fun t =>
      t.actGrace i.val = false ∧ (∀ j, j ≠ i.val → t.actGrace j = s.actGrace j) ∧ t.regs = s.regs ∧ sameMemories s t) ∧
  (∀ (n : Nat) (k : Lock) (s : State), s.tbl.locks[n]? = some k → k.hoop + 2 ≤ s.hoopCount → evRoom s 8 →
    completes (.tblLockExpired n) s fun t =>
      t.tbl.locks = s.tbl.locks.eraseIdx n ∧ t.locked k.table k.bucket = s.locked k.table k.bucket ∧
      (s.locked k.table k.bucket = false → (k.table, k.bucket) ∈ t.tbl.expired) ∧ counted s t (Rg.TBL_CNT 11) ∧
      t.bit Rg.TBL_INT_STATUS 2 = true ∧ raised t 0x0702 noPort (k.table + 256 * k.bucket) ∧ sameMemories s t) ∧
  (∀ (k : Fin 4) (s : State), k.val ≠ 0 → s.coresRun = true → s.tblState k.val = 0 → s.tblSingle k.val = false →
    completes (.tblPrepare k) s fun t =>
      t.tblState k.val = 1 ∧ t.fd (Rg.TBL_BANK_STATUS k.val) Fl.TBL_BANK_STATUS_WRITTEN = 0 ∧
      sget t.tbl.prepSeed k.val 0 = s.rd64 (Rg.TBL_SEED_STBY k.val) ∧ sameMemories s t) ∧
  (∀ (l : Nat) (k : Fin 4) (s : State), k.val ≠ 0 → s.coresRun = true → s.tblState k.val = 1 →
    s.fd (Rg.TBL_BANK_STATUS k.val) Fl.TBL_BANK_STATUS_WRITTEN = s.tblSize k.val →
    completes (.tblCommit l k) s fun t => t.tblState k.val = 2 ∧ t.tblActive k.val = s.tblActive k.val ∧ sameMemories s t) ∧
  (∀ (k : Fin 4) (s : State), k.val ≠ 0 → s.coresRun = true → s.tblState k.val = 1 →
    completes (.tblAbort k) s fun t => t.tblState k.val = 0 ∧ t.tblActive k.val = s.tblActive k.val ∧ sameMemories s t) ∧
  (∀ (l : Nat) (k : Fin 4) (s : State), k.val ≠ 0 → s.coresRun = true → evRoom s 8 →
    (s.tblState k.val ≠ 0 → completes (.tblPrepare k) s fun t =>
      t.fd (Rg.TBL_BANK_STATUS k.val) Fl.TBL_BANK_STATUS_REFUSED = 1 ∧ t.tblState k.val = s.tblState k.val ∧
      raised t 0x0110 noPort ((Rg.TBL_BANK_CTRL k.val).addr * 2 ^ 32 + 1)) ∧
    (s.tblState k.val ≠ 1 → completes (.tblCommit l k) s fun t =>
      t.fd (Rg.TBL_BANK_STATUS k.val) Fl.TBL_BANK_STATUS_REFUSED = 1 ∧ t.tblState k.val = s.tblState k.val ∧
      raised t 0x0110 noPort ((Rg.TBL_BANK_CTRL k.val).addr * 2 ^ 32 + 2)) ∧
    (s.tblState k.val ≠ 1 → completes (.tblAbort k) s fun t =>
      t.fd (Rg.TBL_BANK_STATUS k.val) Fl.TBL_BANK_STATUS_REFUSED = 1 ∧ t.tblState k.val = s.tblState k.val ∧
      raised t 0x0110 noPort ((Rg.TBL_BANK_CTRL k.val).addr * 2 ^ 32 + 3)))

/-- FRAME_ADMISSION and SPREAD_STALL. A unicast frame for a port 0 to 47, neither metered, tapped nor cut through, that WRED does not test and
whose queue has room enters the ground through an intermediate with room for 8 entries more, of those the one its group has sent
least through; it takes cells that no copy holds; its copy and its cells are counted. A queue with limit 0, and one without room, refuse it under their own counters. A
frame that waits for an intermediate is counted stalled once, and chooses again a slot later; it crosses when one has room.
Where the manual leaves a point open it is the model's choice (log entries 81 and 141). -/
def Obligations.FramesAreAdmitted : Prop :=
  (∀ (f : Frame) (q : List Frame) (s : State), s.admQ = f :: q → s.forwarding = true → f.stomp = false → f.police = false → f.capture = false →
    f.evidence = false → f.slowCopy = false → f.bridge = false → f.goKind = 0 → f.goDest < 48 → f.src < 48 → f.cls < 8 → f.brg = 0 →
    f.acted = false → f.txDesc = 0 → s.ctOk f = false → sound s → s.gnd.inj = [] → s.gnd.backs = [] →
    let lim := s.fd (Rg.BUF_LIMIT f.goDest f.cls) Fl.BUF_LIMIT_LIMIT
    let e := groupOf f.goDest
    (lim ≠ 0 → s.bit (Rg.BUF_QCFG f.goDest f.cls) 0 = false → s.occ f.goDest f.cls + cellsOf f.L ≤ lim → s.gnd.spread = [] →
      (∃ m < 8, s.iqLevel m e ≤ 56) →
      completes .frameAdmission s fun t =>
        (∃ x, t.gnd.flight = s.gndRun.gnd.flight ++ [x] ∧ x.copy.data = f.data ∧ x.copy.egress = f.goDest ∧ x.copy.cls = f.cls ∧
          x.copy.charge = cellsOf f.L ∧ x.copy.cells.length = cellsOf f.L ∧ (∀ c ∈ s.copies, ∀ k ∈ c.cells, k ∉ x.copy.cells) ∧
          x.arrived = none ∧ x.inter < 8 ∧ s.iqLevel x.inter e ≤ 56 ∧
          (∀ m < 8, s.iqLevel m e ≤ 56 →
            sget s.gndRun.gnd.sent (8 * f.group + x.inter) 0 ≤ sget s.gndRun.gnd.sent (8 * f.group + m) 0)) ∧
        t.admQ = q ∧ counted s t (Rg.BUF_QCNT f.goDest f.cls 0) ∧ counted s t (Rg.BUF_QCNT f.goDest f.cls 1) (cellsOf f.L) ∧ sameMemories s t) ∧
    (lim = 0 → completes .frameAdmission s fun t =>
      t.admQ = q ∧ t.gnd.flight = s.gnd.flight ∧ t.gnd.spread = s.gnd.spread ∧ t.outQ = s.outQ ∧
      counted s t (Rg.BUF_QCNT f.goDest f.cls 5) ∧ sameMemories s t) ∧
    (lim ≠ 0 → s.bit (Rg.BUF_QCFG f.goDest f.cls) 0 = false → lim < s.occ f.goDest f.cls + cellsOf f.L →
      completes .frameAdmission s fun t =>
        t.admQ = q ∧ t.gnd.flight = s.gnd.flight ∧ t.gnd.spread = s.gnd.spread ∧ t.outQ = s.outQ ∧
        counted s t (Rg.BUF_QCNT f.goDest f.cls 2) ∧ sameMemories s t)) ∧
  (∀ (x : Spread) (s : State), s.gnd.spread = [x] → x.group < 8 → s.gnd.inj = [] →
    ((∀ m < 8, ∃ c ∈ x.copies, 56 < s.iqLevel m (groupOf c.egress)) →
      completes .spreadStall s fun t =>
        counted s t (Rg.GND_CNT 2) (if x.stalled then 0 else 1) ∧ t.outQ = s.outQ ∧ sameMemories s t ∧
        (t.gnd.spread = [{ x with stalled := true }] ∨ t.gnd.spread = [] ∧ ∀ c ∈ x.copies, ∃ y ∈ t.gnd.flight, y.copy = c)) ∧
    (∀ c, x.copies = [c] → x.stalled = false → (∃ m < 8, s.iqLevel m (groupOf c.egress) ≤ 56) →
      completes .spreadStall s fun t =>
        t.gnd.spread = [] ∧ t.rd (Rg.GND_CNT 2) = s.rd (Rg.GND_CNT 2) ∧
        ∃ y, t.gnd.flight = s.gndRun.gnd.flight ++ [y] ∧ y.copy = c ∧ s.iqLevel y.inter (groupOf c.egress) ≤ 56))

/-- The resequencer. The ground runs on until a copy reaches the group; that copy leaves it: in sequence it enters the output queues,
stamped with LT, and its triple expects the next; an early one is held; a late one is counted and lost. Two microseconds after the
arrival of the one copy held, its triple skips to it: skip counted and reported, copy released; where the copy it waits for has arrived by
then, both are released in order and nothing is skipped.
Where the manual leaves a point open it is the model's choice (log entry 82). -/
def Obligations.ResequencerKeepsOrder : Prop :=
  (∀ (g : Fin 8) (x : Flight) (s : State),
    let u := s.toArrival g.val
    u.nextArrival g.val = some x → x.copy.seq < 1024 → u.expects x.copy < 1024 → u.gnd.triples.any (fun t => t.of x.copy) = true →
    let ahead := (x.copy.seq + 1024 - u.expects x.copy) % 1024
    (ahead = 0 → u.gnd.held = [] →
      completes (.reseqRelease g) s fun t =>
        t.outQ = u.outQ ++ [{ x.copy with enq := u.lt48 }] ∧ t.expects x.copy = (x.copy.seq + 1) % 1024 ∧
        t.gnd.flight = u.gnd.flight.erase x ∧ t.regs = u.regs ∧ sameMemories u t) ∧
    (ahead ≠ 0 → ahead < 512 →
      completes (.reseqRelease g) s fun t =>
        t.gnd.held = u.gnd.held ++ [⟨x.copy, x.arrived.getD 0⟩] ∧ t.outQ = u.outQ ∧ t.expects x.copy = u.expects x.copy ∧
        t.gnd.flight = u.gnd.flight.erase x ∧ t.regs = u.regs ∧ sameMemories u t) ∧
    (512 ≤ ahead →
      completes (.reseqRelease g) s fun t =>
        t.gnd.held = u.gnd.held ∧ t.outQ = u.outQ ∧ t.gnd.flight = u.gnd.flight.erase x ∧ counted u t (Rg.GND_CNT 1) ∧ sameMemories u t)) ∧
  (∀ (g : Fin 8) (x : Flight) (s : State), s.gnd.inj = [] → s.gndRun.nextArrival g.val = some x → s.toArrival g.val = s.gndRun) ∧
  (∀ (g : Fin 8) (h : Held) (s : State), s.gnd.held = [h] → groupOf h.copy.egress = g.val → h.copy.seq < 1024 →
    s.expects h.copy < 1024 → s.gnd.triples.any (fun t => t.of h.copy) = true → s.gnd.inj = [] → s.gndIdle = true →
    h.raw + 2000 < 2 ^ 64 → evRoom s 8 →
    ((∀ x ∈ s.gnd.flight, x.lost = false ∧ (x.arrived = none ∨ groupOf x.copy.egress ≠ g.val)) → s.expects h.copy ≠ h.copy.seq →
      completes (.reseqSkip g) s fun t =>
        t.gnd.held = [] ∧ (∃ k, t.outQ = s.outQ ++ [{ h.copy with enq := k }]) ∧ t.expects h.copy = (h.copy.seq + 1) % 1024 ∧
        t.raw = Nat.max s.raw (h.raw + 2000) ∧ counted s t (Rg.GND_CNT 0) ∧ t.bit Rg.BUF_INT_STATUS 0 = true ∧
        raised t 0x0801 noPort (h.copy.src + h.copy.egress * 2 ^ 8 + h.copy.cls * 2 ^ 16 + s.expects h.copy * 2 ^ 32) ∧ sameMemories s t) ∧
    (∀ (x : Flight) (r : Nat), s.gnd.flight = [x] → x.copy.src = h.copy.src → x.copy.egress = h.copy.egress → x.copy.cls = h.copy.cls →
      x.copy.seq = s.expects h.copy → h.copy.seq = (s.expects h.copy + 1) % 1024 → x.arrived = some r → r ≤ h.raw + 2000 →
      completes (.reseqSkip g) s fun t =>
        t.gnd.held = [] ∧ t.gnd.flight = [] ∧ (∃ k m, t.outQ = s.outQ ++ [{ x.copy with enq := k }, { h.copy with enq := m }]) ∧
        t.expects h.copy = (h.copy.seq + 1) % 1024 ∧ t.rd (Rg.GND_CNT 0) = s.rd (Rg.GND_CNT 0) ∧ sameMemories s t))

/-- Groups and policers. A group takes a legal mask and gives it back; an illegal one is ignored with its event. A policer takes sound settings
with full buckets, TIME_RAW[34:3] as its time; unsound ones are refused with REFUSED; a read brings settings and state,
but one that meets a double-bit error is a fatal fault, which begins a warm reset of cause 4; the background sweep refills an enabled
one by R197.
Where the manual leaves a point open it is the model's choice (log entries 122 and 151). -/
def Obligations.GroupsAndPolicers : Prop :=
  (∀ (g : Fin 4096) (s : State), s.coresRun = true → bitOf (s.rd64 Rg.BUF_MC_MASK) 49 = false → s.rd64 Rg.BUF_MC_MASK < 2 ^ 52 →
    popcount 64 (s.rd64 Rg.BUF_MC_MASK) ≤ 47 →
    completes (.mcGroupWrite g) s fun t =>
      t.mcMask g.val = s.rd64 Rg.BUF_MC_MASK ∧ t.bit Rg.BUF_MC_STATUS 1 = true ∧ ramOnly s t (Mm.mc + 8 * g.val) 8) ∧
  (∀ (g : Fin 4096) (s : State), s.coresRun = true → bitOf (s.rd64 Rg.BUF_MC_MASK) 49 = true ∨ 2 ^ 52 ≤ s.rd64 Rg.BUF_MC_MASK ∨
      47 < popcount 64 (s.rd64 Rg.BUF_MC_MASK) → evRoom s 8 →
    completes (.mcGroupWrite g) s fun t => raised t 0x0110 noPort (Rg.BUF_MC_CMD.addr * 2 ^ 32 + g.val + 4096) ∧ sameMemories s t) ∧
  (∀ (g : Fin 4096) (s : State), s.coresRun = true → sound s →
    completes (.mcGroupRead g) s fun t =>
      t.rd64 Rg.BUF_MC_MASK = s.mcMask g.val ∧ t.bit Rg.BUF_MC_STATUS 1 = true ∧ sameMemories s t) ∧
  (∀ (i : Fin 16384) (en : Bool) (s : State), s.coresRun = true → s.gnd.backs = [] →
    let cir := s.fd Rg.BUF_POL_CIR Fl.BUF_POL_CIR_CIR
    let cbs := s.fd Rg.BUF_POL_CBS Fl.BUF_POL_CBS_CBS
    let pir := s.fd Rg.BUF_POL_PIR Fl.BUF_POL_PIR_PIR
    let pbs := s.fd Rg.BUF_POL_PBS Fl.BUF_POL_PBS_PBS
    (cir ≤ 100000000 → pir ≤ 100000000 → cbs < 2 ^ 24 → pbs < 2 ^ 24 → pir = 0 ∨ cir ≤ pir →
      completes (.policerWrite i en) s fun t =>
        t.policer i.val = ⟨en, cir, cbs, pir, pbs, if cir = 0 then 0 else cbs * 256, if pir = 0 then 0 else pbs * 256, s.raw / 8 % 2 ^ 32⟩ ∧
        t.bit Rg.BUF_POL_STATUS 1 = true ∧ ramOnly s t (Mm.pol + 32 * i.val) 32) ∧
    (100000000 < cir ∨ 100000000 < pir ∨ (pir ≠ 0 ∧ pir < cir) → evRoom s 8 →
      completes (.policerWrite i en) s fun t =>
        t.bit Rg.BUF_POL_STATUS 3 = true ∧ raised t 0x0110 noPort (Rg.BUF_POL_CMD.addr * 2 ^ 32 + (i.val + 16384 + 65536 * b2n en)) ∧
        sameMemories s t)) ∧
  (∀ (i : Fin 16384) (s : State), s.coresRun = true → sound s → s.gnd.backs = [] →
    completes (.policerRead i) s fun t =>
      t.rd Rg.BUF_POL_CIR = (s.policer i.val).cir ∧ t.rd Rg.BUF_POL_CBS = (s.policer i.val).cbs ∧ t.rd Rg.BUF_POL_PIR = (s.policer i.val).pir ∧
      t.rd Rg.BUF_POL_PBS = (s.policer i.val).pbs ∧ t.rd Rg.BUF_POL_TC = (s.policer i.val).tc ∧ t.rd Rg.BUF_POL_TP = (s.policer i.val).tp ∧
      t.fd Rg.BUF_POL_STATUS Fl.BUF_POL_STATUS_ENABLE = b2n (s.policer i.val).enable ∧ sameMemories s t) ∧
  (∀ (i : Fin 16384) (x : Nat) (s : State), s.coresRun = true → s.gnd.backs = [] → s.policerBad i.val = some x → evRoom s 8 →
    completes (.policerRead i) s fun t =>
      t.pwr.phase = .flush ∧ t.pwr.flush = .warm ∧ t.pwr.cause = 4 ∧ t.pwr.fatal = false ∧ t.pins.faultNLow = true ∧
      t.rd Rg.FLT_LAST_FAULT = 0x0F11 + 2 * 2 ^ 16 ∧ counted s t (Rg.FLT_DBE 2) ∧ raised t 0x0F01 noPort (2 + x * 2 ^ 32)) ∧
  (∀ (i : Fin 16384) (s : State), s.engineOn = true → sound s → s.gnd.backs = [] → (s.policer i.val).enable = true → (s.policer i.val).cbs < 2 ^ 24 → (s.policer i.val).pbs < 2 ^ 24 →
    let p := s.policer i.val
    let dt := 8 * ((s.raw / 8 % 2 ^ 32 + 2 ^ 32 - p.last) % 2 ^ 32)
    completes (.policerSweep i) s fun t =>
      t.policer i.val = { p with tc := Nat.min (p.cbs * 256) (p.tc + p.cir * dt * 256 / 8000000),
                                 tp := Nat.min (p.pbs * 256) (p.tp + p.pir * dt * 256 / 8000000), last := s.raw / 8 % 2 ^ 32 } ∧
      t.regs = s.regs ∧ ramOnly s t (Mm.pol + 32 * i.val) 32)

/-! ## Egress (R201 to R213) -/

/-- FRAME_TRANSMIT_START on an edge port with all its shapers off, no gate list, no pause, no PTP and no MACsec: of two frames of
strict classes without launch time the one of the higher class goes on the wire, padded to 64 bytes with its FCS, is taken out of its
queue and counted; where the link is down it is taken and discarded, and ETH_TX_LINK_DROP counts it.
That DEQUEUED counts at the start decision is the model's choice (log entry 84). -/
def Obligations.TransmitServesStrictClasses : Prop :=
  ∀ (l : Nat) (p : Fin 52) (f g : Frame) (s : State), 4 ≤ p.val → p.val < 24 → s.forwarding = true → s.busy p.val = false → clean s → s.outQ = [g, f] →
    f.egress = p.val → g.egress = p.val → g.cls < f.cls → f.cls < 8 → 4 ≤ g.cls → f.launchV = false → g.launchV = false →
    f.rewrite = 0 → f.hopAt = 0 → f.ct = false → f.tsCap = false → f.isCan = false → s.akzorAt f.data = none →
    s.fd (Rg.EGR_SCHED p.val) Fl.EGR_SCHED_STRICT = 4 → (∀ k ≤ 8, s.shOn p.val k = false) →
    s.fd (Rg.EGR_GATE_CFG p.val) Fl.EGR_GATE_CFG_LEN = 0 → (s.ethP p.val).pauseEnd = [] →
    s.fd (Rg.TIME_PTP_CFG p.val) Fl.TIME_PTP_CFG_ENABLE = 0 → s.msecOn p.val = false →
    (s.linkUp p.val = true → f.data.length + 4 ≤ s.maxFrame p.val → 64 ≤ s.maxFrame p.val →
      completes (.frameTransmitStart l p) s fun t =>
        (∃ x, t.sending = s.sending ++ [x] ∧ x.port = p.val ∧ x.copy = f ∧ x.bytes = f.data ++ zeros (60 - f.data.length) ∧
          x.slen = Nat.max 64 (f.data.length + 4) ∧ x.stomp = f.stomp ∧ x.dead = false ∧ x.started = t.raw) ∧
        t.outQ = [g] ∧ counted s t (Rg.BUF_QCNT p.val f.cls 7) ∧ sameMemories s t) ∧
    (s.linkUp p.val = false →
      completes (.frameTransmitStart l p) s fun t =>
        (∃ x, t.sending = s.sending ++ [x] ∧ x.port = p.val ∧ x.dead = true) ∧
        t.outQ = [g] ∧ counted s t (Rg.ETH_TX_LINK_DROP p.val) ∧ t.sent = s.sent ∧ sameMemories s t)

/-- FRAME_TRANSMIT_END: time passes to the end of the frame on the wire. A frame on ports 0 to 23 has left the part, and its bytes are counted;
one that ends well on ports 48 and 50 goes to the slow path and to the couching bridge, and one on port 51 back to the parser for its second pass. A
shaper of its class that is on loses the length as sent and OVERHEAD. LAUNCH_TIME_REACHED: time passes to the launch time of a head
frame that waits for it.
Where the manual leaves a point open it is the model's choice (log entry 63). -/
def Obligations.TransmissionEnds : Prop :=
  (∀ (l : Nat) (p : Fin 52) (x : Sending) (s : State), s.sending = [x] → x.port = p.val → x.dead = false → x.copy.cls < 8 →
    let u := (s.advance l).advanceRaw (x.started + s.wireTime p.val (x.slen + 8))
    (p.val < 24 →
      completes (.frameTransmitEnd l p) s fun t =>
        t.sent = s.sent ++ [⟨p.val, x.bytes, x.stomp, fcsOf x.bytes x.stomp⟩] ∧ t.sending = [] ∧ t.raw = u.raw ∧ counted s t (Rg.ETH_CNT p.val 19) x.slen ∧
        counted s t (Rg.ETH_CNT p.val 20) ∧ (t.egrP p.val).idleAt = u.raw + s.wireTime p.val 12 ∧ sameMemories s t) ∧
    (p.val = 48 → x.stomp = false → completes (.frameTransmitEnd l p) s fun t => t.spQ = s.spQ ++ [x.out] ∧ t.sending = [] ∧ t.sent = s.sent ∧ t.raw = u.raw) ∧
    (p.val = 50 → x.stomp = false → completes (.frameTransmitEnd l p) s fun t => t.brgQ = s.brgQ ++ [x.out] ∧ t.sending = [] ∧ t.sent = s.sent ∧ t.raw = u.raw) ∧
    (p.val = 51 → x.stomp = false → completes (.frameTransmitEnd l p) s fun t =>
      (∃ f, t.rxQ = s.rxQ ++ [f] ∧ f.data = x.out.data ∧ f.src = x.out.src ∧ f.bank = x.out.bank ∧ f.pass = true ∧
        f.tsCap = x.out.tsCap ∧ f.tag = x.out.tag) ∧
      t.sending = [] ∧ t.sent = s.sent ∧ t.raw = u.raw) ∧
    (p.val ≠ 49 → s.shOn p.val x.copy.cls = true → -1073741824 ≤ (u.shape p.val).tokens p.val x.copy.cls → x.slen ≤ 16384 →
      completes (.frameTransmitEnd l p) s fun t =>
        t.tokens p.val x.copy.cls = (u.shape p.val).tokens p.val x.copy.cls
          - ((x.slen + s.fd (Rg.EGR_SCHED p.val) Fl.EGR_SCHED_OVERHEAD : Nat) : Int))) ∧
  (∀ (p : Fin 52) (c : Fin 8) (f : Frame) (s : State), s.headOf p.val c.val = some f → s.launched f = false →
    diff48 f.launch s.lt48 ≤ 1073741824 →
    completes (.launchTimeReached p c) s fun t =>
      t.raw = (s.advanceTo (s.ltNs + diff48 f.launch s.lt48)).raw ∧ t.outQ = s.outQ ∧ sameRegs clockWord s t ∧ sameMemories s t)

/-- Shapers and gates. RATE takes a new value, but zero not while its shaper is on; BURST and EN take effect at once, and a shaper that is
switched on starts with BURST tokens. EGR_GATE_STATUS shows the entry and the states in force when a list moves on; an
entry with a double-bit error in one copy is mended from the other, counted and reported, and the port enters GUARD; a TEST written
to 1 asks for a guarded test at the next repeat boundary, and to 0 ends it; a port without gates ignores the write.
Where the manual leaves a point open it is the model's choice (log entry 86). -/
def Obligations.ShapersAndGates : Prop :=
  (∀ (l : Nat) (p k : Nat) (v : Word) (s : State), p < 52 → p ≠ 49 → k ≤ 8 → s.coresRun = true → evRoom s 8 →
    (v.toNat % 2 ^ 27 ≠ 0 ∨ s.shOn p k = false →
      completes (.shaperWrite l (BitVec.ofNat 32 (shRate p k).addr) v) s fun t =>
        t.rd (shRate p k) = v.toNat % 2 ^ 27 ∧ t.shOn p k = s.shOn p k ∧ sameMemories s t) ∧
    (v.toNat % 2 ^ 27 = 0 → s.shOn p k = true →
      completes (.shaperWrite l (BitVec.ofNat 32 (shRate p k).addr) v) s fun t =>
        t.rd (shRate p k) = s.rd (shRate p k) ∧ raised t 0x0110 noPort ((shRate p k).addr * 2 ^ 32 + v.toNat) ∧ sameMemories s t) ∧
    (v.getLsbD 31 = true → s.fd (shRate p k) Fl.EGR_QSHAPE_RATE_RATE ≠ 0 → s.shOn p k = false →
      completes (.shaperWrite l (BitVec.ofNat 32 (shBurst p k).addr) v) s fun t =>
        t.shOn p k = true ∧ t.fd (shBurst p k) Fl.EGR_QSHAPE_BURST_BURST = v.toNat % 2 ^ 24 ∧
        t.tokens p k = ((v.toNat % 2 ^ 24 : Nat) : Int) ∧ sameMemories s t) ∧
    (v.getLsbD 31 = false →
      completes (.shaperWrite l (BitVec.ofNat 32 (shBurst p k).addr) v) s fun t =>
        t.shOn p k = false ∧ t.fd (shBurst p k) Fl.EGR_QSHAPE_BURST_BURST = v.toNat % 2 ^ 24 ∧ sameMemories s t)) ∧
  (∀ (p : Fin 52) (s : State), p.val < 32 → s.forwarding = true → clean s → s.gateShown p.val = false →
    completes (.gateEntryChange p) s fun t =>
      t.fd (Rg.EGR_GATE_STATUS p.val) Fl.EGR_GATE_STATUS_ENTRY = ((s.segAt p.val s.ltNs).elim 0 Seg.entry) % 256 ∧
      t.fd (Rg.EGR_GATE_STATUS p.val) Fl.EGR_GATE_STATUS_STATES = ((s.segAt p.val s.ltNs).elim 255 Seg.states) % 256 ∧
      t.gateShown p.val = true ∧ t.raw = s.raw ∧ sameMemories s t) ∧
  (∀ (p : Fin 52) (g : Seg) (s : State), p.val < 32 → s.forwarding = true → clean s → s.gateShown p.val = true →
    (s.segs p.val).find? (fun h => s.repeatB + ((h.start : Nat) : Int) > s.ltNs) = some g → s.repeatB + ((g.start : Nat) : Int) < s.nextB →
    completes (.gateEntryChange p) s fun t =>
      t.gateShown p.val = true ∧ t.raw = (s.advanceTo (s.repeatB + ((g.start : Nat) : Int))).raw ∧ sameMemories s t) ∧
  (∀ (p : Fin 52) (x : Nat) (s : State), p.val < 32 → s.forwarding = true → s.fd (Rg.EGR_GATE_CFG p.val) Fl.EGR_GATE_CFG_LEN = 1 →
    s.fd (Rg.EGR_GATE_STATUS p.val) Fl.EGR_GATE_STATUS_FATAL = 0 → s.badIn 10 (gateWord p.val 0 0) 8 = some x →
    s.badIn 10 (gateWord p.val 0 1) 8 = none → s.sbe = [] → evRoom s 12 →
    completes (.gateEntryChange p) s fun t =>
      t.fd (Rg.EGR_GATE_STATUS p.val) Fl.EGR_GATE_STATUS_FAULT = 1 ∧ t.aware p.val = false ∧ counted s t (Rg.EGR_CNT p.val 2) ∧
      raised t 0x0902 p.val 0 ∧ t.badIn 10 (gateWord p.val 0 0) 8 = none ∧ sameMemories s t) ∧
  (∀ (l : Nat) (p : Fin 52) (v : Word) (s : State), s.coresRun = true →
    (p.val < 32 → v.getLsbD 0 = true → completes (.gateTestWrite l p v) s fun t =>
      (t.egrP p.val).testReq = true ∧ t.rd (Rg.EGR_GATE_CTRL p.val) = 1 ∧ t.aware p.val = s.aware p.val ∧ sameMemories s t) ∧
    (p.val < 32 → v.getLsbD 0 = false → completes (.gateTestWrite l p v) s fun t =>
      t.fd (Rg.EGR_GATE_STATUS p.val) Fl.EGR_GATE_STATUS_TEST_ACTIVE = 0 ∧ t.rd (Rg.EGR_GATE_CTRL p.val) = 0 ∧ sameMemories s t) ∧
    (32 ≤ p.val → evRoom s 8 → completes (.gateTestWrite l p v) s fun t =>
      raised t 0x0110 noPort ((Rg.EGR_GATE_CTRL p.val).addr * 2 ^ 32 + v.toNat)))

/-! ## Signals and bobbins (R216 to R259) -/

/-- Capture. The one field slot of a frame's map writes its value into the bank of the frame's hoop, stamped with that hoop, VALID, its COUNT
one more than an entry of the same hoop had, in the next cycle that is free for a capture; a value beyond the frame is counted, and one whose cycle comes 300 ns after the
frame's time is counted late, and neither writes. A signal update of one entry writes that entry with REMOTE set; one that is no update is rejected whole. -/
def Obligations.FramesAreCaptured : Prop :=
  (∀ (l : Nat) (f : Frame) (q : List Frame) (s : State), s.capQ = f :: q → s.egressOn = true → sound s → s.sig.wait = [] →
    let c := s.cmap f.capMap 0
    let i := (c % 65536 + (if bitOf c 37 then f.src else 0)) % 65536
    let h := BitVec.ofNat 32 f.tsHoop
    let u := s.advance l
    let late := u.ltAfter (u.sigSlot u.raw - u.raw) - f.ts > 300 * 65536
    (bitOf c 63 = true → bits c 32 3 < 6 → (∀ k < 8, k ≠ 0 → bitOf (s.cmap f.capMap k) 63 = false) →
      (∀ v, captureValue f c = some v → ¬ late →
        completes (.frameCapture l) s fun t =>
          t.capQ = q ∧
          t.sig.at (h.toNat % 2) i = ⟨v, h, if (s.sig.at (h.toNat % 2) i).stamp = h then Nat.min ((s.sig.at (h.toNat % 2) i).count + 1) 65535 else 1, 1⟩ ∧
          (∀ n j, n < 2 → j < 65536 → j ≠ i → t.sig.at n j = s.sig.at n j) ∧ t.sig.free = t.raw + 1 ∧ counted s t (Rg.BOB_CNT 0) ∧
          sameMemories s t) ∧
      (∀ v, captureValue f c = some v → late →
        completes (.frameCapture l) s fun t => t.capQ = q ∧ t.sig = s.sig ∧ counted s t (Rg.BOB_CNT 2) ∧ sameMemories s t) ∧
      (captureValue f c = none →
        completes (.frameCapture l) s fun t => t.capQ = q ∧ t.sig = s.sig ∧ counted s t (Rg.BOB_CNT 1) ∧ sameMemories s t)) ∧
    (bitOf c 63 = true → bits c 32 3 = 6 →
      let o := f.hdrEnd + bits c 16 11
      let a := f.lastAkz - 1
      (f.lastAkz = 0 ∨ byteAt f.data a % 16 ≠ 6 → evRoom s 8 →
        completes (.frameCapture l) s fun t =>
          t.capQ = q ∧ t.sig = s.sig ∧ counted s t (Rg.BOB_CNT 4) ∧ (∃ d, raised t 0x0A06 f.src d ∧ d % 2 = 0) ∧ sameMemories s t) ∧
      (f.lastAkz ≠ 0 → byteAt f.data a % 16 = 6 → o + 20 ≤ f.data.length → byteAt f.data o / 16 = 1 → byteAt f.data (o + 1) = 1 →
        be f.data (a + 12) 2 = 20 → bitOf (byteAt f.data (a + 1)) 1 = false → ¬ late →
        let fl := be f.data (o + 10) 2
        completes (.frameCapture l) s fun t =>
          t.capQ = q ∧ (t.sig.at (h.toNat % 2) (be f.data (o + 8) 2)).value = (if bitOf fl 0 then BitVec.ofNat 64 (be f.data (o + 12) 8) else 0) ∧
          (t.sig.at (h.toNat % 2) (be f.data (o + 8) 2)).stamp = h ∧
          (t.sig.at (h.toNat % 2) (be f.data (o + 8) 2)).flags = b2n (bitOf fl 0) + b2n (bitOf fl 1) * 2 + 8 + b2n (bitOf fl 5) * 32 ∧
          counted s t (Rg.BOB_CNT 0) ∧ sameMemories s t)))

/-- Firmware access. A write of GO makes the signal write BUSY, to be written in the first later cycle that is free for a capture and for the
hoop of that cycle, and while BUSY is refused with its event; at its end, in that cycle, the entry holds the value with FIRMWARE set, or
is invalidated. A private word is read into BOB_PRIV_DATA, one with a double-bit error counted, and written from it, but for one that the
bobbin has stored in the same cycle.
Where the manual leaves a point open it is the model's choice (log entry 92). -/
def Obligations.FirmwareSignalsAndPrivateWords : Prop :=
  (∀ (l : Nat) (v : Word) (s : State), s.coresRun = true → v.getLsbD 0 = true → s.sig.wait = [] →
    let u := s.advance l
    let a := u.sigSlot (u.raw + 1)
    let i := s.rd Rg.BOB_SIGW_INDEX % 65536
    let inv := bitOf (s.rd Rg.BOB_SIGW_INDEX) 16
    (s.fd Rg.BOB_SIGW_STATUS Fl.BOB_SIGW_STATUS_BUSY = 0 →
      completes (.signalWriteGo l v) s fun t =>
        t.fd Rg.BOB_SIGW_STATUS Fl.BOB_SIGW_STATUS_BUSY = 1 ∧ u.raw < a ∧
        t.sig.wait = [(a, i, u.hoopIn (a - u.raw), if inv then 0 else BitVec.ofNat 64 (s.rd64 Rg.BOB_SIGW_VALUE), b2n (!inv) + 16)] ∧
        t.sig.ents = s.sig.ents ∧ t.sig.free = a + 1 ∧ sameMemories s t) ∧
    (s.fd Rg.BOB_SIGW_STATUS Fl.BOB_SIGW_STATUS_BUSY = 1 → evRoom s 8 →
      completes (.signalWriteGo l v) s fun t =>
        t.fd Rg.BOB_SIGW_STATUS Fl.BOB_SIGW_STATUS_REFUSED = 1 ∧ raised t 0x0110 noPort (Rg.BOB_SIGW_CMD.addr * 2 ^ 32 + v.toNat) ∧ t.sig = s.sig)) ∧
  (∀ s : State, (∀ w ∈ s.sig.wait, sigFirm w.2.2.2.2 = false) → completes .signalWriteDone s fun t => t = s) ∧
  (∀ (a i f : Nat) (h : Word) (v : BitVec 64) (s : State), s.sig.wait = [(a, i, h, v, f)] → sigFirm f = true → i < 65536 → f < 65536 → clean s →
    completes .signalWriteDone s fun t =>
      t.raw = Nat.max s.raw a ∧ t.sig.wait = [] ∧ (t.sig.at (h.toNat % 2) i).value = v ∧
      (t.sig.at (h.toNat % 2) i).stamp = h ∧ (t.sig.at (h.toNat % 2) i).flags = f ∧
      (∀ n j, n < 2 → j < 65536 → j ≠ i → t.sig.at n j = s.sig.at n j) ∧
      t.fd Rg.BOB_SIGW_STATUS Fl.BOB_SIGW_STATUS_BUSY = 0 ∧ t.fd Rg.BOB_SIGW_STATUS Fl.BOB_SIGW_STATUS_DONE = 1 ∧ sameMemories s t) ∧
  (∀ s : State, s.coresRun = true → clean s →
    let a := Mm.priv + 0x10000 * s.fd Rg.BOB_PRIV_ADDR Fl.BOB_PRIV_ADDR_BOBBIN + s.fd Rg.BOB_PRIV_ADDR Fl.BOB_PRIV_ADDR_OFFSET / 8 * 8
    completes .privRead s (fun t =>
      t.rd64 Rg.BOB_PRIV_DATA = s.ramBe a 8 ∧ t.bit Rg.BOB_PRIV_STATUS 1 = true ∧ sameMemories s t) ∧
    completes .privWrite s (fun t =>
      t.ramBe a 8 = (if s.privAddr ∈ s.cyc.stores then s.ramBe a 8 else s.rd64 Rg.BOB_PRIV_DATA) ∧ t.bit Rg.BOB_PRIV_STATUS 1 = true ∧ ramOnly s t a 8)) ∧
  (∀ s : State, s.coresRun = true →
    s.isBad 6 (8192 * s.fd Rg.BOB_PRIV_ADDR Fl.BOB_PRIV_ADDR_BOBBIN + s.fd Rg.BOB_PRIV_ADDR Fl.BOB_PRIV_ADDR_OFFSET / 8) = true →
    completes .privRead s fun t =>
      counted s t (Rg.BOB_CNT 7) ∧ counted s t (Rg.FLT_DBE 6) ∧ t.bit Rg.BOB_PRIV_STATUS 1 = true ∧ t.dbe = s.dbe ∧ sameMemories s t)

/-- Bobbin instructions with two register operands: each writes its function of the two to its destination, after its latency; with a
condition that does not hold it writes nothing.
Where the manual leaves a point open it is the model's choice (log entries 88 and 89). -/
def Obligations.BobbinsComputeOnTwoRegisters : Prop :=
  ∀ (b : Fin 16) (q : Pq) (d x y : RegIx) (sh : BitVec 6) (c : Nat) (s : State), issuesAt s b.val q [x.val, y.val, d.val] c →
    let l := (s.lane b.val).land c
    ∀ e ∈ ([(.bAdd b q d x y, 1, fun (u v : W64) => u + v), (.bSub b q d x y, 1, fun (u v : W64) => u - v), (.bAnd b q d x y, 1, fun (u v : W64) => u &&& v),
        (.bOr b q d x y, 1, fun (u v : W64) => u ||| v), (.bXor b q d x y, 1, fun (u v : W64) => u ^^^ v),
        (.bSll b q d x y, 1, fun (u v : W64) => u <<< (v.toNat % 64)), (.bSrl b q d x y, 1, fun (u v : W64) => u >>> (v.toNat % 64)),
        (.bSra b q d x y, 1, fun (u v : W64) => BitVec.sshiftRight u (v.toNat % 64)),
        (.bMin b q d x y, 1, fun (u v : W64) => if u.toInt ≤ v.toInt then u else v), (.bMax b q d x y, 1, fun (u v : W64) => if u.toInt ≤ v.toInt then v else u),
        (.bMinu b q d x y, 1, fun (u v : W64) => if u.toNat ≤ v.toNat then u else v), (.bMaxu b q d x y, 1, fun (u v : W64) => if u.toNat ≤ v.toNat then v else u)]
        ++ [(.bMul b q d x y, 3, fun (u v : W64) => BitVec.ofNat 64 (u.toNat * v.toNat)),
        (.bMulh b q d x y, 3, fun (u v : W64) => BitVec.ofInt 64 (u.toInt * v.toInt / 2 ^ 64)),
        (.bMulhu b q d x y, 3, fun (u v : W64) => BitVec.ofNat 64 (u.toNat * v.toNat / 2 ^ 64)),
        (.bMulq b q d x y sh, 3, fun (u v : W64) => BitVec.ofInt 64 (u.toInt * v.toInt / 2 ^ sh.toNat)),
        (.bDiv b q d x y, 12, fun (u v : W64) => if v = 0 then BitVec.allOnes 64 else BitVec.ofInt 64 (u.toInt.tdiv v.toInt)),
        (.bDivu b q d x y, 12, fun (u v : W64) => if v = 0 then BitVec.allOnes 64 else BitVec.ofNat 64 (u.toNat / v.toNat)),
        (.bRem b q d x y, 12, fun (u v : W64) => if v = 0 then u else BitVec.ofInt 64 (u.toInt.tmod v.toInt)),
        (.bRemu b q d x y, 12, fun (u v : W64) => if v = 0 then u else BitVec.ofNat 64 (u.toNat % v.toNat))]
        ++ [(.bFadd b q d x y, 4, fun (u v : W64) => Fp.add (Fp.ofBits u) (Fp.ofBits v)), (.bFsub b q d x y, 4, fun (u v : W64) => Fp.sub (Fp.ofBits u) (Fp.ofBits v)),
        (.bFmul b q d x y, 4, fun (u v : W64) => Fp.mul (Fp.ofBits u) (Fp.ofBits v)), (.bFdiv b q d x y, 12, fun (u v : W64) => Fp.div (Fp.ofBits u) (Fp.ofBits v)),
        (.bFmin b q d x y, 1, fun (u v : W64) => Fp.minmax false (Fp.ofBits u) (Fp.ofBits v)),
        (.bFmax b q d x y, 1, fun (u v : W64) => Fp.minmax true (Fp.ofBits u) (Fp.ofBits v))] : List (Instr × Nat × (W64 → W64 → W64))),
      completes e.1 s fun t =>
        (l.holds q = true → wrote s t b.val c d.val e.2.1 (e.2.2 (l.w x.val) (l.w y.val))) ∧ (l.holds q = false → skipped s t b.val c)

/-- Bobbin instructions with one register operand, or none: immediates, bit fields, conversions, FSQRT, LI, LSH and INS.
Where the manual leaves a point open it is the model's choice (log entries 88 and 89). -/
def Obligations.BobbinsComputeOnOneRegister : Prop :=
  ∀ (b : Fin 16) (q : Pq) (d x : RegIx) (imm : BitVec 12) (i17 : BitVec 17) (i16 : BitVec 16) (sh pos m : BitVec 6) (c : Nat) (s : State),
    pos.toNat + m.toNat < 64 →
    let l := (s.lane b.val).land c
    let n := m.toNat + 1
    (issuesAt s b.val q [x.val, d.val] c →
      ∀ e ∈ ([(.bAddi b q d x imm, 1, fun (u : W64) => u + imm.signExtend 64), (.bAndi b q d x imm, 1, fun (u : W64) => u &&& imm.setWidth 64),
          (.bOri b q d x imm, 1, fun (u : W64) => u ||| imm.setWidth 64), (.bXori b q d x imm, 1, fun (u : W64) => u ^^^ imm.setWidth 64),
          (.bSlli b q d x sh, 1, fun (u : W64) => u <<< sh.toNat), (.bSrli b q d x sh, 1, fun (u : W64) => u >>> sh.toNat),
          (.bSrai b q d x sh, 1, fun (u : W64) => BitVec.sshiftRight u sh.toNat),
          (.bExtu b q d x pos m, 1, fun (u : W64) => BitVec.ofNat 64 (u.toNat / 2 ^ pos.toNat % 2 ^ n)),
          (.bExts b q d x pos m, 1, fun (u : W64) => BitVec.ofInt 64 (signed n (u.toNat / 2 ^ pos.toNat % 2 ^ n))),
          (.bIns b q d x pos m, 1, fun (u : W64) => BitVec.ofNat 64
            ((l.w d.val).toNat / 2 ^ (pos.toNat + n) * 2 ^ (pos.toNat + n) + u.toNat % 2 ^ n * 2 ^ pos.toNat + (l.w d.val).toNat % 2 ^ pos.toNat)),
          (.bFsqrt b q d x, 12, fun (u : W64) => Fp.sqrt (Fp.ofBits u)), (.bFcvtf b q d x, 4, Fp.ofInt),
          (.bFcvti b q d x, 4, fun (u : W64) => Fp.toInt (Fp.ofBits u))] : List (Instr × Nat × (W64 → W64))),
        completes e.1 s fun t =>
          (l.holds q = true → wrote s t b.val c d.val e.2.1 (e.2.2 (l.w x.val))) ∧ (l.holds q = false → skipped s t b.val c)) ∧
    (issuesAt s b.val q [d.val] c →
      completes (.bLi b q d i17) s (fun t =>
        (l.holds q = true → wrote s t b.val c d.val 1 (i17.signExtend 64)) ∧ (l.holds q = false → skipped s t b.val c)) ∧
      completes (.bLsh b q d i16) s (fun t =>
        (l.holds q = true → wrote s t b.val c d.val 1 ((l.w d.val <<< 16) ||| i16.setWidth 64)) ∧ (l.holds q = false → skipped s t b.val c)))

/-- Predicate instructions: CMP, CMPI and FCMP compare, PLOG combines two predicates; p0 stays 1.
Where the manual leaves a point open it is the model's choice (log entries 88 and 89). -/
def Obligations.BobbinsDecidePredicates : Prop :=
  ∀ (b : Fin 16) (q : Pq) (pd pa pb : PredIx) (x y : RegIx) (i : BitVec 11) (c : Nat) (s : State),
    let l := (s.lane b.val).land c
    let u := l.w x.val
    let v := l.w y.val
    (issuesAt s b.val q [x.val, y.val, 32 + pd.val] c →
      ∀ e ∈ ([(.bCmp b q pd .eq x y, u == v), (.bCmp b q pd .ne x y, u != v), (.bCmp b q pd .lt x y, decide (u.toInt < v.toInt)),
          (.bCmp b q pd .ge x y, decide (v.toInt ≤ u.toInt)), (.bCmp b q pd .ltu x y, decide (u.toNat < v.toNat)),
          (.bCmp b q pd .geu x y, decide (v.toNat ≤ u.toNat)), (.bFcmp b q pd .eq x y, Fp.eq (Fp.ofBits u) (Fp.ofBits v)),
          (.bFcmp b q pd .lt x y, Fp.lt (Fp.ofBits u) (Fp.ofBits v)),
          (.bFcmp b q pd .le x y, Fp.ofBits u != .nan && Fp.ofBits v != .nan && !Fp.lt (Fp.ofBits v) (Fp.ofBits u)),
          (.bFcmp b q pd .un x y, Fp.ofBits u == .nan || Fp.ofBits v == .nan)] : List (Instr × Bool)),
        completes e.1 s fun t => (l.holds q = true → decided s t b.val c pd.val e.2) ∧ (l.holds q = false → skipped s t b.val c)) ∧
    (issuesAt s b.val q [x.val, 32 + pd.val] c →
      ∀ e ∈ ([(.bCmpi b q pd .eq x i, u == i.signExtend 64), (.bCmpi b q pd .ne x i, u != i.signExtend 64),
          (.bCmpi b q pd .lt x i, decide (u.toInt < i.toInt)), (.bCmpi b q pd .ge x i, decide (i.toInt ≤ u.toInt)),
          (.bCmpi b q pd .ltu x i, decide (u.toNat < (i.signExtend 64).toNat)),
          (.bCmpi b q pd .geu x i, decide ((i.signExtend 64).toNat ≤ u.toNat))] : List (Instr × Bool)),
        completes e.1 s fun t => (l.holds q = true → decided s t b.val c pd.val e.2) ∧ (l.holds q = false → skipped s t b.val c)) ∧
    (issuesAt s b.val q [32 + pa.val, 32 + pb.val, 32 + pd.val] c →
      ∀ e ∈ ([(.bPlog b q pd .and pa pb, l.p pa.val && l.p pb.val), (.bPlog b q pd .or pa pb, l.p pa.val || l.p pb.val),
          (.bPlog b q pd .xor pa pb, l.p pa.val != l.p pb.val), (.bPlog b q pd .andn pa pb, l.p pa.val && !l.p pb.val)] : List (Instr × Bool)),
        completes e.1 s fun t => (l.holds q = true → decided s t b.val c pd.val e.2) ∧ (l.holds q = false → skipped s t b.val c))

/-- Control. NOP only passes its cycle; SKIP leaves out the words it names; REP makes the words after it a body with its count; END, once every
result and store is done, ends the run clean: records committed and given to the next launch, CONSEC and MODE 0.
Where the manual leaves a point open it is the model's choice (log entries 88 and 89). -/
def Obligations.BobbinControlFlow : Prop :=
  (∀ (b : Fin 16) (q : Pq) (n : BitVec 14) (len : BitVec 8) (cnt : BitVec 14) (c : Nat) (s : State), issuesAt s b.val q [] c →
    let l := (s.lane b.val).land c
    completes (.bNop b q) s (fun t => skipped s t b.val c) ∧
    (l.holds q = true → l.loops = [] →
      completes (.bSkip b q n) s fun t =>
        issued s t b.val c 1 ∧ (t.lane b.val).pc = l.pc + 1 + n.toNat ∧ (t.lane b.val).loops = [] ∧ keeps l t b.val [] [] ∧ sameMemories s t) ∧
    (l.holds q = true →
      completes (.bRep b q len cnt) s fun t =>
        issued s t b.val c 1 ∧ (t.lane b.val).pc = l.pc + 1 ∧ (t.lane b.val).loops = ⟨l.pc + 1, l.pc + 2 + len.toNat, cnt.toNat + 1⟩ :: l.loops ∧
        keeps l t b.val [] [] ∧ sameMemories s t) ∧
    (l.holds q = false →
      completes (.bSkip b q n) s (fun t => skipped s t b.val c) ∧ completes (.bRep b q len cnt) s (fun t => skipped s t b.val c))) ∧
  (∀ (b : Fin 16) (q : Pq) (c : Nat) (s : State), s.running b.val = true →
    c = (s.lane b.val).ready.foldl (fun a e => Nat.max a e.2) (Nat.max (s.lane b.val).cyc (s.lane b.val).stDone) →
    c < s.bobBudget b.val →
    s.ltAfter ((s.lane b.val).started + c - s.raw) < s.leadAt * 65536 → ((s.lane b.val).land c).holds q = true →
    completes (.bEnd b q) s fun t =>
      t.bobState b.val = 1 ∧ t.rd (Rg.BOB_CYCLES_LAST b.val) = (c + 1) % 2 ^ 24 ∧
      (t.lane b.val).committed = some (s.lane b.val).records ∧ (t.lane b.val).out = (s.lane b.val).records ∧ (t.lane b.val).records = [] ∧
      t.fd (Rg.BOB_STATUS b.val) Fl.BOB_STATUS_CONSEC = 0 ∧ t.fd (Rg.BOB_STATUS b.val) Fl.BOB_STATUS_MODE = 0 ∧
      (∀ j, j ≠ b.val → t.lane j = s.lane j) ∧ sameMemories s t)

/-- Memory and emission. LD brings a private word after 2 cycles and ST stores one, big-endian, changing no other byte; SLD reads a signal of
the hoop before, as it was before the captures of the cycle, whose value and metadata come 20 cycles later, into a pair of registers; EMIT adds a record of eight registers under
its template.
Where the manual leaves a point open it is the model's choice (log entries 88 and 89). -/
def Obligations.BobbinMemoryAndEmission : Prop :=
  (∀ (b : Fin 16) (q : Pq) (d x : RegIx) (imm : BitVec 12) (c a : Nat) (s : State), issuesAt s b.val q [x.val, d.val] c → clean s → s.cyc.privOld = [] →
    let l := (s.lane b.val).land c
    l.holds q = true → a = (l.w x.val + 8 * imm.signExtend 64).toNat → a % 8 = 0 → a ≤ 65528 →
    completes (.bLd b q d x imm) s (fun t => wrote s t b.val c d.val 2 (BitVec.ofNat 64 (s.ramBe (Mm.priv + 0x10000 * b.val + a) 8))) ∧
    completes (.bSt b q d x imm) s (fun t =>
      issued s t b.val c 1 ∧ goesOn s t b.val ∧ keeps l t b.val [] [] ∧ t.ramBe (Mm.priv + 0x10000 * b.val + a) 8 = (l.w d.val).toNat ∧
      (t.lane b.val).stDone = c + 2 ∧
      (ramOnly s t (Mm.priv + 0x10000 * b.val + a) 8 ∨ ramOnly s.cycleEnd t (Mm.priv + 0x10000 * b.val + a) 8))) ∧
  (∀ (b : Fin 16) (q : Pq) (d x : RegIx) (imm : BitVec 12) (c : Nat) (s : State), issuesAt s b.val q [x.val, d.val, d.val + 1] c → clean s →
    (s.lane b.val).slices = [] → 2 ≤ d.val → s.sig.wait = [] →
    let l := (s.lane b.val).land c
    let i := (l.w x.val + imm.signExtend 64).toNat
    let e := ((s.advance ((s.lane b.val).started + c - s.raw)).sigBefore.sigRead (s.rdw Rg.HOOP_INDEX - 1) i).1
    l.holds q = true → i ≤ 65535 →
    completes (.bSld b q d x imm) s fun t =>
      issued s t b.val c 1 ∧ goesOn s t b.val ∧ keeps l t b.val [] [] ∧ sameMemories s t ∧
      (t.lane b.val).sld = l.sld ++ [⟨c + 20, d.val, e.value, BitVec.ofNat 64 (e.stamp.toNat + e.count * 2 ^ 32 + e.flags * 2 ^ 48)⟩] ∧
      sget (t.lane b.val).ready d.val 0 = c + 20 ∧ sget (t.lane b.val).slices (i % 16) 0 = c + 20) ∧
  (∀ (b : Fin 16) (w : SldWait) (s : State), (s.lane b.val).sld = [w] → 0 < w.reg →
    completes (.sldResult b) s fun t =>
      (t.lane b.val).w w.reg = w.value ∧ (t.lane b.val).w (w.reg + 1) = w.info ∧ (t.lane b.val).sld = [] ∧
      keeps (s.lane b.val) t b.val [w.reg, w.reg + 1] [] ∧ (∀ j, j ≠ b.val → t.lane j = s.lane j) ∧ sameMemories s t) ∧
  (∀ (b : Fin 16) (q : Pq) (f x : RegIx) (tmp : BitVec 12) (c : Nat) (s : State),
    issuesAt s b.val q (x.val :: (List.range 8).map (fun i => f.val + i)) c →
    let l := (s.lane b.val).land c
    let n := (l.w x.val + tmp.setWidth 64).toNat
    l.holds q = true → l.records.length < s.fd (Rg.BOB_EMIT_MAX b.val) Fl.BOB_EMIT_MAX_RECORDS → n ≤ 4095 → s.templateKind n < 3 →
    completes (.bEmit b q f x tmp) s fun t =>
      issued s t b.val c 4 ∧ goesOn s t b.val ∧ sameMemories s t ∧ (∀ r, (t.lane b.val).w r = l.w r) ∧
      (t.lane b.val).records = l.records ++ [⟨n, (List.range 8).map (fun i => l.w (f.val + i)), s.hoopIx⟩])

/-- Runs that end badly: the budget reached, a private address that is misaligned or too great (fault 1), a signal index beyond 65,535 (fault 3),
a private word with a double-bit error (fault 2, counted), a record too many (fault 4), a template that does not exist or is of KIND 3 (fault 5) stop
the bobbin as overruns.
Where the manual leaves a point open it is the model's choice (log entries 88 and 89). -/
def Obligations.BobbinOverruns : Prop :=
  (∀ (b : Fin 16) (s : State), s.running b.val = true → evRoom s 8 →
    s.ltAfter ((s.lane b.val).started + s.bobBudget b.val - s.raw) < s.leadAt * 65536 →
    completes (.bobbinBudgetExpiry b) s fun t => overran s t b.val 0 0 (s.bobBudget b.val) ∧ sameMemories s t) ∧
  (∀ (b : Fin 16) (q : Pq) (d x : RegIx) (imm : BitVec 12) (c : Nat) (s : State), issuesAt s b.val q [x.val, d.val] c → evRoom s 8 →
    let l := (s.lane b.val).land c
    let a := (l.w x.val + 8 * imm.signExtend 64).toNat
    l.holds q = true → a % 8 ≠ 0 ∨ 65528 < a →
    completes (.bLd b q d x imm) s (fun t => overran s t b.val 1 1 (c + 1) ∧ sameMemories s t) ∧
    completes (.bSt b q d x imm) s (fun t => overran s t b.val 1 1 (c + 1) ∧ sameMemories s t)) ∧
  (∀ (b : Fin 16) (q : Pq) (d x : RegIx) (imm : BitVec 12) (c : Nat) (s : State), issuesAt s b.val q [x.val, d.val] c → evRoom s 12 →
    let l := (s.lane b.val).land c
    let a := (l.w x.val + 8 * imm.signExtend 64).toNat
    l.holds q = true → a % 8 = 0 → a ≤ 65528 → s.isBad 6 (8192 * b.val + a / 8) = true → s.cyc.privOld = [] →
    completes (.bLd b q d x imm) s fun t => overran s t b.val 1 2 (c + 1) ∧ counted s t (Rg.BOB_CNT 7) ∧ counted s t (Rg.FLT_DBE 6)) ∧
  (∀ (b : Fin 16) (q : Pq) (d x : RegIx) (imm : BitVec 12) (c : Nat) (s : State), issuesAt s b.val q [x.val, d.val, d.val + 1] c → evRoom s 8 →
    (s.lane b.val).slices = [] → ((s.lane b.val).land c).holds q = true →
    65535 < (((s.lane b.val).land c).w x.val + imm.signExtend 64).toNat →
    completes (.bSld b q d x imm) s fun t => overran s t b.val 1 3 (c + 1) ∧ sameMemories s t) ∧
  (∀ (b : Fin 16) (q : Pq) (f x : RegIx) (tmp : BitVec 12) (c : Nat) (s : State),
    issuesAt s b.val q (x.val :: (List.range 8).map (fun i => f.val + i)) c → evRoom s 8 → ((s.lane b.val).land c).holds q = true →
    let m := s.fd (Rg.BOB_EMIT_MAX b.val) Fl.BOB_EMIT_MAX_RECORDS
    (m ≤ (s.lane b.val).records.length →
      completes (.bEmit b q f x tmp) s fun t => overran s t b.val 1 4 (c + 1) ∧ sameMemories s t) ∧
    (let n := (((s.lane b.val).land c).w x.val + tmp.setWidth 64).toNat
     (s.lane b.val).records.length < m → 4095 < n ∨ s.template n = none ∨ s.templateKind n = 3 →
      completes (.bEmit b q f x tmp) s fun t => overran s t b.val 1 5 (c + 1) ∧ sameMemories s t))

/-- EMIT_BUILD_START: time passes to the emit lead, once a hoop. With no bobbin in use nothing is built; the one record of bobbin 0 becomes a
frame of its template with the record's values, sent into the ground for the template's port with the launch time of R236, and is
counted.
Where the manual leaves a point open it is the model's choice (log entry 91). -/
def Obligations.EmitUnitBuilds : Prop :=
  (∀ s : State, s.forwarding = true → sound s → s.clk.built = false → (∀ b < 16, s.bobBudget b = 0) → (∀ b < 16, s.running b = false) →
    completes .emitBuildStart s fun t =>
      t.clk.built = true ∧ t.raw = (s.advanceTo s.leadAt).raw ∧ t.gnd = s.gnd ∧ (∀ b < 16, t.fd (Rg.BOB_STATUS b) Fl.BOB_STATUS_RECORDS = 0) ∧
      sameMemories s t) ∧
  (∀ (r : EmitRec) (a len : Nat) (s : State), s.forwarding = true → sound s → s.clk.built = false → (∀ b < 16, b ≠ 0 → s.bobBudget b = 0) →
    (∀ b < 16, b ≠ 0 → s.running b = false) → 0 < s.bobBudget 0 → s.bobState 0 = 1 → (s.lane 0).out = [r] → s.template r.template = some (a, len) →
    s.tplByte a 0 % 16 = 0 → s.tplPort a < 48 →
    let p := s.tplPort a
    let d := s.tplPlain a r.vals
    s.fd (Rg.BUF_LIMIT p (s.tplCls a)) Fl.BUF_LIMIT_LIMIT ≠ 0 → s.bit (Rg.BUF_QCFG p (s.tplCls a)) 0 = false →
    shareOcc s.copies 3 + cellsOf (d.length + 4) ≤ 64 * s.fd Rg.BUF_RESERVE Fl.BUF_RESERVE_EMIT → s.gnd.spread = [] → s.gnd.inj = [] →
    let u := s.advanceTo s.leadAt
    s.injFree 49 ≤ u.raw → noneDecided u → (∃ m < 8, u.iqLevel m (groupOf p) ≤ 56) →
    completes .emitBuildStart s fun t =>
      t.clk.built = true ∧ t.raw = u.raw ∧ (t.lane 0).out = [] ∧ t.fd (Rg.BOB_STATUS 0) Fl.BOB_STATUS_RECORDS = 1 ∧
      counted s t (Rg.BOB_CNT 8) ∧ sameMemories s t ∧
      ∃ x, t.gnd.flight = u.gndRun.gnd.flight ++ [x] ∧ x.copy.data = d ∧ x.copy.egress = p ∧ x.copy.cls = s.tplCls a ∧ x.copy.src = 49 ∧
        x.copy.launchV = true ∧ x.copy.launch = unsigned 48 (s.launchAt s.nextB a))

/-! ## The slow path, events and GPIO (R368 to R377) -/

/-- The slow path, the event ring and GPIO. SP_RX_WRITE puts the oldest copy, behind its descriptor, into the next slot of its ring; a ring
that is full or not in use counts it. SP_TX_DIRECT sends a sound descriptor's frame to its port, marks the descriptor done and passes it;
SP_TX_LOOKUP puts the frame before the parser, and admission ends the descriptor, with status 1 where it has taken a copy of the frame and
2 where not; both act when the rate of port 48 allows, and then hold that port for the frame and 20 bytes more; an unsound descriptor is
refused with status 3.
EVENT_RECORD_WRITE moves the next record to the ring once that accepts one, counts it lost at a full ring, and holds it while the ring does
not run. EVT_RING_ENABLE takes its value, and GPIO_OUT_WRITE too, but for the outputs that the boundary update of the same cycle has set.
Where the manual leaves a point open it is the model's choice (log entries 93, 94 and 123). -/
def Obligations.SlowPathAndEvents : Prop :=
  (∀ (f : Frame) (q : List Frame) (s : State), s.spQ = f :: q → s.egressOn = true → s.spRing f < 4 →
    let r := s.spRing f
    let size := 2 ^ s.fd (Rg.SYS_SP_RX_CFG r) Fl.SYS_SP_RX_CFG_LOG2
    let slot := 2048 * 2 ^ s.fd (Rg.SYS_SP_RX_CFG r) Fl.SYS_SP_RX_CFG_SLOT
    let w := s.rd (Rg.SYS_SP_RX_WR r) % size
    let a := s.rd (Rg.SYS_SP_RX_BASE r) + slot * w
    (s.flag (Rg.SYS_SP_RX_CFG r) Fl.SYS_SP_RX_CFG_EN = true → (w + 1) % size ≠ s.rd (Rg.SYS_SP_RX_RD r) % size → 64 + f.data.length ≤ slot →
      completes .spRxWrite s fun t =>
        t.mem a 64 = spDesc f false ∧ t.mem (a + 64) f.data.length = f.data ∧
        (∀ x, x < a ∨ a + 64 + f.data.length ≤ x → t.mem x 1 = s.mem x 1) ∧
        t.rd (Rg.SYS_SP_RX_WR r) = (w + 1) % size ∧ t.spQ = q ∧ counted s t (Rg.SYS_SP_CNT 0) ∧ t.sram = s.sram) ∧
    ((s.flag (Rg.SYS_SP_RX_CFG r) Fl.SYS_SP_RX_CFG_EN = false ∨ (w + 1) % size = s.rd (Rg.SYS_SP_RX_RD r) % size) →
      completes .spRxWrite s fun t =>
        t.spQ = q ∧ counted s t (Rg.SYS_SP_CNT 1) ∧ t.rd (Rg.SYS_SP_RX_WR r) = s.rd (Rg.SYS_SP_RX_WR r) ∧ sameMemories s t)) ∧
  (∀ (d : TxDesc) (s : State), s.forwarding = true → s.txOpen = none →
    let size := 2 ^ s.fd Rg.SYS_SP_TX_SIZE Fl.SYS_SP_TX_SIZE_LOG2
    let i := s.rd Rg.SYS_SP_TX_TAIL % size
    let a := s.rd Rg.SYS_SP_TX_BASE + 32 * i
    let passed (t : State) (status cnt : Nat) : Prop :=
      t.memLe (a + 10) 1 = status ∧ (∀ x, x ≠ a + 10 → t.mem x 1 = s.mem x 1) ∧ t.rd Rg.SYS_SP_TX_TAIL = (i + 1) % size ∧
      (d.irq = true → t.bit Rg.SYS_SP_INT_STATUS 1 = true) ∧ counted s t (Rg.SYS_SP_CNT cnt) ∧ sameRam s t
    let u := s.advanceRaw (s.injFree 48)
    i ≠ s.rd Rg.SYS_SP_TX_HEAD % size → s.txDesc a = d →
    (d.lookup = false → s.txOk d = true → s.inMgmt d.addr d.len = true → d.port < 24 → roomFor u d.port d.cls (d.len + 4) →
      completes .spTxDirect s fun t =>
        passed t 1 3 ∧ t.raw = u.raw ∧ t.injFree 48 = u.raw + u.wireTime 48 (d.len + 24) ∧
        ∃ x, t.gnd.flight = u.gndRun.gnd.flight ++ [x] ∧ x.copy.egress = d.port ∧ x.copy.cls = d.cls ∧ x.copy.data = s.mem d.addr d.len) ∧
    (d.lookup = true → s.txOk d = true → s.inMgmt d.addr d.len = true → s.gnd.inj = [] →
      completes .spTxLookup s fun t =>
        t.raw = u.raw ∧ t.gnd.flight = s.gnd.flight ∧ t.gnd.spread = s.gnd.spread ∧ t.rd Rg.SYS_SP_TX_TAIL = s.rd Rg.SYS_SP_TX_TAIL ∧
        t.injFree 48 = u.raw + u.wireTime 48 (d.len + 24) ∧ sameMemories s t ∧
        ∃ x, t.rxQ = s.rxQ ++ [x] ∧ x.src = 48 ∧ x.cls = d.cls ∧ x.data = s.mem d.addr d.len ∧ x.txDesc = a + 1) ∧
    (d.lookup = false → s.txOk d = false → completes .spTxDirect s fun t => passed t 3 5 ∧ t.gnd = s.gnd ∧ t.rxQ = s.rxQ)) ∧
  (∀ (f : Frame) (a : Nat) (s : State), s.forwarding = true → sound s → s.gnd.inj = [] → s.admQ = [f] → f.txDesc = a + 1 → f.stomp = false →
    (∀ g ∈ s.rxQ, g.txDesc = 0) → (∀ g ∈ s.copies, g.txDesc ≠ a + 1) →
    completes .frameAdmission s fun t =>
      let ok := t.copies.any (fun g => g.txDesc = a + 1)
      t.memLe (a + 10) 1 = (if ok then 1 else 2) ∧ (∀ x, x ≠ a + 10 → t.mem x 1 = s.mem x 1) ∧ t.admQ = [] ∧
      t.rd Rg.SYS_SP_TX_TAIL = (s.txTail + 1) % s.txSize ∧ counted s t (Rg.SYS_SP_CNT (if ok then 3 else 4)) ∧
      ((s.txDesc a).irq = true → t.bit Rg.SYS_SP_INT_STATUS 1 = true)) ∧
  (∀ (e : Ev) (q : List Ev) (s : State), s.flag Rg.SYS_EVT_CTRL Fl.SYS_EVT_CTRL_EN = true → s.ev.queue ≠ [] →
    let u := s.advanceRaw s.ev.freeAt
    let w := u.rd Rg.SYS_EVT_WR % u.evtSize
    let a := u.rd Rg.SYS_EVT_BASE + 16 * w
    u.ev.holding = [] → u.ev.queue = e :: q →
    (u.ev.lost = 0 → u.evtFull = false → u.inMgmt a 16 = true →
      completes .eventRecordWrite s fun t =>
        t.mem a 16 = e.le ∧ (∀ x, x < a ∨ a + 16 ≤ x → t.mem x 1 = s.mem x 1) ∧ t.rd Rg.SYS_EVT_WR = (w + 1) % u.evtSize ∧
        t.ev.queue = q ∧ t.raw = u.raw ∧ t.ev.freeAt = Nat.max u.raw u.ev.freeAt + 4 ∧ sameRegs (· = Rg.SYS_EVT_WR.addr) u t) ∧
    (u.evtFull = true →
      completes .eventRecordWrite s fun t =>
        counted u t Rg.SYS_EVT_LOST ∧ t.ev.lost = u.ev.lost + 1 ∧ t.ev.queue = q ∧ sameMemories u t ∧
        sameRegs (· = Rg.SYS_EVT_LOST.addr) u t)) ∧
  (∀ (e : Ev) (q : List Ev) (s : State), s.ev.queue = e :: q →
    (s.flag Rg.SYS_EVT_CTRL Fl.SYS_EVT_CTRL_EN = false → s.ev.holding.length < 64 →
      completes .eventRecordWrite s fun t =>
        t.ev.holding = s.ev.holding ++ [e] ∧ t.ev.queue = q ∧ t.regs = s.regs ∧ sameMemories s t)) ∧
  (∀ (v : Word) (s : State), s.coresRun = true →
    completes (.evtRingEnable v) s fun t =>
      t.flag Rg.SYS_EVT_CTRL Fl.SYS_EVT_CTRL_EN = v.getLsbD 0 ∧ sameRegs (· = Rg.SYS_EVT_CTRL.addr) s t ∧ t.ev = s.ev ∧ sameMemories s t) ∧
  (∀ (v : Word) (s : State), s.coresRun = true →
    completes (.gpioOutWrite v) s fun t =>
      (∀ k < 32, (t.rdw Rg.GPIO_OUT).getLsbD k =
        (match s.cyc.gpio with
         | some u => if u.1.getLsbD k then u.2.getLsbD k else v.getLsbD k
         | none => v.getLsbD k)) ∧
      sameRegs (· = Rg.GPIO_OUT.addr) s t ∧ sameMemories s t ∧
      (s.pins.gpioDriven = true → ∀ k < 32, (s.rdw Rg.GPIO_OE).getLsbD k = true → t.gpioIn.testBit k = (t.rdw Rg.GPIO_OUT).getLsbD k))

/-! ## The eyelet (R354 to R366) -/

/-- The eyelet answers its oldest request. STATUS: a STATUS datagram with its body, code 2 where the request carries a body. EXPORT: a
quarter of a page that is there, code 4 for one that is not, code 7 where the flash read fails, code 2 for a request out of form; an acknowledgement that passes every
check raises the acknowledged page, and one with another magic number, or whose key may not be used, is answered with code 3 and moves nothing.
ATTEST: message, tag and, with ATTEST_SIGN, the identity signature, for which it waits while the Ed448 engine serves another; code 3 where
the key may not be used. STAGE begins its operation on the slot that did
not supply the image, and answers BUSY while one runs. WARM_RESET is answered and noted, and 1 ms later the flush begins with cause 3.
Where the manual leaves a point open it is the model's choice (log entries 96 to 102, and 147). -/
def Obligations.EyeletServes : Prop :=
  (∀ (l : Nat) (r : EyeReq) (q : List EyeReq) (key : Bytes) (s : State), eyeReady (s.advance l) r q key → r.kind = 1 →
    completes (.eyeletStatus l) s fun t =>
      eyeAnswers (s.advance l) t q key 1 0 (if r.body = [] then 0 else 2) (s.advance l).statusBody ∧ sameMemories s t) ∧
  (∀ (l : Nat) (r : EyeReq) (q : List EyeReq) (key : Bytes) (s : State), eyeReady (s.advance l) r q key → r.kind = 4 → byteAt r.body 0 = 0 →
    let c := byteAt r.body 1
    let n := be r.body 4 4
    (r.body.length = 8 → c ≤ 3 → be r.body 2 2 = 0 → s.pins.ospiBad1.contains (n % s.storePages) = true →
      completes (.eyeletExportRead l) s fun t => eyeAnswers (s.advance l) t q key 4 0 7 [] ∧ sameMemories s t) ∧
    (r.body.length = 8 → c ≤ 3 → be r.body 2 2 = 0 → s.pins.ospiBad1.contains (n % s.storePages) = false → s.pageThere n = true →
      completes (.eyeletExportRead l) s fun t =>
        eyeAnswers (s.advance l) t q key 4 0 0 (beBytes 4 n ++ beBytes 1 c ++ zeros 3 ++ s.flash1 (s.pageAt n + 1024 * c) 1024) ∧ sameMemories s t) ∧
    (r.body.length = 8 → c ≤ 3 → be r.body 2 2 = 0 → s.pins.ospiBad1.contains (n % s.storePages) = false → s.pageThere n = false →
      completes (.eyeletExportRead l) s fun t => eyeAnswers (s.advance l) t q key 4 0 4 [] ∧ sameMemories s t) ∧
    (r.body.length ≠ 8 → completes (.eyeletExportRead l) s fun t => eyeAnswers (s.advance l) t q key 4 0 2 [] ∧ sameMemories s t)) ∧
  (∀ (l : Nat) (r : EyeReq) (q : List EyeReq) (key : Bytes) (s : State), eyeReady (s.advance l) r q key → r.kind = 4 → byteAt r.body 0 = 1 →
    r.body.length = 216 → be r.body 1 3 = 0 →
    let a := r.body.drop 4
    let page := be a 24 4
    (be a 0 4 = 0x4541434B → be a 4 2 = 1 → be a 6 2 = s.node → slice a 8 16 = s.deviceId → be a 28 4 = 0 → be a 210 2 = 0 →
      (page < s.appendPage ∨ (page = s.appendPage ∧ s.chain.opened = true)) → s.inRing page = true →
      be (s.flash1 (s.pageAt page) 12) 8 4 = page → shake512 (s.flash1 (s.pageAt page) 4032) = slice a 32 64 →
      (s.useCause 2 Master.sealUnit KeyOp.verify [4] = 0 →
        Ed.verify (s.keySlot 2).act.pub (a.take 96) (ascii "KD48-EXPORT-ACK") (slice a 96 114) = true →
        completes (.eyeletExportAck l) s fun t =>
          eyeAnswers (s.advance l) t q key 4 0 0 [] ∧ t.ackPage = Nat.max s.ackPage page ∧ sealCounted s t 10 ∧ sameMemories s t) ∧
      (s.useCause 2 Master.sealUnit KeyOp.verify [4] ≠ 0 →
        completes (.eyeletExportAck l) s fun t =>
          eyeAnswers (s.advance l) t q key 4 0 3 [] ∧ t.ackPage = s.ackPage ∧ sealCounted s t 11 ∧ counted s t (Rg.KEY_CNT 0) ∧
          sameMemories s t)) ∧
    (be a 0 4 ≠ 0x4541434B →
      completes (.eyeletExportAck l) s fun t =>
        eyeAnswers (s.advance l) t q key 4 0 3 [] ∧ t.ackPage = s.ackPage ∧ sealCounted s t 11 ∧ sameMemories s t)) ∧
  (∀ (l : Nat) (r : EyeReq) (q : List EyeReq) (key : Bytes) (s : State), eyeReady (s.advance l) r q key → r.kind = 5 → r.body.length = 32 →
    let k := s.fd Rg.KEY_CFG Fl.KEY_CFG_ATTEST_SLOT
    let sign := s.flag Rg.KEY_CFG Fl.KEY_CFG_ATTEST_SIGN
    let m := s.attestMsg r.body
    ((s.advance l).attestWaits = true → completes (.eyeletAttest l) s fun t => t = s.advance l) ∧
    ((s.advance l).attestWaits = false → s.useCause k Master.attest KeyOp.mac [2] = 0 → (sign = true → s.useCause 0 Master.attest KeyOp.sign [3] = 0) →
      completes (.eyeletAttest l) s fun t =>
        eyeAnswers (s.advance l) t q key 5 0 0 (m ++ kmac256 (s.keySlot k).act.mat m 32 (ascii "KD48-ATTEST") ++
          (if sign then Ed.sign (s.keySlot 0).act.mat m (ascii "KD48-ATTEST") else [])) ∧ sameMemories s t) ∧
    ((s.advance l).attestWaits = false → s.useCause k Master.attest KeyOp.mac [2] ≠ 0 →
      completes (.eyeletAttest l) s fun t => eyeAnswers (s.advance l) t q key 5 0 3 [] ∧ counted s t (Rg.KEY_CNT 0) ∧ sameMemories s t)) ∧
  (∀ (l : Nat) (r : EyeReq) (q : List EyeReq) (s : State), s.forwarding = true → s.eye.queue = r :: q → r.kind = 6 → 8 ≤ r.body.length →
    be r.body 2 2 = 0 → s.stg = none →
    let off := be r.body 4 4
    let data := r.body.drop 8
    (byteAt r.body 0 = 1 → off % 65536 = 0 → off < 0x1000000 → data = [] →
      completes (.eyeletStageErase l) s fun t => eyeStages s t q r 1 off data) ∧
    (byteAt r.body 0 = 2 → off % 256 = 0 → off + data.length ≤ 0x1000000 → data.length % 256 = 0 → 256 ≤ data.length → data.length ≤ 1024 →
      completes (.eyeletStageProgram l) s fun t => eyeStages s t q r 2 off data) ∧
    (byteAt r.body 0 = 3 → off ≤ 0x1000000 → data = [] → completes (.eyeletStageCheck l) s fun t => eyeStages s t q r 3 off data)) ∧
  (∀ (l : Nat) (r : EyeReq) (q : List EyeReq) (key : Bytes) (j : StageJob) (s : State), eyeReady (s.advance l) r q key → r.kind = 6 → r.body.length = 8 →
    be r.body 2 2 = 0 → byteAt r.body 0 = 3 → s.stg = some j →
    completes (.eyeletStageCheck l) s fun t =>
      eyeAnswers (s.advance l) t q key 1 0 1 (s.advance l).statusBody ∧ t.stg = some j ∧ sameMemories s t) ∧
  (∀ (l : Nat) (r : EyeReq) (q : List EyeReq) (key : Bytes) (s : State), eyeReady (s.advance l) r q key → r.kind = 7 →
    (r.body = beBytes 4 0x57525354 → s.pwr.eyeReset = none →
      completes (.eyeletWarmReset l) s fun t =>
        eyeAnswers (s.advance l) t q key 1 7 0 (s.advance l).statusBody ∧ t.pwr.eyeReset = some (s.advance l).raw ∧ t.pwr.phase = .run ∧ sameMemories s t) ∧
    (r.body ≠ beBytes 4 0x57525354 →
      completes (.eyeletWarmReset l) s fun t =>
        eyeAnswers (s.advance l) t q key 1 0 3 (s.advance l).statusBody ∧ t.pwr.eyeReset = s.pwr.eyeReset ∧ sameMemories s t)) ∧
  (∀ (n : Nat) (s : State), s.pwr.phase = .run → s.pwr.eyeReset = some n →
    completes .eyeletResetDelay s fun t =>
      t.pwr.phase = .flush ∧ t.pwr.flush = .warm ∧ t.pwr.cause = 3 ∧ t.pwr.flushAt = (s.advanceRaw (n + 1000000)).raw)

/-! ## The couching bridge (R260 to R281) -/

/-- The couching bridge. A READ or WRITE request that passes every check and finds no slot takes the lowest FREE one. Dispatch makes it
ACTIVE under the next generation and sends a READ on a T1S route; a route on a bus-off CAN port fails it with status 7. The last segment of
READ_RSP makes a READ READY with its data, WRITE_ACK makes a WRITE DONE, NEG_RSP fails a READ with status 5 and the far cause; an answer
that is not accepted is counted late. A timeout fails a READ with status 6, frees an orphan, and marks a WRITE's initiator; an expired
collection timer frees a slot, reporting what a read-sensitive region has lost. The start stall ends when its boundaries have passed.
Where the manual leaves a point open it is the model's choice (log entries 112 to 116). -/
def Obligations.BridgeServes : Prop :=
  (∀ (l : Nat) (f : Frame) (q : List Frame) (c : CopReq) (key rt : Bytes) (n : Nat) (s : State), brgHas (s.advance l) f q (.cop c) → copGood (s.advance l) c key →
    c.type = 1 → ((s.advance l).brgRoute c.addr).1 = some rt → routeCheck (some rt) c.addr c.len false = 0 → s.brgFreeSlot = some n →
    completes (.copReadRequest l) s fun t =>
      t.brgSlot n = ⟨1, c.init, c.tag, true, false, c.addr, c.len, [], rt, 0, 0, s.brg.order, s.hoopCount, 0⟩ ∧ otherSlots s t n ∧
      t.brgQ = q ∧ counted s t (Rg.BRG_CNT 0)) ∧
  (∀ (l : Nat) (f : Frame) (q : List Frame) (c : CopReq) (key rt : Bytes) (n : Nat) (s : State), brgHas (s.advance l) f q (.cop c) → copGood (s.advance l) c key →
    c.type = 4 → ((s.advance l).brgRoute c.addr).1 = some rt → routeCheck (some rt) c.addr c.len true = 0 → s.brgFreeSlot = some n →
    completes (.copWriteRequest l) s fun t =>
      t.brgSlot n = ⟨1, c.init, c.tag, true, true, c.addr, c.len, slice c.body 16 c.len, rt, 0, 0, s.brg.order, s.hoopCount, 0⟩ ∧
      otherSlots s t n ∧ t.brgQ = q ∧ counted s t (Rg.BRG_CNT 0)) ∧
  (∀ (n : Fin 256) (x : BrgSlot) (s : State), brgClear s → s.brgSlot n.val = x → x.st = 1 → x.write = false → x.init < 64 →
    s.flag Rg.BRG_STATUS Fl.BRG_STATUS_STALL = false → s.brgBlocked n.val = false →
    let gen := (s.brgGen n.val + 1) % 16
    (rtFmt x.route = 2 → isT1s (rtPort x.route) = true → roomFor s (rtPort x.route) (s.fd Rg.BRG_CFG Fl.BRG_CFG_REQ_CLASS) 64 → s.injFree 50 ≤ s.raw →
      completes (.brgDispatch n) s fun t =>
        t.brgSlot n.val = { x with st := 2, since := s.hoopCount, seg := 0 } ∧ t.brgGen n.val = gen ∧ otherSlots s t n.val ∧ sameMemories s t ∧
        ∃ y, t.gnd.flight = s.gndRun.gnd.flight ++ [y] ∧ y.copy.egress = rtPort x.route ∧ y.copy.brg = 1 + n.val + 256 * gen ∧
          y.copy.data = slice x.route 4 6 ++ beBytes 6 (s.rd64 Rg.BRG_MAC) ++ beBytes 2 (s.fd Rg.BRG_L2 Fl.BRG_L2_ETYPE) ++
            beBytes 1 (16 + gen) ++ beBytes 1 n.val ++ [128] ++ beBytes 3 (x.addr % 2 ^ 20) ++ beBytes 2 x.len) ∧
    (isCan (rtPort x.route) = true → s.busOff (rtPort x.route) = true →
      completes (.brgDispatch n) s fun t =>
        t.brgSlot n.val = { x with st := 3, status := 7, far := 0, data := [], since := s.hoopCount } ∧ otherSlots s t n.val ∧
        t.gnd = s.gnd ∧ t.regs = s.regs ∧ sameMemories s t)) ∧
  (∀ (l : Nat) (f : Frame) (q : List Frame) (m : Far) (x : BrgSlot) (s : State), brgHas (s.advance l) f q (.far m) → s.farMatch f m = true →
    s.brgSlot m.tag = x → x.st = 2 → x.init < 64 →
    (m.type = 2 → x.write = false → m.last = true → m.seg = x.seg → m.total = x.len → m.seg + 1 = cdiv x.len (rtCap x.route) →
      x.len - m.seg * rtCap x.route ≤ m.data.length →
      completes (.farReadRsp l) s fun t =>
        t.brgSlot m.tag = { x with
          st := 3, status := 0, data := x.data ++ m.data.take (x.len - m.seg * rtCap x.route), seg := x.seg + 1, since := s.hoopCount } ∧
        otherSlots s t m.tag ∧ t.brgQ = q ∧ sameMemories s t) ∧
    (m.type = 4 → x.write = true → m.seg = 0 → m.last = true → m.total = x.len →
      completes (.farWriteAck l) s fun t =>
        t.brgSlot m.tag = { x with st := 5, status := 0, since := s.hoopCount } ∧ otherSlots s t m.tag ∧ t.brgQ = q ∧ sameMemories s t) ∧
    (m.type = 5 → x.write = false → m.seg = 0 → m.last = true →
      completes (.farNegRsp l) s fun t =>
        t.brgSlot m.tag = { x with st := 3, status := 5, far := m.total, data := beBytes 2 m.total, since := s.hoopCount } ∧
        t.brgGen m.tag = (s.brgGen m.tag + 1) % 16 ∧ otherSlots s t m.tag ∧ t.brgQ = q ∧ counted s t (Rg.BRG_CNT 12) ∧ sameMemories s t)) ∧
  (∀ (l : Nat) (f : Frame) (q : List Frame) (m : Far) (s : State), brgHas (s.advance l) f q (.far m) → s.farMatch f m = false → m.type = 2 →
    completes (.farReadRsp l) s fun t =>
      counted s t (Rg.BRG_CNT 10) ∧ t.brg = s.brg ∧ t.brgQ = q ∧ sameMemories s t) ∧
  (∀ (n : Fin 256) (x : BrgSlot) (s : State), brgClear s → s.brgSlot n.val = x → x.init < 64 →
    x.since + rtTimeout x.route ≤ s.hoopCount →
    (x.st = 2 → x.write = false →
      completes (.brgTransactionTimeout n) s fun t =>
        t.brgSlot n.val = { x with st := 3, status := 6, far := 0, data := [], since := s.hoopCount } ∧
        t.brgGen n.val = (s.brgGen n.val + 1) % 16 ∧ otherSlots s t n.val ∧ counted s t (Rg.BRG_CNT 11) ∧ sameMemories s t) ∧
    (x.st = 2 → x.write = true → evRoom s 8 →
      completes (.brgTransactionTimeout n) s fun t =>
        t.brgSlot n.val = { x with st := 5, status := 6, far := 0, since := s.hoopCount } ∧
        t.fd (Rg.BRG_INIT_STATUS x.init) Fl.BRG_INIT_STATUS_FAILED = 1 ∧ t.fd (Rg.BRG_INIT_STATUS x.init) Fl.BRG_INIT_STATUS_CAUSE = 6 ∧
        counted s t (Rg.BRG_CNT 9) ∧ raised t 0x0B02 noPort (x.init + 6 * 2 ^ 8 + x.tag * 2 ^ 16 + x.addr * 2 ^ 32) ∧ t.brg.out = []) ∧
    (x.st = 6 →
      completes (.brgTransactionTimeout n) s fun t =>
        t.brgSlot n.val = brgSlotInit ∧ otherSlots s t n.val ∧ counted s t (Rg.BRG_CNT 11) ∧ sameMemories s t)) ∧
  (∀ (n : Fin 256) (x : BrgSlot) (s : State), brgClear s → s.brgSlot n.val = x →
    x.since + s.fd Rg.BRG_COLLECT Fl.BRG_COLLECT_TIMEOUT ≤ s.hoopCount →
    (x.st = 4 ∨ x.st = 5 →
      completes (.brgCollectExpiry n) s fun t => t.brgSlot n.val = brgSlotInit ∧ otherSlots s t n.val ∧ t.regs = s.regs ∧ sameMemories s t) ∧
    (x.st = 3 → x.status = 0 → rtSensitive x.route = true → x.init < 64 → evRoom s 8 →
      completes (.brgCollectExpiry n) s fun t =>
        t.brgSlot n.val = brgSlotInit ∧ counted s t (Rg.BRG_CNT 7) ∧ counted s t (Rg.BRG_CNT 8) ∧ t.bit Rg.BRG_INT_STATUS 1 = true ∧
        raised t 0x0B01 noPort (x.init + 12 * 2 ^ 8 + x.tag * 2 ^ 16 + x.addr * 2 ^ 32))) ∧
  (∀ s : State, s.flag Rg.BRG_STATUS Fl.BRG_STATUS_STALL = true →
    (s.brg.stall = 0 → completes .brgStartStallEnd s fun t =>
      t.flag Rg.BRG_STATUS Fl.BRG_STATUS_STALL = false ∧ t.brg = s.brg ∧ sameRegs (· = Rg.BRG_STATUS.addr) s t ∧ sameMemories s t) ∧
    (s.brg.stall ≠ 0 → completes .brgStartStallEnd s fun t => t = s))

/-! ## Keys and the firmware service (R282 to R304) -/

/-- Keys. A replacement that fits its slot begins verification, and one while another runs is refused; verified, it waits as PENDING for the
boundary, and failed it is counted and reported; an Ed448 one waits for its turn at the engine, and a cipher fault in an unwrap fails it. A destruction the slot allows waits for the boundary; one it does not allow is refused.
Zeroisation empties an orphan within its budget. The first working key a MACsec port needs is derived from its root by R301. The service
encrypts, decrypts with its tag checked, makes a MAC, and verifies; its end, for which a verification waits for its turn at the engine, writes
status, tag and output, and counts.
Where the manual leaves a point open it is the model's choice (log entries 23, 106 and 145 to 147). -/
def Obligations.KeysAndServices : Prop :=
  (∀ (k : Fin 256) (s : State), s.coresRun = true →
    (s.replaceCause k.val s.replBuf = 0 →
      completes (.keyReplace k) s fun t =>
        t.keys.job = some ⟨k.val, s.replBuf, s.hoopIx⟩ ∧ t.fd Rg.KEY_CMD_STATUS Fl.KEY_CMD_STATUS_BUSY = 1 ∧ t.keys.slots = s.keys.slots ∧
        sameRegs (· = Rg.KEY_CMD_STATUS.addr) s t ∧ sameMemories s t) ∧
    (s.keys.job.isSome = true →
      completes (.keyReplace k) s fun t =>
        keyEnded t 6 ∧ t.keys = s.keys ∧ sameRegs (· = Rg.KEY_CMD_STATUS.addr) s t ∧ sameMemories s t)) ∧
  (∀ (j : KeyJob) (s : State), s.keys.job = some j → ksType j.payload = 3 → s.edServes .replacement = false →
    completes .keyReplaceVerified s fun t => t = s) ∧
  (∀ (j : KeyJob) (s : State), s.keys.job = some j → clean s → (s.keySlot j.slot).st = 1 → ksSrc j.payload = 0 → ksType j.payload ≠ 3 →
    s.pairBad 3 = true → evRoom s 8 →
    completes .keyReplaceVerified s fun t =>
      t.keys.slots = s.keys.slots ∧ t.keys.job = none ∧ t.pairBad 3 = false ∧ counted s t (Rg.KEY_CNT 4) ∧ counted s t (Rg.KEY_CNT 2) ∧
      raised t 0x0C03 noPort (j.slot + 256 * 3) ∧ sameMemories s t) ∧
  (∀ (j : KeyJob) (s : State), s.keys.job = some j → clean s → (s.keySlot j.slot).st = 1 →
    (ksType j.payload = 3 → s.edServes .replacement = true) → (ksSrc j.payload = 0 → s.pairBad 3 = false) →
    (∀ h, s.replaceResult j = .ok h →
      completes .keyReplaceVerified s fun t =>
        t.keySlot j.slot = { s.keySlot j.slot with st := 5, pend := some h } ∧ (∀ k, k ≠ j.slot → t.keySlot k = s.keySlot k) ∧
        t.keys.job = none ∧ keyEnded t 0 ∧ t.fd Rg.KEY_CMD_STATUS Fl.KEY_CMD_STATUS_BUSY = 0 ∧ sameMemories s t) ∧
    (∀ c, s.replaceResult j = .error c → evRoom s 8 →
      completes .keyReplaceVerified s fun t =>
        t.keys.slots = s.keys.slots ∧ t.keys.job = none ∧ counted s t (Rg.KEY_CNT 2) ∧ raised t 0x0C03 noPort (j.slot + 256 * c) ∧
        t.fd Rg.KEY_CMD_STATUS Fl.KEY_CMD_STATUS_BUSY = 0 ∧ sameMemories s t)) ∧
  (∀ (k : Fin 256) (s : State), s.coresRun = true → clean s → (s.keySlot k.val).st = 1 → s.keys.job = none →
    (bitOf (byteAt (s.keySlot k.val).attr 7) 1 = true → ksWorld (s.keySlot k.val).attr = 1 →
      completes (.keyDestroy k) s fun t =>
        t.keySlot k.val = { s.keySlot k.val with st := 4 } ∧ (∀ j, j ≠ k.val → t.keySlot j = s.keySlot j) ∧ keyEnded t 0 ∧
        sameRegs (· = Rg.KEY_CMD_STATUS.addr) s t ∧ sameMemories s t) ∧
    (bitOf (byteAt (s.keySlot k.val).attr 7) 1 = false →
      completes (.keyDestroy k) s fun t =>
        keyEnded t 1 ∧ t.keys = s.keys ∧ sameRegs (· = Rg.KEY_CMD_STATUS.addr) s t ∧ sameMemories s t)) ∧
  (∀ (k : Fin 256) (s : State), clean s →
    ((s.keySlot k.val).st = 2 ∨ (s.keySlot k.val).st = 3 → s.derivesWait = false → s.mayWork 3 8 = true →
      completes (.keyZeroise k) s fun t =>
        t.keySlot k.val = slotInit ∧ (∀ j, j ≠ k.val → t.keySlot j = s.keySlot j) ∧ t.spent 3 = s.spent 3 + 8 ∧
        counted s t (Rg.KEY_CNT 3) ∧ sameMemories s t) ∧
    ((s.keySlot k.val).st = 1 → completes (.keyZeroise k) s fun t => t = s)) ∧
  (∀ (p : Fin 24) (rest : List (Bool × Nat)) (s : State), s.forwarding = true → s.msecOn p.val = true →
    let e := s.epochAt p.val s.hoopCount
    let root := s.fd (Rg.KEY_MSEC_CFG p.val) Fl.KEY_MSEC_CFG_ROOT_SLOT
    let m := kdf (s.keySlot root).act.mat (msecLabel s.node p.val (s.peerNode p.val) (s.peerPort p.val) e) (if s.msecXpn p.val then 44 else 32)
    s.msecNeeds p.val e = (true, e) :: rest → s.mayWork 3 120 = true → clean s →
    (s.useCause root Master.macsec KeyOp.derive [2] = 0 →
      completes (.macsecKeyDerive p) s fun t =>
        (t.msecP p.val).tx = some ⟨e, m.take 32, m.drop 32, 1, 1⟩ ∧ (t.msecP p.val).rx = (s.msecP p.val).rx ∧
        (∀ k, k ≠ p.val → t.msecP k = s.msecP k) ∧ t.spent 3 = s.spent 3 + 120 ∧
        t.fd (Rg.KEY_MSEC_STATUS p.val) Fl.KEY_MSEC_STATUS_NO_KEY = 0 ∧ sameMemories s t) ∧
    (s.useCause root Master.macsec KeyOp.derive [2] ≠ 0 →
      completes (.macsecKeyDerive p) s fun t =>
        t.keys = s.keys ∧ t.fd (Rg.KEY_MSEC_STATUS p.val) Fl.KEY_MSEC_STATUS_NO_KEY = 1 ∧ counted s t (Rg.KEY_CNT 0) ∧ sameMemories s t)) ∧
  (∀ (d : SvcDesc) (key : Bytes) (s : State), svcReady s d 1 → (s.gcmKey d).1 = some key → s.pairBad 3 = false →
    let ct := gcmCrypt key d.nonce (s.mem d.src d.srcLen)
    completes .svcGcmEncrypt s fun t => svcBegun s t d 1 ct (gcmTag key d.nonce (s.mem d.aad d.aadLen) ct)) ∧
  (∀ (d : SvcDesc) (key : Bytes) (s : State), svcReady s d 2 → (s.gcmKey d).1 = some key → s.pairBad 3 = false →
    let ct := s.mem d.src d.srcLen
    (gcmTag key d.nonce (s.mem d.aad d.aadLen) ct = d.tag →
      completes .svcGcmDecrypt s fun t => svcBegun s t d 1 (gcmCrypt key d.nonce ct) []) ∧
    (gcmTag key d.nonce (s.mem d.aad d.aadLen) ct ≠ d.tag → completes .svcGcmDecrypt s fun t => svcBegun s t d 3 [] [])) ∧
  (∀ (d : SvcDesc) (s : State), svcReady s d 3 → s.useCause d.slot Master.mgmt KeyOp.mac [2] = 0 →
    completes .svcKmac s fun t => svcBegun s t d 1 (kmac256 (s.keySlot d.slot).act.mat (s.mem d.src d.srcLen) d.outLen d.label) []) ∧
  (∀ (d : SvcDesc) (s : State), svcReady s d 4 → s.useCause d.slot Master.mgmt KeyOp.verify [4] = 0 →
    completes .svcEd448Verify s fun t =>
      svcBegun s t d (if Ed.verify (s.keySlot d.slot).act.pub (s.mem d.src d.srcLen) d.label (s.mem d.dst 114) then 1 else 3) [] []) ∧
  (∀ (j : SvcJob) (s : State), s.keys.svc = some j → s.inMgmt j.desc 128 = true → j.status < 256 → j.tag.length ≤ 16 →
    j.dest + j.out.length ≤ j.desc ∨ j.desc + 128 ≤ j.dest → (j.signs = true → s.edServes .service = true) →
    completes .svcDone s fun t =>
      t.keys.svc = none ∧ t.memLe (j.desc + 4) 1 = j.status ∧ t.mem (j.desc + 48) j.tag.length = j.tag ∧ t.mem j.dest j.out.length = j.out ∧
      (∀ x, x ≠ j.desc + 4 → x < j.desc + 48 ∨ j.desc + 48 + j.tag.length ≤ x → x < j.dest ∨ j.dest + j.out.length ≤ x →
        t.mem x 1 = s.mem x 1) ∧ t.sram = s.sram ∧ counted s t (Rg.KEY_CNT 7) ∧
      t.fd Rg.KEY_SVC_STATUS Fl.KEY_SVC_STATUS_DONE = 1 ∧ t.fd Rg.KEY_SVC_STATUS Fl.KEY_SVC_STATUS_BUSY = 0) ∧
  (∀ (j : SvcJob) (s : State), s.keys.svc = some j → j.signs = true → s.edServes .service = false → completes .svcDone s fun t => t = s)

/-! ## The seal unit (R305 to R329) -/

/-- The seal unit. The oldest evidence frame becomes the next record of the chain; at a full buffer it is refused and LEGAL_HALT asserted;
while a cause of LEGAL_HALT holds it is refused. A seal that the Ed448 engine has signed is complete in the buffer. A program moves the oldest record to the append
page, behind its header in a new one; a failed one closes the page and keeps the record. A block erase clears its block and no other. The
restart record opens an empty store at sequence 1. The tail seal of a flush covers what has been programmed since the seal before; none is made where
nothing has been, or while the key's use is refused.
Where the manual leaves a point open it is the model's choice (log entries 107, 109, 110 and 117). -/
def Obligations.SealUnit : Prop :=
  (∀ (f : Frame) (q : List Frame) (s : State), s.evQ = f :: q → s.flag Rg.IMG_STATUS Fl.IMG_STATUS_METRO_VALID = true → sound s →
    let tpl := f.evTempl % 64
    let p := s.evPayload f tpl
    let r := record 1 s.node s.nextSeq (f.ts / 65536) (f.tsTrust + (if p.2 then 4 else 0)) f.src (s.ramBe (Mm.evt + 256 * tpl + 1) 1) tpl p.1
    let h := shake512 (s.chainHead ++ r)
    (s.sealKeyOk = true → s.haltCauses = 0 → s.bufUsed + 4 ≤ 16384 → s.fd Rg.SEAL_TIMING Fl.SEAL_TIMING_COUNT = 0 →
      completes .evidenceForm s fun t =>
        t.chain.buf = s.chain.buf ++ [⟨r, false, true, s.nextSeq, h, s.chain.wr, false⟩] ∧ t.nextSeq = (s.nextSeq + 1) % 2 ^ 64 ∧
        t.chainHead = h ∧ t.evQ = q ∧ sealCounted s t 0 ∧ t.haltCauses = 0 ∧ sameMemories s t) ∧
    (s.sealKeyOk = true → s.haltCauses = 0 → 16384 < s.bufUsed + 3 →
      completes .evidenceForm s fun t =>
        t.chain = s.chain ∧ t.evQ = q ∧ t.haltCause 3 = true ∧ t.pins.legalHalt = true ∧ t.nextSeq = s.nextSeq ∧ sealCounted s t 2 ∧
        sameMemories s t) ∧
    (s.haltCause 2 = true →
      completes .evidenceForm s fun t =>
        t.chain = s.chain ∧ t.evQ = q ∧ t.nextSeq = s.nextSeq ∧ sealCounted s t 2 ∧ sameMemories s t)) ∧
  (∀ (pre : List ChainItem) (i : ChainItem) (s : State), s.signing = true → s.edServes .sealing = true → s.chain.buf = pre ++ [i] → i.signed = false →
    (∀ x ∈ pre, x.signed = true) → s.flag Rg.SEAL_MIRROR Fl.SEAL_MIRROR_EN = false → s.chain.due = false →
    completes .sealSigned s fun t =>
      t.chain.buf = pre ++ [{ i with
        bytes := i.bytes ++ Ed.sign (s.keySlot (s.fd Rg.SEAL_CFG Fl.SEAL_CFG_KEY_SLOT)).act.mat (i.bytes ++ s.metroDigest) (ascii "KD48-SEAL") ++ zeros 14,
        signed := true }] ∧ t.signing = false ∧ sealCounted s t 1 ∧ sameMemories s t) ∧
  (∀ s : State, s.signing = false ∨ s.edServes .sealing = false → completes .sealSigned s fun t => t = s) ∧
  (∀ (i : ChainItem) (rest : List ChainItem) (s : State), storeTakes s i rest →
    let page := s.pageAt s.appendPage
    let a := page + 64 + 128 * s.appendSlot
    (s.chain.opened = true →
      completes (.flashProgramComplete true) s fun t =>
        t.flash1 a 128 = i.bytes ∧ (∀ x, x < a ∨ a + 128 ≤ x → t.flash1 x 1 = s.flash1 x 1) ∧ t.chain.buf = rest ∧ t.chain.prog = i.seq ∧
        t.appendSlot = s.appendSlot + 1 ∧ t.appendPage = s.appendPage ∧ t.sram = s.sram ∧ t.mgmt = s.mgmt ∧ t.ospi0 = s.ospi0) ∧
    (s.chain.opened = false → s.appendPage % 16 ≠ 0 →
      completes (.flashProgramComplete true) s fun t =>
        t.flash1 page 64 = s.pageHeader s.appendPage ∧ t.flash1 a 128 = i.bytes ∧ t.chain.opened = true ∧ t.chain.buf = rest ∧
        t.appendSlot = s.appendSlot + 1 ∧ t.sram = s.sram ∧ t.mgmt = s.mgmt ∧ t.ospi0 = s.ospi0) ∧
    (s.chain.opened = true → evRoom s 8 →
      completes (.flashProgramComplete false) s fun t =>
        t.chain.buf = s.chain.buf ∧ t.appendPage = (s.appendPage + 1) % 2 ^ 32 ∧ t.appendSlot = 0 ∧ t.chain.opened = false ∧
        sealCounted s t 9 ∧ raised t 0x0D07 noPort (s.appendPage * 2 ^ 32) ∧
        (∀ x, x < a ∨ a + 128 ≤ x → t.flash1 x 1 = s.flash1 x 1))) ∧
  (∀ (k : Fin 4096) (s : State), k.val ∈ s.chain.again ∨ k.val ∈ s.chain.reclaim → s.chain.buf.length < 256 →
    s.chain.foreign = false → s.storeOn = true →
    completes (.blockEraseComplete k true) s (fun t =>
      (∀ x, t.flash1 x 1 = if x / 65536 = k.val then [erased] else s.flash1 x 1) ∧ k.val ∈ t.chain.erased ∧ k.val ∉ t.chain.again ∧
      k.val ∉ t.chain.reclaim ∧ sealCounted s t 8 ∧ t.sram = s.sram ∧ t.mgmt = s.mgmt ∧ t.ospi0 = s.ospi0) ∧
    (evRoom s 8 → completes (.blockEraseComplete k false) s fun t =>
      t.chain = s.chain ∧ sealCounted s t 9 ∧ raised t 0x0D07 noPort (1 + 16 * k.val * 2 ^ 32) ∧ sameMemories s t)) ∧
  (∀ s : State, s.pwr.phase = .run → s.flag Rg.SEAL_STATUS Fl.SEAL_STATUS_READY = false → s.chain.foreign = false →
    s.flag Rg.IMG_STATUS Fl.IMG_STATUS_METRO_VALID = true → s.ospi1 = [] → s.chain.kept = false →
    s.fd Rg.SEAL_TIMING Fl.SEAL_TIMING_COUNT = 0 → evRoom s 8 → clean s → s.sealKeyOk = true →
    completes .restartRecordForm s fun t =>
      t.nextSeq = 2 ∧ t.lastSealed = 0 ∧ t.appendPage = 0 ∧ t.appendSlot = 0 ∧
      (∃ i, t.chain.buf = s.chain.buf ++ [i] ∧ byteAt i.bytes 0 = 3 ∧ be i.bytes 4 6 = 1 ∧ t.chainHead = shake512 (s.chainZero ++ i.bytes)) ∧
      t.flag Rg.SEAL_STATUS Fl.SEAL_STATUS_READY = true ∧ t.flag Rg.SEAL_STATUS Fl.SEAL_STATUS_REBUILT = true ∧ t.haltCause 2 = false ∧
      raised t 0x0D05 noPort (1 + 2 ^ 48) ∧ sameMemories s t) ∧
  (∀ s : State, s.pwr.phase = .flush → s.pwr.flush ≠ .doze → s.pwr.flush ≠ .pfail → s.pwr.tailDone = false →
    s.chain.stopped = false → s.chain.buf.any (fun i => i.tail) = false →
    (s.chain.stored < s.chain.prog → s.chain.prog < 2 ^ 48 → s.chain.foreign = false → s.flag Rg.SEAL_STATUS Fl.SEAL_STATUS_READY = true →
      clean s → s.sealKeyOk = true →
      completes .tailSeal s fun t =>
        (∃ i, t.chain.buf = [i] ∧ i.isSeal = true ∧ i.tail = true ∧ i.signed = false ∧ be i.bytes 4 6 = s.chain.stored + 1 ∧
          be i.bytes 10 6 = s.chain.prog ∧ bitOf (byteAt i.bytes 30) 3 = true ∧ slice i.bytes 64 64 = slice s.chain.progHead 0 64) ∧
        t.signing = true ∧ t.lastSealed = s.chain.prog ∧ t.raw = (s.advanceRaw (s.pwr.flushAt + 4000000)).raw ∧ sameMemories s t) ∧
    (s.sealKeyOk = false → clean s → s.chain.foreign = false →
      completes .tailSeal s fun t =>
        t.chain.buf = [] ∧ t.chain.stopped = true ∧ t.pwr.tailDone = false ∧ t.lastSealed = s.lastSealed ∧ sameMemories s t) ∧
    (s.chain.prog ≤ s.chain.stored →
      completes .tailSeal s fun t => t.chain.buf = [] ∧ t.chain.stopped = true ∧ t.pwr.tailDone = false ∧ sameMemories s t))

/-! ## Headline results -/

/-- Every step keeps the canonical form of the memories, blows fuses only ever further, and takes exactly the front command from the queue. -/
def Obligations.EveryStepKeeps : Prop :=
  ∀ s t : State, step s = .next t → (Memory.wf s = true → Memory.wf t = true) ∧ otpGrows s.otp t.otp ∧ t.pending = s.pending.tail

/-- Words of bobbin instructions: the word of every well-formed instruction is decoded to that instruction, with every operand; and every word
that is decoded to an instruction is that instruction's only word, and the instruction is well-formed. -/
def Obligations.BobbinWordsAgree : Prop :=
  (∀ (i : Instr) (b : Fin 16) (w : Nat), i.wf = true → bobEnc i = some (b, w) → w < 2 ^ 32 ∧ bobWord b w = some i) ∧
  (∀ (b : Fin 16) (w : Nat) (i : Instr), w < 2 ^ 32 → bobWord b w = some i → i.wf = true ∧ bobEnc i = some (b, w))
end

