-- ==== Sys2Proof/Laws/Sparse.lean ====
section
/-! SUPPORT. The laws of sparse stores: a read after a write, and that every operation keeps the canonical form. -/

namespace Sys2Proof.Machine

variable {α : Type}

/-! ## A read after a write -/

theorem sget_serase_ne (l : List (Nat × α)) {j k : Nat} (d : α) (h : j ≠ k) : sget (serase l k) j d = sget l j d := by
  have h' : ¬k = j := fun c => h c.symm
  induction l with
  | nil => rfl
  | cons e t ih =>
    obtain ⟨i, v⟩ := e
    by_cases hk : i = k
    · simp [serase, sget, hk, ih, h']
    · simp [serase, sget, hk, ih]

theorem sget_serase_self (l : List (Nat × α)) (k : Nat) (d : α) : sget (serase l k) k d = d := by
  induction l with
  | nil => rfl
  | cons e t ih =>
    obtain ⟨i, v⟩ := e
    by_cases hk : i = k <;> simp [serase, sget, hk, ih]

theorem sget_sinsert_ne (l : List (Nat × α)) {j k : Nat} (d v : α) (h : j ≠ k) : sget (sinsert l k v) j d = sget l j d := by
  have h' : ¬k = j := fun c => h c.symm
  induction l with
  | nil => simp [sinsert, sget, h']
  | cons e t ih =>
    obtain ⟨i, w⟩ := e
    by_cases hk : k < i
    · simp [sinsert, hk, sget, h']
    · simp [sinsert, hk, sget, ih]

theorem sget_sinsert_self (l : List (Nat × α)) (k : Nat) (d v : α) : sget (sinsert (serase l k) k v) k d = v := by
  induction l with
  | nil => simp [serase, sinsert, sget]
  | cons e t ih =>
    obtain ⟨i, w⟩ := e
    by_cases hk : i = k
    · simp [serase, hk, ih]
    · by_cases hl : k < i <;> simp [serase, hk, sinsert, hl, sget, ih]

/-- A key reads as what was last written to it. -/
@[simp] theorem sget_sset_self [DecidableEq α] (l : List (Nat × α)) (k : Nat) (d v : α) : sget (sset l k d v) k d = v := by
  unfold sset
  split
  · next h => rw [sget_serase_self, h]
  · exact sget_sinsert_self l k d v

/-- A write leaves every other key alone. -/
theorem sget_sset_ne [DecidableEq α] (l : List (Nat × α)) {j k : Nat} (c d v : α) (h : j ≠ k) :
    sget (sset l k c v) j d = sget l j d := by
  unfold sset
  split
  · exact sget_serase_ne l d h
  · rw [sget_sinsert_ne _ _ _ h, sget_serase_ne l d h]

/-- A key outside the written range reads as before. -/
theorem sget_ssetN_out [DecidableEq α] (vs : List α) (l : List (Nat × α)) (a j : Nat) (c d : α) (h : j < a ∨ a + vs.length ≤ j) :
    sget (ssetN l a c vs) j d = sget l j d := by
  induction vs generalizing l a with
  | nil => rfl
  | cons v vs ih =>
    simp only [List.length_cons] at h
    rw [ssetN, ih _ _ (by omega), sget_sset_ne _ _ _ _ (by omega)]

/-- The written range reads as the values written. -/
theorem sget_ssetN_in [DecidableEq α] (vs : List α) (l : List (Nat × α)) (a i : Nat) (d : α) (h : i < vs.length) :
    sget (ssetN l a d vs) (a + i) d = vs[i] := by
  induction vs generalizing l a i with
  | nil => simp at h
  | cons v vs ih =>
    cases i with
    | zero =>
      rw [ssetN, Nat.add_zero, sget_ssetN_out _ _ _ _ _ _ (by omega)]
      simp
    | succ i =>
      have := ih (sset l a d v) (a + 1) i (by simpa using h)
      rw [ssetN, show a + (i + 1) = a + 1 + i by omega, this]
      rfl

@[simp] theorem sgetN_length (l : List (Nat × α)) (a : Nat) (d : α) (n : Nat) : (sgetN l a d n).length = n := by
  induction n generalizing a with
  | zero => rfl
  | succ n ih => simp [sgetN, ih]

theorem sgetN_getElem (l : List (Nat × α)) (a : Nat) (d : α) (n i : Nat) (h : i < (sgetN l a d n).length) :
    (sgetN l a d n)[i] = sget l (a + i) d := by
  induction n generalizing a i with
  | zero => simp [sgetN] at h
  | succ n ih =>
    cases i with
    | zero => simp [sgetN]
    | succ i =>
      simp only [sgetN, List.getElem_cons_succ]
      rw [ih]
      congr 1
      omega

/-- A string written and read back. -/
@[simp] theorem sgetN_ssetN_self [DecidableEq α] (vs : List α) (l : List (Nat × α)) (a : Nat) (d : α) :
    sgetN (ssetN l a d vs) a d vs.length = vs := by
  apply List.ext_getElem (by simp)
  intro i h1 h2
  rw [sgetN_getElem, sget_ssetN_in _ _ _ _ _ h2]

/-- A string read outside the written range is as before. -/
theorem sgetN_ssetN_out [DecidableEq α] (vs : List α) (l : List (Nat × α)) (a b n : Nat) (d : α) (h : b + n ≤ a ∨ a + vs.length ≤ b) :
    sgetN (ssetN l a d vs) b d n = sgetN l b d n := by
  apply List.ext_getElem (by simp)
  intro i h1 h2
  simp only [sgetN_length] at h1
  rw [sgetN_getElem, sgetN_getElem, sget_ssetN_out _ _ _ _ _ _ (by omega)]

/-! ## The canonical form -/

/-- Every key of the list is at least `a`. -/
def sabove (a : Nat) (l : List (Nat × α)) : Prop := ∀ e ∈ l, a ≤ e.1

theorem srising_cons {e : Nat × α} {t : List (Nat × α)} : srising (e :: t) = true ↔ sabove (e.1 + 1) t ∧ srising t = true := by
  induction t generalizing e with
  | nil => simp [srising, sabove]
  | cons f t ih =>
    obtain ⟨j, v⟩ := e
    obtain ⟨k, w⟩ := f
    simp only [srising, Bool.and_eq_true, decide_eq_true_eq]
    constructor
    · intro ⟨h1, h2⟩
      refine ⟨?_, h2⟩
      have := (ih.mp h2).1
      intro e he
      rcases List.mem_cons.mp he with rfl | he
      · exact h1
      · have := this e he; simp at this ⊢; omega
    · intro ⟨h1, h2⟩
      exact ⟨h1 (k, w) (by simp), h2⟩

theorem mem_serase {l : List (Nat × α)} {k : Nat} {e : Nat × α} (h : e ∈ serase l k) : e ∈ l ∧ e.1 ≠ k := by
  induction l with
  | nil => simp [serase] at h
  | cons f t ih =>
    obtain ⟨j, v⟩ := f
    by_cases hk : j = k
    · simp [serase, hk] at h
      exact ⟨List.mem_cons_of_mem _ (ih h).1, (ih h).2⟩
    · simp [serase, hk] at h
      rcases h with rfl | h
      · exact ⟨by simp, hk⟩
      · exact ⟨List.mem_cons_of_mem _ (ih h).1, (ih h).2⟩

theorem mem_sinsert {l : List (Nat × α)} {k : Nat} {v : α} {e : Nat × α} (h : e ∈ sinsert l k v) : e = (k, v) ∨ e ∈ l := by
  induction l with
  | nil => simpa [sinsert] using h
  | cons f t ih =>
    obtain ⟨j, w⟩ := f
    by_cases hk : k < j
    · simpa [sinsert, hk] using h
    · simp [sinsert, hk] at h
      rcases h with rfl | h
      · simp
      · rcases ih h with h | h
        · exact .inl h
        · exact .inr (List.mem_cons_of_mem _ h)

theorem srising_serase {l : List (Nat × α)} (k : Nat) (h : srising l = true) : srising (serase l k) = true := by
  induction l with
  | nil => rfl
  | cons e t ih =>
    obtain ⟨j, v⟩ := e
    have ht := srising_cons.mp h
    by_cases hk : j = k
    · simpa [serase, hk] using ih ht.2
    · simp only [serase, hk, if_false]
      exact srising_cons.mpr ⟨fun e he => ht.1 e (mem_serase he).1, ih ht.2⟩

theorem srising_sinsert {l : List (Nat × α)} {k : Nat} (v : α) (h : srising l = true) (hk : ∀ e ∈ l, e.1 ≠ k) :
    srising (sinsert l k v) = true := by
  induction l with
  | nil => rfl
  | cons e t ih =>
    obtain ⟨j, w⟩ := e
    have ht := srising_cons.mp h
    have hj : j ≠ k := hk (j, w) (by simp)
    by_cases hl : k < j
    · simp only [sinsert, hl, if_true]
      refine srising_cons.mpr ⟨?_, h⟩
      intro e he
      rcases List.mem_cons.mp he with rfl | he
      · exact hl
      · have := ht.1 e he; simp at this ⊢; omega
    · simp only [sinsert, hl, if_false]
      refine srising_cons.mpr ⟨?_, ih ht.2 (fun e he => hk e (List.mem_cons_of_mem _ he))⟩
      intro e he
      rcases mem_sinsert he with rfl | he
      · simp; omega
      · exact ht.1 e he

theorem swf_iff [DecidableEq α] {l : List (Nat × α)} {d : α} : swf l d = true ↔ srising l = true ∧ ∀ e ∈ l, e.2 ≠ d := by
  simp [swf]

/-- A write keeps the canonical form. -/
theorem swf_sset [DecidableEq α] {l : List (Nat × α)} {d : α} (k : Nat) (v : α) (h : swf l d = true) : swf (sset l k d v) d = true := by
  rw [swf_iff] at h ⊢
  unfold sset
  split
  · exact ⟨srising_serase k h.1, fun e he => h.2 e (mem_serase he).1⟩
  · next hv =>
    refine ⟨srising_sinsert v (srising_serase k h.1) (fun e he => (mem_serase he).2), ?_⟩
    intro e he
    rcases mem_sinsert he with rfl | he
    · exact hv
    · exact h.2 e (mem_serase he).1

/-- A write of a string keeps the canonical form. -/
theorem swf_ssetN [DecidableEq α] (vs : List α) {l : List (Nat × α)} {d : α} (a : Nat) (h : swf l d = true) :
    swf (ssetN l a d vs) d = true := by
  induction vs generalizing l a with
  | nil => exact h
  | cons v vs ih => exact ih _ (swf_sset a v h)

theorem snew_range [DecidableEq α] (vs : List α) (a : Nat) (d : α) : ∀ e ∈ snew a d vs, (a ≤ e.1 ∧ e.1 < a + vs.length) ∧ e.2 ≠ d := by
  induction vs generalizing a with
  | nil => simp [snew]
  | cons v vs ih =>
    intro e he
    by_cases hv : v = d
    · simp only [snew, hv, if_true] at he
      have := ih (a + 1) e he
      simp only [List.length_cons]
      exact ⟨by omega, this.2⟩
    · simp only [snew, hv, if_false, List.mem_cons] at he
      rcases he with rfl | he
      · exact ⟨by simp, hv⟩
      · have := ih (a + 1) e he
        simp only [List.length_cons]
        exact ⟨by omega, this.2⟩

theorem srising_snew [DecidableEq α] (vs : List α) (a : Nat) (d : α) : srising (snew a d vs) = true := by
  induction vs generalizing a with
  | nil => rfl
  | cons v vs ih =>
    by_cases hv : v = d
    · simpa [snew, hv] using ih (a + 1)
    · simp only [snew, hv, if_false]
      exact srising_cons.mpr ⟨fun e he => (snew_range vs (a + 1) d e he).1.1, ih (a + 1)⟩

theorem srising_append {l r : List (Nat × α)} {a : Nat} (hl : srising l = true) (hr : srising r = true) (h1 : ∀ e ∈ l, e.1 < a)
    (h2 : sabove a r) : srising (l ++ r) = true := by
  induction l with
  | nil => simpa using hr
  | cons e t ih =>
    have ht := srising_cons.mp hl
    simp only [List.cons_append]
    refine srising_cons.mpr ⟨?_, ih ht.2 (fun e he => h1 e (List.mem_cons_of_mem _ he))⟩
    intro f hf
    rcases List.mem_append.mp hf with hf | hf
    · exact ht.1 f hf
    · have := h2 f hf; have := h1 e (by simp); omega

theorem srising_filter {l : List (Nat × α)} (p : Nat × α → Bool) (h : srising l = true) : srising (l.filter p) = true := by
  induction l with
  | nil => rfl
  | cons e t ih =>
    have ht := srising_cons.mp h
    simp only [List.filter]
    split
    · exact srising_cons.mpr ⟨fun f hf => ht.1 f (List.mem_filter.mp hf).1, ih ht.2⟩
    · exact ih ht.2

/-- A write of a long string keeps the canonical form. -/
theorem swf_sfill [DecidableEq α] {l : List (Nat × α)} {d : α} (a : Nat) (vs : List α) (h : swf l d = true) :
    swf (sfill l a d vs) d = true := by
  rw [swf_iff] at h ⊢
  unfold sfill
  constructor
  · refine srising_append (a := a + vs.length) (srising_append (a := a) (srising_filter _ h.1) (srising_snew vs a d) ?_ ?_)
      (srising_filter _ h.1) ?_ ?_
    · intro e he; simpa using (List.mem_filter.mp he).2
    · intro e he; exact (snew_range vs a d e he).1.1
    · intro e he
      rcases List.mem_append.mp he with he | he
      · have : e.1 < a := by simpa using (List.mem_filter.mp he).2
        omega
      · exact (snew_range vs a d e he).1.2
    · intro e he; simpa using (List.mem_filter.mp he).2
  · intro e he
    simp only [List.mem_append, List.mem_filter] at he
    rcases he with (he | he) | he
    · exact h.2 e he.1
    · exact (snew_range vs a d e he).2
    · exact h.2 e he.1

end Sys2Proof.Machine
end

