-- ==== Sys2Proof/Laws/Regs.lean ====
section
/-! SUPPORT. The laws of registers and memories: what is read after a write, and what a write leaves alone. -/

namespace Sys2Proof.Machine

/-! ## Whole registers -/

@[simp] theorem rdw_wr_self (s : State) (r : Reg) (v : Nat) : (s.wr r v).rdw r = BitVec.ofNat 32 v := by
  simp [State.wr, State.rdw]

theorem rdw_wr_ne (s : State) {q r : Reg} (v : Nat) (h : q.addr ≠ r.addr) : (s.wr r v).rdw q = s.rdw q := by
  simp [State.wr, State.rdw, sget_sset_ne _ _ _ _ h]

@[simp] theorem rd_wr_self (s : State) (r : Reg) (v : Nat) : (s.wr r v).rd r = v % 2 ^ 32 := by
  simp [State.rd]

theorem rd_wr_ne (s : State) {q r : Reg} (v : Nat) (h : q.addr ≠ r.addr) : (s.wr r v).rd q = s.rd q := by
  simp [State.rd, rdw_wr_ne s v h]

theorem rd_lt (s : State) (r : Reg) : s.rd r < 2 ^ 32 := (s.rdw r).isLt

@[simp] theorem regWord_addr (r : Reg) (k : Nat) : (regWord r k).addr = r.addr + 4 * k := by
  unfold regWord
  split
  · next h => simp [h]
  · rfl

@[simp] theorem rd64_wr64_self (s : State) (r : Reg) (v : Nat) : (s.wr64 r v).rd64 r = v % 2 ^ 64 := by
  have h : r.addr ≠ (regWord r 1).addr := by simp
  simp only [State.rd64, State.wr64, rd_wr_ne _ _ h, rd_wr_self]
  omega

theorem rd_wr64_ne (s : State) {q r : Reg} (v : Nat) (h : q.addr ≠ r.addr) (h4 : q.addr ≠ r.addr + 4) :
    (s.wr64 r v).rd q = s.rd q := by
  simp only [State.wr64]
  rw [rd_wr_ne _ _ (by simpa using h4), rd_wr_ne _ _ h]

/-! ## Fields -/

theorem withField_lt {v x : Nat} {f : Fld} (hv : v < 2 ^ 32) (hf : f.lo + f.width ≤ 32) : withField v f x < 2 ^ 32 := by
  obtain ⟨lo, w⟩ := f
  simp only [withField] at hf ⊢
  have h1 : v % 2 ^ lo < 2 ^ lo := Nat.mod_lt _ (Nat.two_pow_pos _)
  have h2 : x % 2 ^ w < 2 ^ w := Nat.mod_lt _ (Nat.two_pow_pos _)
  have h3 : (x % 2 ^ w + 1) * 2 ^ lo ≤ 2 ^ w * 2 ^ lo := Nat.mul_le_mul_right _ h2
  have h4 : 2 ^ (lo + w) = 2 ^ w * 2 ^ lo := by rw [Nat.pow_add, Nat.mul_comm]
  have h5 : 2 ^ 32 = 2 ^ (32 - (lo + w)) * 2 ^ (lo + w) := by rw [← Nat.pow_add]; congr 1; omega
  have h6 : v / 2 ^ (lo + w) < 2 ^ (32 - (lo + w)) := by
    rw [Nat.div_lt_iff_lt_mul (Nat.two_pow_pos _), ← h5]; exact hv
  have h7 : (v / 2 ^ (lo + w) + 1) * 2 ^ (lo + w) ≤ 2 ^ (32 - (lo + w)) * 2 ^ (lo + w) := Nat.mul_le_mul_right _ h6
  rw [Nat.add_mul, Nat.one_mul] at h3 h7
  omega

theorem fieldOf_withField_self (v x : Nat) (f : Fld) : fieldOf (withField v f x) f = x % 2 ^ f.width := by
  obtain ⟨lo, w⟩ := f
  simp only [fieldOf, withField]
  have h1 : v % 2 ^ lo < 2 ^ lo := Nat.mod_lt _ (Nat.two_pow_pos _)
  have h4 : 2 ^ (lo + w) = 2 ^ w * 2 ^ lo := by rw [Nat.pow_add, Nat.mul_comm]
  have : v / 2 ^ (lo + w) * 2 ^ (lo + w) + x % 2 ^ w * 2 ^ lo + v % 2 ^ lo
      = (v / 2 ^ (lo + w) * 2 ^ w + x % 2 ^ w) * 2 ^ lo + v % 2 ^ lo := by
    rw [h4, Nat.add_mul, Nat.mul_assoc]
  rw [this, Nat.add_comm, Nat.add_mul_div_right _ _ (Nat.two_pow_pos _), Nat.div_eq_of_lt h1, Nat.zero_add, Nat.add_comm,
    Nat.add_mul_mod_self_right, Nat.mod_mod]

/-- A field below or above the one written reads as before. -/
theorem fieldOf_withField_ne (v x : Nat) (f g : Fld) (h : g.lo + g.width ≤ f.lo ∨ f.lo + f.width ≤ g.lo) :
    fieldOf (withField v f x) g = fieldOf v g := by
  obtain ⟨lo, w⟩ := f
  obtain ⟨l, u⟩ := g
  simp only at h
  simp only [fieldOf]
  apply Nat.eq_of_testBit_eq
  intro i
  simp only [Nat.testBit_mod_two_pow, Nat.testBit_div_two_pow]
  by_cases hi : i < u
  · simp only [hi, decide_true, Bool.true_and]
    simp only [withField]
    have e1 : v % 2 ^ lo < 2 ^ lo := Nat.mod_lt _ (Nat.two_pow_pos _)
    have e2 : x % 2 ^ w < 2 ^ w := Nat.mod_lt _ (Nat.two_pow_pos _)
    have e4 : 2 ^ (lo + w) = 2 ^ w * 2 ^ lo := by rw [Nat.pow_add, Nat.mul_comm]
    rcases h with h | h
    · have : v / 2 ^ (lo + w) * 2 ^ (lo + w) + x % 2 ^ w * 2 ^ lo + v % 2 ^ lo
          = 2 ^ lo * (v / 2 ^ (lo + w) * 2 ^ w + x % 2 ^ w) + v % 2 ^ lo := by
        rw [e4, Nat.mul_add, ← Nat.mul_assoc, Nat.mul_comm (2 ^ lo) (x % 2 ^ w), Nat.mul_comm (2 ^ lo), Nat.mul_assoc]
      rw [this, Nat.testBit_two_pow_mul_add _ e1]
      have hl : i + l < lo := by omega
      simp [hl, Nat.testBit_mod_two_pow]
    · have e3 : x % 2 ^ w * 2 ^ lo + v % 2 ^ lo < 2 ^ (lo + w) := by
        have : (x % 2 ^ w + 1) * 2 ^ lo ≤ 2 ^ w * 2 ^ lo := Nat.mul_le_mul_right _ e2
        rw [Nat.add_mul, Nat.one_mul] at this
        omega
      have : v / 2 ^ (lo + w) * 2 ^ (lo + w) + x % 2 ^ w * 2 ^ lo + v % 2 ^ lo
          = 2 ^ (lo + w) * (v / 2 ^ (lo + w)) + (x % 2 ^ w * 2 ^ lo + v % 2 ^ lo) := by
        rw [Nat.mul_comm, Nat.add_assoc]
      rw [this, Nat.testBit_two_pow_mul_add _ e3]
      have hl : ¬ i + l < lo + w := by omega
      simp only [hl, if_false, Nat.testBit_div_two_pow]
      congr 1
      omega
  · simp [hi]

/-- A field of a register just written. -/
theorem fd_sf_self (s : State) (r : Reg) (f : Fld) (x : Nat) (h : f.lo % 32 + f.width ≤ 32) : (s.sf r f x).fd r f = x % 2 ^ f.width := by
  simp only [State.sf, State.fd, rd_wr_self]
  rw [Nat.mod_eq_of_lt (withField_lt (rd_lt _ _) h), fieldOf_withField_self]

/-- Another field of the same word. -/
theorem fd_sf_ne (s : State) (r : Reg) (f g : Fld) (x : Nat) (hf : f.lo + f.width ≤ 32) (hg : g.lo + g.width ≤ 32)
    (h : g.lo + g.width ≤ f.lo ∨ f.lo + f.width ≤ g.lo) (h0 : 0 < f.width) (h1 : 0 < g.width) : (s.sf r f x).fd r g = s.fd r g := by
  have a : f.lo / 32 = 0 := by omega
  have b : g.lo / 32 = 0 := by omega
  have c : f.lo % 32 = f.lo := by omega
  have d : g.lo % 32 = g.lo := by omega
  simp only [State.sf, State.fd, a, b, c, d, rd_wr_self]
  rw [Nat.mod_eq_of_lt (withField_lt (rd_lt _ _) hf), fieldOf_withField_ne _ _ _ _ h]

/-- A field of another register. -/
theorem rd_sf_ne (s : State) {q r : Reg} (f : Fld) (x : Nat) (h : q.addr ≠ r.addr + 4 * (f.lo / 32)) : (s.sf r f x).rd q = s.rd q := by
  unfold State.sf
  exact rd_wr_ne _ _ (by simpa using h)

theorem fd_wr_self (s : State) (r : Reg) (f : Fld) (v : Nat) (h : f.lo < 32) : (s.wr r v).fd r f = fieldOf (v % 2 ^ 32) f := by
  have a : f.lo / 32 = 0 := by omega
  have b : f.lo % 32 = f.lo := by omega
  simp [State.fd, a, b, regWord]

theorem fd_wr_ne (s : State) {q r : Reg} (f : Fld) (v : Nat) (h : q.addr + 4 * (f.lo / 32) ≠ r.addr) : (s.wr r v).fd q f = s.fd q f := by
  unfold State.fd
  rw [rd_wr_ne _ _ (by simpa using h)]

/-! ## Memories -/

@[simp] theorem ram_setRam_self (s : State) (a : Nat) (b : Bytes) : (s.setRam a b).ram a b.length = b := by
  simp [State.setRam, State.ram]

theorem ram_setRam_out (s : State) (a c n : Nat) (b : Bytes) (h : c + n ≤ a ∨ a + b.length ≤ c) : (s.setRam a b).ram c n = s.ram c n := by
  simp [State.setRam, State.ram, sgetN_ssetN_out _ _ _ _ _ _ h]

@[simp] theorem mem_setMem_self (s : State) (a : Nat) (b : Bytes) : (s.setMem a b).mem a b.length = b := by
  simp [State.setMem, State.mem]

theorem mem_setMem_out (s : State) (a c n : Nat) (b : Bytes) (h : c + n ≤ a ∨ a + b.length ≤ c) : (s.setMem a b).mem c n = s.mem c n := by
  simp [State.setMem, State.mem, sgetN_ssetN_out _ _ _ _ _ _ h]

/-! ## The canonical form of the memories -/

/-- The memories after a reset hold nothing. -/
theorem reset_wf : Memory.wf State.reset = true := by decide

theorem wf_wr {s : State} (r : Reg) (v : Nat) (h : Memory.wf s = true) : Memory.wf (s.wr r v) = true := h

theorem wf_setRam {s : State} (a : Nat) (b : Bytes) (h : Memory.wf s = true) : Memory.wf (s.setRam a b) = true := by
  simp only [Memory.wf, Bool.and_eq_true] at h ⊢
  exact ⟨⟨⟨swf_ssetN b a h.1.1.1, h.1.1.2⟩, h.1.2⟩, h.2⟩

theorem wf_setMem {s : State} (a : Nat) (b : Bytes) (h : Memory.wf s = true) : Memory.wf (s.setMem a b) = true := by
  simp only [Memory.wf, Bool.and_eq_true] at h ⊢
  exact ⟨⟨⟨h.1.1.1, swf_ssetN b a h.1.1.2⟩, h.1.2⟩, h.2⟩

theorem wf_fillRam {s : State} (a : Nat) (b : Bytes) (h : Memory.wf s = true) : Memory.wf (s.fillRam a b) = true := by
  simp only [Memory.wf, Bool.and_eq_true] at h ⊢
  exact ⟨⟨⟨swf_sfill a b h.1.1.1, h.1.1.2⟩, h.1.2⟩, h.2⟩

theorem wf_fillMem {s : State} (a : Nat) (b : Bytes) (h : Memory.wf s = true) : Memory.wf (s.fillMem a b) = true := by
  simp only [Memory.wf, Bool.and_eq_true] at h ⊢
  exact ⟨⟨⟨h.1.1.1, swf_sfill a b h.1.1.2⟩, h.1.2⟩, h.2⟩

theorem wf_setFlash0 {s : State} (a : Nat) (b : Bytes) (h : Memory.wf s = true) : Memory.wf (s.setFlash0 a b) = true := by
  simp only [Memory.wf, Bool.and_eq_true] at h ⊢
  exact ⟨⟨⟨h.1.1.1, h.1.1.2⟩, swf_ssetN b a h.1.2⟩, h.2⟩

theorem wf_setFlash1 {s : State} (a : Nat) (b : Bytes) (h : Memory.wf s = true) : Memory.wf (s.setFlash1 a b) = true := by
  simp only [Memory.wf, Bool.and_eq_true] at h ⊢
  exact ⟨⟨⟨h.1.1.1, h.1.1.2⟩, h.1.2⟩, swf_ssetN b a h.2⟩

end Sys2Proof.Machine
end

