-- ==== Sys2Proof/Laws/State.lean ====
section
/-! SUPPORT. What each update of the state leaves alone: one lemma per field and update, true by definition. -/

namespace Sys2Proof.Machine

variable (s : State)

/-! ### wr -/

@[simp] theorem State.wr_latch (r : Reg) (v : Nat) : (s.wr r v).latch = s.latch := rfl
@[simp] theorem State.wr_sram (r : Reg) (v : Nat) : (s.wr r v).sram = s.sram := rfl
@[simp] theorem State.wr_mgmt (r : Reg) (v : Nat) : (s.wr r v).mgmt = s.mgmt := rfl
@[simp] theorem State.wr_ospi0 (r : Reg) (v : Nat) : (s.wr r v).ospi0 = s.ospi0 := rfl
@[simp] theorem State.wr_ospi1 (r : Reg) (v : Nat) : (s.wr r v).ospi1 = s.ospi1 := rfl
@[simp] theorem State.wr_dbe (r : Reg) (v : Nat) : (s.wr r v).dbe = s.dbe := rfl
@[simp] theorem State.wr_sbe (r : Reg) (v : Nat) : (s.wr r v).sbe = s.sbe := rfl
@[simp] theorem State.wr_pwr (r : Reg) (v : Nat) : (s.wr r v).pwr = s.pwr := rfl
@[simp] theorem State.wr_pins (r : Reg) (v : Nat) : (s.wr r v).pins = s.pins := rfl
@[simp] theorem State.wr_clk (r : Reg) (v : Nat) : (s.wr r v).clk = s.clk := rfl
@[simp] theorem State.wr_ev (r : Reg) (v : Nat) : (s.wr r v).ev = s.ev := rfl
@[simp] theorem State.wr_rxQ (r : Reg) (v : Nat) : (s.wr r v).rxQ = s.rxQ := rfl
@[simp] theorem State.wr_admQ (r : Reg) (v : Nat) : (s.wr r v).admQ = s.admQ := rfl
@[simp] theorem State.wr_gnd (r : Reg) (v : Nat) : (s.wr r v).gnd = s.gnd := rfl
@[simp] theorem State.wr_outQ (r : Reg) (v : Nat) : (s.wr r v).outQ = s.outQ := rfl
@[simp] theorem State.wr_sending (r : Reg) (v : Nat) : (s.wr r v).sending = s.sending := rfl
@[simp] theorem State.wr_sent (r : Reg) (v : Nat) : (s.wr r v).sent = s.sent := rfl
@[simp] theorem State.wr_eth (r : Reg) (v : Nat) : (s.wr r v).eth = s.eth := rfl
@[simp] theorem State.wr_can (r : Reg) (v : Nat) : (s.wr r v).can = s.can := rfl
@[simp] theorem State.wr_t1s (r : Reg) (v : Nat) : (s.wr r v).t1s = s.t1s := rfl
@[simp] theorem State.wr_egr (r : Reg) (v : Nat) : (s.wr r v).egr = s.egr := rfl
@[simp] theorem State.wr_mdioQ (r : Reg) (v : Nat) : (s.wr r v).mdioQ = s.mdioQ := rfl
@[simp] theorem State.wr_tsq (r : Reg) (v : Nat) : (s.wr r v).tsq = s.tsq := rfl
@[simp] theorem State.wr_tsqLost (r : Reg) (v : Nat) : (s.wr r v).tsqLost = s.tsqLost := rfl
@[simp] theorem State.wr_tbl (r : Reg) (v : Nat) : (s.wr r v).tbl = s.tbl := rfl
@[simp] theorem State.wr_prs (r : Reg) (v : Nat) : (s.wr r v).prs = s.prs := rfl
@[simp] theorem State.wr_capQ (r : Reg) (v : Nat) : (s.wr r v).capQ = s.capQ := rfl
@[simp] theorem State.wr_evQ (r : Reg) (v : Nat) : (s.wr r v).evQ = s.evQ := rfl
@[simp] theorem State.wr_keys (r : Reg) (v : Nat) : (s.wr r v).keys = s.keys := rfl
@[simp] theorem State.wr_otp (r : Reg) (v : Nat) : (s.wr r v).otp = s.otp := rfl
@[simp] theorem State.wr_otpRead (r : Reg) (v : Nat) : (s.wr r v).otpRead = s.otpRead := rfl
@[simp] theorem State.wr_eye (r : Reg) (v : Nat) : (s.wr r v).eye = s.eye := rfl
@[simp] theorem State.wr_readPort (r : Reg) (v : Nat) : (s.wr r v).readPort = s.readPort := rfl
@[simp] theorem State.wr_readHigh (r : Reg) (v : Nat) : (s.wr r v).readHigh = s.readHigh := rfl
@[simp] theorem State.wr_resv (r : Reg) (v : Nat) : (s.wr r v).resv = s.resv := rfl
@[simp] theorem State.wr_spQ (r : Reg) (v : Nat) : (s.wr r v).spQ = s.spQ := rfl
@[simp] theorem State.wr_brgQ (r : Reg) (v : Nat) : (s.wr r v).brgQ = s.brgQ := rfl
@[simp] theorem State.wr_smp (r : Reg) (v : Nat) : (s.wr r v).smp = s.smp := rfl
@[simp] theorem State.wr_sig (r : Reg) (v : Nat) : (s.wr r v).sig = s.sig := rfl
@[simp] theorem State.wr_lanes (r : Reg) (v : Nat) : (s.wr r v).lanes = s.lanes := rfl
@[simp] theorem State.wr_chain (r : Reg) (v : Nat) : (s.wr r v).chain = s.chain := rfl
@[simp] theorem State.wr_brg (r : Reg) (v : Nat) : (s.wr r v).brg = s.brg := rfl
@[simp] theorem State.wr_ldr (r : Reg) (v : Nat) : (s.wr r v).ldr = s.ldr := rfl
@[simp] theorem State.wr_phy (r : Reg) (v : Nat) : (s.wr r v).phy = s.phy := rfl
@[simp] theorem State.wr_stg (r : Reg) (v : Nat) : (s.wr r v).stg = s.stg := rfl
@[simp] theorem State.wr_freeCtr (r : Reg) (v : Nat) : (s.wr r v).freeCtr = s.freeCtr := rfl
@[simp] theorem State.wr_pending (r : Reg) (v : Nat) : (s.wr r v).pending = s.pending := rfl
@[simp] theorem State.wr_cyc (r : Reg) (v : Nat) : (s.wr r v).cyc = s.cyc := rfl
@[simp] theorem State.wr_sinceDue (r : Reg) (v : Nat) : (s.wr r v).sinceDue = s.sinceDue := rfl

/-! ### wr64 -/

@[simp] theorem State.wr64_latch (r : Reg) (v : Nat) : (s.wr64 r v).latch = s.latch := rfl
@[simp] theorem State.wr64_sram (r : Reg) (v : Nat) : (s.wr64 r v).sram = s.sram := rfl
@[simp] theorem State.wr64_mgmt (r : Reg) (v : Nat) : (s.wr64 r v).mgmt = s.mgmt := rfl
@[simp] theorem State.wr64_ospi0 (r : Reg) (v : Nat) : (s.wr64 r v).ospi0 = s.ospi0 := rfl
@[simp] theorem State.wr64_ospi1 (r : Reg) (v : Nat) : (s.wr64 r v).ospi1 = s.ospi1 := rfl
@[simp] theorem State.wr64_dbe (r : Reg) (v : Nat) : (s.wr64 r v).dbe = s.dbe := rfl
@[simp] theorem State.wr64_sbe (r : Reg) (v : Nat) : (s.wr64 r v).sbe = s.sbe := rfl
@[simp] theorem State.wr64_pwr (r : Reg) (v : Nat) : (s.wr64 r v).pwr = s.pwr := rfl
@[simp] theorem State.wr64_pins (r : Reg) (v : Nat) : (s.wr64 r v).pins = s.pins := rfl
@[simp] theorem State.wr64_clk (r : Reg) (v : Nat) : (s.wr64 r v).clk = s.clk := rfl
@[simp] theorem State.wr64_ev (r : Reg) (v : Nat) : (s.wr64 r v).ev = s.ev := rfl
@[simp] theorem State.wr64_rxQ (r : Reg) (v : Nat) : (s.wr64 r v).rxQ = s.rxQ := rfl
@[simp] theorem State.wr64_admQ (r : Reg) (v : Nat) : (s.wr64 r v).admQ = s.admQ := rfl
@[simp] theorem State.wr64_gnd (r : Reg) (v : Nat) : (s.wr64 r v).gnd = s.gnd := rfl
@[simp] theorem State.wr64_outQ (r : Reg) (v : Nat) : (s.wr64 r v).outQ = s.outQ := rfl
@[simp] theorem State.wr64_sending (r : Reg) (v : Nat) : (s.wr64 r v).sending = s.sending := rfl
@[simp] theorem State.wr64_sent (r : Reg) (v : Nat) : (s.wr64 r v).sent = s.sent := rfl
@[simp] theorem State.wr64_eth (r : Reg) (v : Nat) : (s.wr64 r v).eth = s.eth := rfl
@[simp] theorem State.wr64_can (r : Reg) (v : Nat) : (s.wr64 r v).can = s.can := rfl
@[simp] theorem State.wr64_t1s (r : Reg) (v : Nat) : (s.wr64 r v).t1s = s.t1s := rfl
@[simp] theorem State.wr64_egr (r : Reg) (v : Nat) : (s.wr64 r v).egr = s.egr := rfl
@[simp] theorem State.wr64_mdioQ (r : Reg) (v : Nat) : (s.wr64 r v).mdioQ = s.mdioQ := rfl
@[simp] theorem State.wr64_tsq (r : Reg) (v : Nat) : (s.wr64 r v).tsq = s.tsq := rfl
@[simp] theorem State.wr64_tsqLost (r : Reg) (v : Nat) : (s.wr64 r v).tsqLost = s.tsqLost := rfl
@[simp] theorem State.wr64_tbl (r : Reg) (v : Nat) : (s.wr64 r v).tbl = s.tbl := rfl
@[simp] theorem State.wr64_prs (r : Reg) (v : Nat) : (s.wr64 r v).prs = s.prs := rfl
@[simp] theorem State.wr64_capQ (r : Reg) (v : Nat) : (s.wr64 r v).capQ = s.capQ := rfl
@[simp] theorem State.wr64_evQ (r : Reg) (v : Nat) : (s.wr64 r v).evQ = s.evQ := rfl
@[simp] theorem State.wr64_keys (r : Reg) (v : Nat) : (s.wr64 r v).keys = s.keys := rfl
@[simp] theorem State.wr64_otp (r : Reg) (v : Nat) : (s.wr64 r v).otp = s.otp := rfl
@[simp] theorem State.wr64_otpRead (r : Reg) (v : Nat) : (s.wr64 r v).otpRead = s.otpRead := rfl
@[simp] theorem State.wr64_eye (r : Reg) (v : Nat) : (s.wr64 r v).eye = s.eye := rfl
@[simp] theorem State.wr64_readPort (r : Reg) (v : Nat) : (s.wr64 r v).readPort = s.readPort := rfl
@[simp] theorem State.wr64_readHigh (r : Reg) (v : Nat) : (s.wr64 r v).readHigh = s.readHigh := rfl
@[simp] theorem State.wr64_resv (r : Reg) (v : Nat) : (s.wr64 r v).resv = s.resv := rfl
@[simp] theorem State.wr64_spQ (r : Reg) (v : Nat) : (s.wr64 r v).spQ = s.spQ := rfl
@[simp] theorem State.wr64_brgQ (r : Reg) (v : Nat) : (s.wr64 r v).brgQ = s.brgQ := rfl
@[simp] theorem State.wr64_smp (r : Reg) (v : Nat) : (s.wr64 r v).smp = s.smp := rfl
@[simp] theorem State.wr64_sig (r : Reg) (v : Nat) : (s.wr64 r v).sig = s.sig := rfl
@[simp] theorem State.wr64_lanes (r : Reg) (v : Nat) : (s.wr64 r v).lanes = s.lanes := rfl
@[simp] theorem State.wr64_chain (r : Reg) (v : Nat) : (s.wr64 r v).chain = s.chain := rfl
@[simp] theorem State.wr64_brg (r : Reg) (v : Nat) : (s.wr64 r v).brg = s.brg := rfl
@[simp] theorem State.wr64_ldr (r : Reg) (v : Nat) : (s.wr64 r v).ldr = s.ldr := rfl
@[simp] theorem State.wr64_phy (r : Reg) (v : Nat) : (s.wr64 r v).phy = s.phy := rfl
@[simp] theorem State.wr64_stg (r : Reg) (v : Nat) : (s.wr64 r v).stg = s.stg := rfl
@[simp] theorem State.wr64_freeCtr (r : Reg) (v : Nat) : (s.wr64 r v).freeCtr = s.freeCtr := rfl
@[simp] theorem State.wr64_pending (r : Reg) (v : Nat) : (s.wr64 r v).pending = s.pending := rfl
@[simp] theorem State.wr64_cyc (r : Reg) (v : Nat) : (s.wr64 r v).cyc = s.cyc := rfl
@[simp] theorem State.wr64_sinceDue (r : Reg) (v : Nat) : (s.wr64 r v).sinceDue = s.sinceDue := rfl

/-! ### sf -/

@[simp] theorem State.sf_latch (r : Reg) (f : Fld) (x : Nat) : (s.sf r f x).latch = s.latch := rfl
@[simp] theorem State.sf_sram (r : Reg) (f : Fld) (x : Nat) : (s.sf r f x).sram = s.sram := rfl
@[simp] theorem State.sf_mgmt (r : Reg) (f : Fld) (x : Nat) : (s.sf r f x).mgmt = s.mgmt := rfl
@[simp] theorem State.sf_ospi0 (r : Reg) (f : Fld) (x : Nat) : (s.sf r f x).ospi0 = s.ospi0 := rfl
@[simp] theorem State.sf_ospi1 (r : Reg) (f : Fld) (x : Nat) : (s.sf r f x).ospi1 = s.ospi1 := rfl
@[simp] theorem State.sf_dbe (r : Reg) (f : Fld) (x : Nat) : (s.sf r f x).dbe = s.dbe := rfl
@[simp] theorem State.sf_sbe (r : Reg) (f : Fld) (x : Nat) : (s.sf r f x).sbe = s.sbe := rfl
@[simp] theorem State.sf_pwr (r : Reg) (f : Fld) (x : Nat) : (s.sf r f x).pwr = s.pwr := rfl
@[simp] theorem State.sf_pins (r : Reg) (f : Fld) (x : Nat) : (s.sf r f x).pins = s.pins := rfl
@[simp] theorem State.sf_clk (r : Reg) (f : Fld) (x : Nat) : (s.sf r f x).clk = s.clk := rfl
@[simp] theorem State.sf_ev (r : Reg) (f : Fld) (x : Nat) : (s.sf r f x).ev = s.ev := rfl
@[simp] theorem State.sf_rxQ (r : Reg) (f : Fld) (x : Nat) : (s.sf r f x).rxQ = s.rxQ := rfl
@[simp] theorem State.sf_admQ (r : Reg) (f : Fld) (x : Nat) : (s.sf r f x).admQ = s.admQ := rfl
@[simp] theorem State.sf_gnd (r : Reg) (f : Fld) (x : Nat) : (s.sf r f x).gnd = s.gnd := rfl
@[simp] theorem State.sf_outQ (r : Reg) (f : Fld) (x : Nat) : (s.sf r f x).outQ = s.outQ := rfl
@[simp] theorem State.sf_sending (r : Reg) (f : Fld) (x : Nat) : (s.sf r f x).sending = s.sending := rfl
@[simp] theorem State.sf_sent (r : Reg) (f : Fld) (x : Nat) : (s.sf r f x).sent = s.sent := rfl
@[simp] theorem State.sf_eth (r : Reg) (f : Fld) (x : Nat) : (s.sf r f x).eth = s.eth := rfl
@[simp] theorem State.sf_can (r : Reg) (f : Fld) (x : Nat) : (s.sf r f x).can = s.can := rfl
@[simp] theorem State.sf_t1s (r : Reg) (f : Fld) (x : Nat) : (s.sf r f x).t1s = s.t1s := rfl
@[simp] theorem State.sf_egr (r : Reg) (f : Fld) (x : Nat) : (s.sf r f x).egr = s.egr := rfl
@[simp] theorem State.sf_mdioQ (r : Reg) (f : Fld) (x : Nat) : (s.sf r f x).mdioQ = s.mdioQ := rfl
@[simp] theorem State.sf_tsq (r : Reg) (f : Fld) (x : Nat) : (s.sf r f x).tsq = s.tsq := rfl
@[simp] theorem State.sf_tsqLost (r : Reg) (f : Fld) (x : Nat) : (s.sf r f x).tsqLost = s.tsqLost := rfl
@[simp] theorem State.sf_tbl (r : Reg) (f : Fld) (x : Nat) : (s.sf r f x).tbl = s.tbl := rfl
@[simp] theorem State.sf_prs (r : Reg) (f : Fld) (x : Nat) : (s.sf r f x).prs = s.prs := rfl
@[simp] theorem State.sf_capQ (r : Reg) (f : Fld) (x : Nat) : (s.sf r f x).capQ = s.capQ := rfl
@[simp] theorem State.sf_evQ (r : Reg) (f : Fld) (x : Nat) : (s.sf r f x).evQ = s.evQ := rfl
@[simp] theorem State.sf_keys (r : Reg) (f : Fld) (x : Nat) : (s.sf r f x).keys = s.keys := rfl
@[simp] theorem State.sf_otp (r : Reg) (f : Fld) (x : Nat) : (s.sf r f x).otp = s.otp := rfl
@[simp] theorem State.sf_otpRead (r : Reg) (f : Fld) (x : Nat) : (s.sf r f x).otpRead = s.otpRead := rfl
@[simp] theorem State.sf_eye (r : Reg) (f : Fld) (x : Nat) : (s.sf r f x).eye = s.eye := rfl
@[simp] theorem State.sf_readPort (r : Reg) (f : Fld) (x : Nat) : (s.sf r f x).readPort = s.readPort := rfl
@[simp] theorem State.sf_readHigh (r : Reg) (f : Fld) (x : Nat) : (s.sf r f x).readHigh = s.readHigh := rfl
@[simp] theorem State.sf_resv (r : Reg) (f : Fld) (x : Nat) : (s.sf r f x).resv = s.resv := rfl
@[simp] theorem State.sf_spQ (r : Reg) (f : Fld) (x : Nat) : (s.sf r f x).spQ = s.spQ := rfl
@[simp] theorem State.sf_brgQ (r : Reg) (f : Fld) (x : Nat) : (s.sf r f x).brgQ = s.brgQ := rfl
@[simp] theorem State.sf_smp (r : Reg) (f : Fld) (x : Nat) : (s.sf r f x).smp = s.smp := rfl
@[simp] theorem State.sf_sig (r : Reg) (f : Fld) (x : Nat) : (s.sf r f x).sig = s.sig := rfl
@[simp] theorem State.sf_lanes (r : Reg) (f : Fld) (x : Nat) : (s.sf r f x).lanes = s.lanes := rfl
@[simp] theorem State.sf_chain (r : Reg) (f : Fld) (x : Nat) : (s.sf r f x).chain = s.chain := rfl
@[simp] theorem State.sf_brg (r : Reg) (f : Fld) (x : Nat) : (s.sf r f x).brg = s.brg := rfl
@[simp] theorem State.sf_ldr (r : Reg) (f : Fld) (x : Nat) : (s.sf r f x).ldr = s.ldr := rfl
@[simp] theorem State.sf_phy (r : Reg) (f : Fld) (x : Nat) : (s.sf r f x).phy = s.phy := rfl
@[simp] theorem State.sf_stg (r : Reg) (f : Fld) (x : Nat) : (s.sf r f x).stg = s.stg := rfl
@[simp] theorem State.sf_freeCtr (r : Reg) (f : Fld) (x : Nat) : (s.sf r f x).freeCtr = s.freeCtr := rfl
@[simp] theorem State.sf_pending (r : Reg) (f : Fld) (x : Nat) : (s.sf r f x).pending = s.pending := rfl
@[simp] theorem State.sf_cyc (r : Reg) (f : Fld) (x : Nat) : (s.sf r f x).cyc = s.cyc := rfl
@[simp] theorem State.sf_sinceDue (r : Reg) (f : Fld) (x : Nat) : (s.sf r f x).sinceDue = s.sinceDue := rfl

/-! ### setBit -/

@[simp] theorem State.setBit_latch (r : Reg) (i : Nat) : (s.setBit r i).latch = s.latch := rfl
@[simp] theorem State.setBit_sram (r : Reg) (i : Nat) : (s.setBit r i).sram = s.sram := rfl
@[simp] theorem State.setBit_mgmt (r : Reg) (i : Nat) : (s.setBit r i).mgmt = s.mgmt := rfl
@[simp] theorem State.setBit_ospi0 (r : Reg) (i : Nat) : (s.setBit r i).ospi0 = s.ospi0 := rfl
@[simp] theorem State.setBit_ospi1 (r : Reg) (i : Nat) : (s.setBit r i).ospi1 = s.ospi1 := rfl
@[simp] theorem State.setBit_dbe (r : Reg) (i : Nat) : (s.setBit r i).dbe = s.dbe := rfl
@[simp] theorem State.setBit_sbe (r : Reg) (i : Nat) : (s.setBit r i).sbe = s.sbe := rfl
@[simp] theorem State.setBit_pwr (r : Reg) (i : Nat) : (s.setBit r i).pwr = s.pwr := rfl
@[simp] theorem State.setBit_pins (r : Reg) (i : Nat) : (s.setBit r i).pins = s.pins := rfl
@[simp] theorem State.setBit_clk (r : Reg) (i : Nat) : (s.setBit r i).clk = s.clk := rfl
@[simp] theorem State.setBit_ev (r : Reg) (i : Nat) : (s.setBit r i).ev = s.ev := rfl
@[simp] theorem State.setBit_rxQ (r : Reg) (i : Nat) : (s.setBit r i).rxQ = s.rxQ := rfl
@[simp] theorem State.setBit_admQ (r : Reg) (i : Nat) : (s.setBit r i).admQ = s.admQ := rfl
@[simp] theorem State.setBit_gnd (r : Reg) (i : Nat) : (s.setBit r i).gnd = s.gnd := rfl
@[simp] theorem State.setBit_outQ (r : Reg) (i : Nat) : (s.setBit r i).outQ = s.outQ := rfl
@[simp] theorem State.setBit_sending (r : Reg) (i : Nat) : (s.setBit r i).sending = s.sending := rfl
@[simp] theorem State.setBit_sent (r : Reg) (i : Nat) : (s.setBit r i).sent = s.sent := rfl
@[simp] theorem State.setBit_eth (r : Reg) (i : Nat) : (s.setBit r i).eth = s.eth := rfl
@[simp] theorem State.setBit_can (r : Reg) (i : Nat) : (s.setBit r i).can = s.can := rfl
@[simp] theorem State.setBit_t1s (r : Reg) (i : Nat) : (s.setBit r i).t1s = s.t1s := rfl
@[simp] theorem State.setBit_egr (r : Reg) (i : Nat) : (s.setBit r i).egr = s.egr := rfl
@[simp] theorem State.setBit_mdioQ (r : Reg) (i : Nat) : (s.setBit r i).mdioQ = s.mdioQ := rfl
@[simp] theorem State.setBit_tsq (r : Reg) (i : Nat) : (s.setBit r i).tsq = s.tsq := rfl
@[simp] theorem State.setBit_tsqLost (r : Reg) (i : Nat) : (s.setBit r i).tsqLost = s.tsqLost := rfl
@[simp] theorem State.setBit_tbl (r : Reg) (i : Nat) : (s.setBit r i).tbl = s.tbl := rfl
@[simp] theorem State.setBit_prs (r : Reg) (i : Nat) : (s.setBit r i).prs = s.prs := rfl
@[simp] theorem State.setBit_capQ (r : Reg) (i : Nat) : (s.setBit r i).capQ = s.capQ := rfl
@[simp] theorem State.setBit_evQ (r : Reg) (i : Nat) : (s.setBit r i).evQ = s.evQ := rfl
@[simp] theorem State.setBit_keys (r : Reg) (i : Nat) : (s.setBit r i).keys = s.keys := rfl
@[simp] theorem State.setBit_otp (r : Reg) (i : Nat) : (s.setBit r i).otp = s.otp := rfl
@[simp] theorem State.setBit_otpRead (r : Reg) (i : Nat) : (s.setBit r i).otpRead = s.otpRead := rfl
@[simp] theorem State.setBit_eye (r : Reg) (i : Nat) : (s.setBit r i).eye = s.eye := rfl
@[simp] theorem State.setBit_readPort (r : Reg) (i : Nat) : (s.setBit r i).readPort = s.readPort := rfl
@[simp] theorem State.setBit_readHigh (r : Reg) (i : Nat) : (s.setBit r i).readHigh = s.readHigh := rfl
@[simp] theorem State.setBit_resv (r : Reg) (i : Nat) : (s.setBit r i).resv = s.resv := rfl
@[simp] theorem State.setBit_spQ (r : Reg) (i : Nat) : (s.setBit r i).spQ = s.spQ := rfl
@[simp] theorem State.setBit_brgQ (r : Reg) (i : Nat) : (s.setBit r i).brgQ = s.brgQ := rfl
@[simp] theorem State.setBit_smp (r : Reg) (i : Nat) : (s.setBit r i).smp = s.smp := rfl
@[simp] theorem State.setBit_sig (r : Reg) (i : Nat) : (s.setBit r i).sig = s.sig := rfl
@[simp] theorem State.setBit_lanes (r : Reg) (i : Nat) : (s.setBit r i).lanes = s.lanes := rfl
@[simp] theorem State.setBit_chain (r : Reg) (i : Nat) : (s.setBit r i).chain = s.chain := rfl
@[simp] theorem State.setBit_brg (r : Reg) (i : Nat) : (s.setBit r i).brg = s.brg := rfl
@[simp] theorem State.setBit_ldr (r : Reg) (i : Nat) : (s.setBit r i).ldr = s.ldr := rfl
@[simp] theorem State.setBit_phy (r : Reg) (i : Nat) : (s.setBit r i).phy = s.phy := rfl
@[simp] theorem State.setBit_stg (r : Reg) (i : Nat) : (s.setBit r i).stg = s.stg := rfl
@[simp] theorem State.setBit_freeCtr (r : Reg) (i : Nat) : (s.setBit r i).freeCtr = s.freeCtr := rfl
@[simp] theorem State.setBit_pending (r : Reg) (i : Nat) : (s.setBit r i).pending = s.pending := rfl
@[simp] theorem State.setBit_sinceDue (r : Reg) (i : Nat) : (s.setBit r i).sinceDue = s.sinceDue := rfl

/-! ### setOffset -/

@[simp] theorem State.setOffset_latch (v : Int) : (s.setOffset v).latch = s.latch := rfl
@[simp] theorem State.setOffset_sram (v : Int) : (s.setOffset v).sram = s.sram := rfl
@[simp] theorem State.setOffset_mgmt (v : Int) : (s.setOffset v).mgmt = s.mgmt := rfl
@[simp] theorem State.setOffset_ospi0 (v : Int) : (s.setOffset v).ospi0 = s.ospi0 := rfl
@[simp] theorem State.setOffset_ospi1 (v : Int) : (s.setOffset v).ospi1 = s.ospi1 := rfl
@[simp] theorem State.setOffset_dbe (v : Int) : (s.setOffset v).dbe = s.dbe := rfl
@[simp] theorem State.setOffset_sbe (v : Int) : (s.setOffset v).sbe = s.sbe := rfl
@[simp] theorem State.setOffset_pwr (v : Int) : (s.setOffset v).pwr = s.pwr := rfl
@[simp] theorem State.setOffset_pins (v : Int) : (s.setOffset v).pins = s.pins := rfl
@[simp] theorem State.setOffset_clk (v : Int) : (s.setOffset v).clk = s.clk := rfl
@[simp] theorem State.setOffset_ev (v : Int) : (s.setOffset v).ev = s.ev := rfl
@[simp] theorem State.setOffset_rxQ (v : Int) : (s.setOffset v).rxQ = s.rxQ := rfl
@[simp] theorem State.setOffset_admQ (v : Int) : (s.setOffset v).admQ = s.admQ := rfl
@[simp] theorem State.setOffset_gnd (v : Int) : (s.setOffset v).gnd = s.gnd := rfl
@[simp] theorem State.setOffset_outQ (v : Int) : (s.setOffset v).outQ = s.outQ := rfl
@[simp] theorem State.setOffset_sending (v : Int) : (s.setOffset v).sending = s.sending := rfl
@[simp] theorem State.setOffset_sent (v : Int) : (s.setOffset v).sent = s.sent := rfl
@[simp] theorem State.setOffset_eth (v : Int) : (s.setOffset v).eth = s.eth := rfl
@[simp] theorem State.setOffset_can (v : Int) : (s.setOffset v).can = s.can := rfl
@[simp] theorem State.setOffset_t1s (v : Int) : (s.setOffset v).t1s = s.t1s := rfl
@[simp] theorem State.setOffset_egr (v : Int) : (s.setOffset v).egr = s.egr := rfl
@[simp] theorem State.setOffset_mdioQ (v : Int) : (s.setOffset v).mdioQ = s.mdioQ := rfl
@[simp] theorem State.setOffset_tsq (v : Int) : (s.setOffset v).tsq = s.tsq := rfl
@[simp] theorem State.setOffset_tsqLost (v : Int) : (s.setOffset v).tsqLost = s.tsqLost := rfl
@[simp] theorem State.setOffset_tbl (v : Int) : (s.setOffset v).tbl = s.tbl := rfl
@[simp] theorem State.setOffset_prs (v : Int) : (s.setOffset v).prs = s.prs := rfl
@[simp] theorem State.setOffset_capQ (v : Int) : (s.setOffset v).capQ = s.capQ := rfl
@[simp] theorem State.setOffset_evQ (v : Int) : (s.setOffset v).evQ = s.evQ := rfl
@[simp] theorem State.setOffset_keys (v : Int) : (s.setOffset v).keys = s.keys := rfl
@[simp] theorem State.setOffset_otp (v : Int) : (s.setOffset v).otp = s.otp := rfl
@[simp] theorem State.setOffset_otpRead (v : Int) : (s.setOffset v).otpRead = s.otpRead := rfl
@[simp] theorem State.setOffset_eye (v : Int) : (s.setOffset v).eye = s.eye := rfl
@[simp] theorem State.setOffset_readPort (v : Int) : (s.setOffset v).readPort = s.readPort := rfl
@[simp] theorem State.setOffset_readHigh (v : Int) : (s.setOffset v).readHigh = s.readHigh := rfl
@[simp] theorem State.setOffset_resv (v : Int) : (s.setOffset v).resv = s.resv := rfl
@[simp] theorem State.setOffset_spQ (v : Int) : (s.setOffset v).spQ = s.spQ := rfl
@[simp] theorem State.setOffset_brgQ (v : Int) : (s.setOffset v).brgQ = s.brgQ := rfl
@[simp] theorem State.setOffset_smp (v : Int) : (s.setOffset v).smp = s.smp := rfl
@[simp] theorem State.setOffset_sig (v : Int) : (s.setOffset v).sig = s.sig := rfl
@[simp] theorem State.setOffset_lanes (v : Int) : (s.setOffset v).lanes = s.lanes := rfl
@[simp] theorem State.setOffset_chain (v : Int) : (s.setOffset v).chain = s.chain := rfl
@[simp] theorem State.setOffset_brg (v : Int) : (s.setOffset v).brg = s.brg := rfl
@[simp] theorem State.setOffset_ldr (v : Int) : (s.setOffset v).ldr = s.ldr := rfl
@[simp] theorem State.setOffset_phy (v : Int) : (s.setOffset v).phy = s.phy := rfl
@[simp] theorem State.setOffset_stg (v : Int) : (s.setOffset v).stg = s.stg := rfl
@[simp] theorem State.setOffset_freeCtr (v : Int) : (s.setOffset v).freeCtr = s.freeCtr := rfl
@[simp] theorem State.setOffset_pending (v : Int) : (s.setOffset v).pending = s.pending := rfl
@[simp] theorem State.setOffset_cyc (v : Int) : (s.setOffset v).cyc = s.cyc := rfl
@[simp] theorem State.setOffset_sinceDue (v : Int) : (s.setOffset v).sinceDue = s.sinceDue := rfl

/-! ### setRam -/

@[simp] theorem State.setRam_regs (a : Nat) (b : Bytes) : (s.setRam a b).regs = s.regs := rfl
@[simp] theorem State.setRam_latch (a : Nat) (b : Bytes) : (s.setRam a b).latch = s.latch := rfl
@[simp] theorem State.setRam_mgmt (a : Nat) (b : Bytes) : (s.setRam a b).mgmt = s.mgmt := rfl
@[simp] theorem State.setRam_ospi0 (a : Nat) (b : Bytes) : (s.setRam a b).ospi0 = s.ospi0 := rfl
@[simp] theorem State.setRam_ospi1 (a : Nat) (b : Bytes) : (s.setRam a b).ospi1 = s.ospi1 := rfl
@[simp] theorem State.setRam_dbe (a : Nat) (b : Bytes) : (s.setRam a b).dbe = s.dbe := rfl
@[simp] theorem State.setRam_sbe (a : Nat) (b : Bytes) : (s.setRam a b).sbe = s.sbe := rfl
@[simp] theorem State.setRam_pwr (a : Nat) (b : Bytes) : (s.setRam a b).pwr = s.pwr := rfl
@[simp] theorem State.setRam_pins (a : Nat) (b : Bytes) : (s.setRam a b).pins = s.pins := rfl
@[simp] theorem State.setRam_clk (a : Nat) (b : Bytes) : (s.setRam a b).clk = s.clk := rfl
@[simp] theorem State.setRam_ev (a : Nat) (b : Bytes) : (s.setRam a b).ev = s.ev := rfl
@[simp] theorem State.setRam_rxQ (a : Nat) (b : Bytes) : (s.setRam a b).rxQ = s.rxQ := rfl
@[simp] theorem State.setRam_admQ (a : Nat) (b : Bytes) : (s.setRam a b).admQ = s.admQ := rfl
@[simp] theorem State.setRam_gnd (a : Nat) (b : Bytes) : (s.setRam a b).gnd = s.gnd := rfl
@[simp] theorem State.setRam_outQ (a : Nat) (b : Bytes) : (s.setRam a b).outQ = s.outQ := rfl
@[simp] theorem State.setRam_sending (a : Nat) (b : Bytes) : (s.setRam a b).sending = s.sending := rfl
@[simp] theorem State.setRam_sent (a : Nat) (b : Bytes) : (s.setRam a b).sent = s.sent := rfl
@[simp] theorem State.setRam_eth (a : Nat) (b : Bytes) : (s.setRam a b).eth = s.eth := rfl
@[simp] theorem State.setRam_can (a : Nat) (b : Bytes) : (s.setRam a b).can = s.can := rfl
@[simp] theorem State.setRam_t1s (a : Nat) (b : Bytes) : (s.setRam a b).t1s = s.t1s := rfl
@[simp] theorem State.setRam_egr (a : Nat) (b : Bytes) : (s.setRam a b).egr = s.egr := rfl
@[simp] theorem State.setRam_mdioQ (a : Nat) (b : Bytes) : (s.setRam a b).mdioQ = s.mdioQ := rfl
@[simp] theorem State.setRam_tsq (a : Nat) (b : Bytes) : (s.setRam a b).tsq = s.tsq := rfl
@[simp] theorem State.setRam_tsqLost (a : Nat) (b : Bytes) : (s.setRam a b).tsqLost = s.tsqLost := rfl
@[simp] theorem State.setRam_tbl (a : Nat) (b : Bytes) : (s.setRam a b).tbl = s.tbl := rfl
@[simp] theorem State.setRam_prs (a : Nat) (b : Bytes) : (s.setRam a b).prs = s.prs := rfl
@[simp] theorem State.setRam_capQ (a : Nat) (b : Bytes) : (s.setRam a b).capQ = s.capQ := rfl
@[simp] theorem State.setRam_evQ (a : Nat) (b : Bytes) : (s.setRam a b).evQ = s.evQ := rfl
@[simp] theorem State.setRam_keys (a : Nat) (b : Bytes) : (s.setRam a b).keys = s.keys := rfl
@[simp] theorem State.setRam_otp (a : Nat) (b : Bytes) : (s.setRam a b).otp = s.otp := rfl
@[simp] theorem State.setRam_otpRead (a : Nat) (b : Bytes) : (s.setRam a b).otpRead = s.otpRead := rfl
@[simp] theorem State.setRam_eye (a : Nat) (b : Bytes) : (s.setRam a b).eye = s.eye := rfl
@[simp] theorem State.setRam_readPort (a : Nat) (b : Bytes) : (s.setRam a b).readPort = s.readPort := rfl
@[simp] theorem State.setRam_readHigh (a : Nat) (b : Bytes) : (s.setRam a b).readHigh = s.readHigh := rfl
@[simp] theorem State.setRam_resv (a : Nat) (b : Bytes) : (s.setRam a b).resv = s.resv := rfl
@[simp] theorem State.setRam_spQ (a : Nat) (b : Bytes) : (s.setRam a b).spQ = s.spQ := rfl
@[simp] theorem State.setRam_brgQ (a : Nat) (b : Bytes) : (s.setRam a b).brgQ = s.brgQ := rfl
@[simp] theorem State.setRam_smp (a : Nat) (b : Bytes) : (s.setRam a b).smp = s.smp := rfl
@[simp] theorem State.setRam_sig (a : Nat) (b : Bytes) : (s.setRam a b).sig = s.sig := rfl
@[simp] theorem State.setRam_lanes (a : Nat) (b : Bytes) : (s.setRam a b).lanes = s.lanes := rfl
@[simp] theorem State.setRam_chain (a : Nat) (b : Bytes) : (s.setRam a b).chain = s.chain := rfl
@[simp] theorem State.setRam_brg (a : Nat) (b : Bytes) : (s.setRam a b).brg = s.brg := rfl
@[simp] theorem State.setRam_ldr (a : Nat) (b : Bytes) : (s.setRam a b).ldr = s.ldr := rfl
@[simp] theorem State.setRam_phy (a : Nat) (b : Bytes) : (s.setRam a b).phy = s.phy := rfl
@[simp] theorem State.setRam_stg (a : Nat) (b : Bytes) : (s.setRam a b).stg = s.stg := rfl
@[simp] theorem State.setRam_freeCtr (a : Nat) (b : Bytes) : (s.setRam a b).freeCtr = s.freeCtr := rfl
@[simp] theorem State.setRam_pending (a : Nat) (b : Bytes) : (s.setRam a b).pending = s.pending := rfl
@[simp] theorem State.setRam_cyc (a : Nat) (b : Bytes) : (s.setRam a b).cyc = s.cyc := rfl
@[simp] theorem State.setRam_sinceDue (a : Nat) (b : Bytes) : (s.setRam a b).sinceDue = s.sinceDue := rfl

/-! ### setMem -/

@[simp] theorem State.setMem_regs (a : Nat) (b : Bytes) : (s.setMem a b).regs = s.regs := rfl
@[simp] theorem State.setMem_latch (a : Nat) (b : Bytes) : (s.setMem a b).latch = s.latch := rfl
@[simp] theorem State.setMem_sram (a : Nat) (b : Bytes) : (s.setMem a b).sram = s.sram := rfl
@[simp] theorem State.setMem_ospi0 (a : Nat) (b : Bytes) : (s.setMem a b).ospi0 = s.ospi0 := rfl
@[simp] theorem State.setMem_ospi1 (a : Nat) (b : Bytes) : (s.setMem a b).ospi1 = s.ospi1 := rfl
@[simp] theorem State.setMem_dbe (a : Nat) (b : Bytes) : (s.setMem a b).dbe = s.dbe := rfl
@[simp] theorem State.setMem_sbe (a : Nat) (b : Bytes) : (s.setMem a b).sbe = s.sbe := rfl
@[simp] theorem State.setMem_pwr (a : Nat) (b : Bytes) : (s.setMem a b).pwr = s.pwr := rfl
@[simp] theorem State.setMem_pins (a : Nat) (b : Bytes) : (s.setMem a b).pins = s.pins := rfl
@[simp] theorem State.setMem_clk (a : Nat) (b : Bytes) : (s.setMem a b).clk = s.clk := rfl
@[simp] theorem State.setMem_ev (a : Nat) (b : Bytes) : (s.setMem a b).ev = s.ev := rfl
@[simp] theorem State.setMem_rxQ (a : Nat) (b : Bytes) : (s.setMem a b).rxQ = s.rxQ := rfl
@[simp] theorem State.setMem_admQ (a : Nat) (b : Bytes) : (s.setMem a b).admQ = s.admQ := rfl
@[simp] theorem State.setMem_gnd (a : Nat) (b : Bytes) : (s.setMem a b).gnd = s.gnd := rfl
@[simp] theorem State.setMem_outQ (a : Nat) (b : Bytes) : (s.setMem a b).outQ = s.outQ := rfl
@[simp] theorem State.setMem_sending (a : Nat) (b : Bytes) : (s.setMem a b).sending = s.sending := rfl
@[simp] theorem State.setMem_sent (a : Nat) (b : Bytes) : (s.setMem a b).sent = s.sent := rfl
@[simp] theorem State.setMem_eth (a : Nat) (b : Bytes) : (s.setMem a b).eth = s.eth := rfl
@[simp] theorem State.setMem_can (a : Nat) (b : Bytes) : (s.setMem a b).can = s.can := rfl
@[simp] theorem State.setMem_t1s (a : Nat) (b : Bytes) : (s.setMem a b).t1s = s.t1s := rfl
@[simp] theorem State.setMem_egr (a : Nat) (b : Bytes) : (s.setMem a b).egr = s.egr := rfl
@[simp] theorem State.setMem_mdioQ (a : Nat) (b : Bytes) : (s.setMem a b).mdioQ = s.mdioQ := rfl
@[simp] theorem State.setMem_tsq (a : Nat) (b : Bytes) : (s.setMem a b).tsq = s.tsq := rfl
@[simp] theorem State.setMem_tsqLost (a : Nat) (b : Bytes) : (s.setMem a b).tsqLost = s.tsqLost := rfl
@[simp] theorem State.setMem_tbl (a : Nat) (b : Bytes) : (s.setMem a b).tbl = s.tbl := rfl
@[simp] theorem State.setMem_prs (a : Nat) (b : Bytes) : (s.setMem a b).prs = s.prs := rfl
@[simp] theorem State.setMem_capQ (a : Nat) (b : Bytes) : (s.setMem a b).capQ = s.capQ := rfl
@[simp] theorem State.setMem_evQ (a : Nat) (b : Bytes) : (s.setMem a b).evQ = s.evQ := rfl
@[simp] theorem State.setMem_keys (a : Nat) (b : Bytes) : (s.setMem a b).keys = s.keys := rfl
@[simp] theorem State.setMem_otp (a : Nat) (b : Bytes) : (s.setMem a b).otp = s.otp := rfl
@[simp] theorem State.setMem_otpRead (a : Nat) (b : Bytes) : (s.setMem a b).otpRead = s.otpRead := rfl
@[simp] theorem State.setMem_eye (a : Nat) (b : Bytes) : (s.setMem a b).eye = s.eye := rfl
@[simp] theorem State.setMem_readPort (a : Nat) (b : Bytes) : (s.setMem a b).readPort = s.readPort := rfl
@[simp] theorem State.setMem_readHigh (a : Nat) (b : Bytes) : (s.setMem a b).readHigh = s.readHigh := rfl
@[simp] theorem State.setMem_resv (a : Nat) (b : Bytes) : (s.setMem a b).resv = s.unreserve a b.length := rfl
@[simp] theorem State.setMem_spQ (a : Nat) (b : Bytes) : (s.setMem a b).spQ = s.spQ := rfl
@[simp] theorem State.setMem_brgQ (a : Nat) (b : Bytes) : (s.setMem a b).brgQ = s.brgQ := rfl
@[simp] theorem State.setMem_smp (a : Nat) (b : Bytes) : (s.setMem a b).smp = s.smp := rfl
@[simp] theorem State.setMem_sig (a : Nat) (b : Bytes) : (s.setMem a b).sig = s.sig := rfl
@[simp] theorem State.setMem_lanes (a : Nat) (b : Bytes) : (s.setMem a b).lanes = s.lanes := rfl
@[simp] theorem State.setMem_chain (a : Nat) (b : Bytes) : (s.setMem a b).chain = s.chain := rfl
@[simp] theorem State.setMem_brg (a : Nat) (b : Bytes) : (s.setMem a b).brg = s.brg := rfl
@[simp] theorem State.setMem_ldr (a : Nat) (b : Bytes) : (s.setMem a b).ldr = s.ldr := rfl
@[simp] theorem State.setMem_phy (a : Nat) (b : Bytes) : (s.setMem a b).phy = s.phy := rfl
@[simp] theorem State.setMem_stg (a : Nat) (b : Bytes) : (s.setMem a b).stg = s.stg := rfl
@[simp] theorem State.setMem_freeCtr (a : Nat) (b : Bytes) : (s.setMem a b).freeCtr = s.freeCtr := rfl
@[simp] theorem State.setMem_pending (a : Nat) (b : Bytes) : (s.setMem a b).pending = s.pending := rfl
@[simp] theorem State.setMem_cyc (a : Nat) (b : Bytes) : (s.setMem a b).cyc = s.cyc := rfl
@[simp] theorem State.setMem_sinceDue (a : Nat) (b : Bytes) : (s.setMem a b).sinceDue = s.sinceDue := rfl

/-! ### setPwr -/

@[simp] theorem State.setPwr_regs (f : Power → Power) : (s.setPwr f).regs = s.regs := rfl
@[simp] theorem State.setPwr_latch (f : Power → Power) : (s.setPwr f).latch = s.latch := rfl
@[simp] theorem State.setPwr_sram (f : Power → Power) : (s.setPwr f).sram = s.sram := rfl
@[simp] theorem State.setPwr_mgmt (f : Power → Power) : (s.setPwr f).mgmt = s.mgmt := rfl
@[simp] theorem State.setPwr_ospi0 (f : Power → Power) : (s.setPwr f).ospi0 = s.ospi0 := rfl
@[simp] theorem State.setPwr_ospi1 (f : Power → Power) : (s.setPwr f).ospi1 = s.ospi1 := rfl
@[simp] theorem State.setPwr_dbe (f : Power → Power) : (s.setPwr f).dbe = s.dbe := rfl
@[simp] theorem State.setPwr_sbe (f : Power → Power) : (s.setPwr f).sbe = s.sbe := rfl
@[simp] theorem State.setPwr_pins (f : Power → Power) : (s.setPwr f).pins = s.pins := rfl
@[simp] theorem State.setPwr_clk (f : Power → Power) : (s.setPwr f).clk = s.clk := rfl
@[simp] theorem State.setPwr_ev (f : Power → Power) : (s.setPwr f).ev = s.ev := rfl
@[simp] theorem State.setPwr_rxQ (f : Power → Power) : (s.setPwr f).rxQ = s.rxQ := rfl
@[simp] theorem State.setPwr_admQ (f : Power → Power) : (s.setPwr f).admQ = s.admQ := rfl
@[simp] theorem State.setPwr_gnd (f : Power → Power) : (s.setPwr f).gnd = s.gnd := rfl
@[simp] theorem State.setPwr_outQ (f : Power → Power) : (s.setPwr f).outQ = s.outQ := rfl
@[simp] theorem State.setPwr_sending (f : Power → Power) : (s.setPwr f).sending = s.sending := rfl
@[simp] theorem State.setPwr_sent (f : Power → Power) : (s.setPwr f).sent = s.sent := rfl
@[simp] theorem State.setPwr_eth (f : Power → Power) : (s.setPwr f).eth = s.eth := rfl
@[simp] theorem State.setPwr_can (f : Power → Power) : (s.setPwr f).can = s.can := rfl
@[simp] theorem State.setPwr_t1s (f : Power → Power) : (s.setPwr f).t1s = s.t1s := rfl
@[simp] theorem State.setPwr_egr (f : Power → Power) : (s.setPwr f).egr = s.egr := rfl
@[simp] theorem State.setPwr_mdioQ (f : Power → Power) : (s.setPwr f).mdioQ = s.mdioQ := rfl
@[simp] theorem State.setPwr_tsq (f : Power → Power) : (s.setPwr f).tsq = s.tsq := rfl
@[simp] theorem State.setPwr_tsqLost (f : Power → Power) : (s.setPwr f).tsqLost = s.tsqLost := rfl
@[simp] theorem State.setPwr_tbl (f : Power → Power) : (s.setPwr f).tbl = s.tbl := rfl
@[simp] theorem State.setPwr_prs (f : Power → Power) : (s.setPwr f).prs = s.prs := rfl
@[simp] theorem State.setPwr_capQ (f : Power → Power) : (s.setPwr f).capQ = s.capQ := rfl
@[simp] theorem State.setPwr_evQ (f : Power → Power) : (s.setPwr f).evQ = s.evQ := rfl
@[simp] theorem State.setPwr_keys (f : Power → Power) : (s.setPwr f).keys = s.keys := rfl
@[simp] theorem State.setPwr_otp (f : Power → Power) : (s.setPwr f).otp = s.otp := rfl
@[simp] theorem State.setPwr_otpRead (f : Power → Power) : (s.setPwr f).otpRead = s.otpRead := rfl
@[simp] theorem State.setPwr_eye (f : Power → Power) : (s.setPwr f).eye = s.eye := rfl
@[simp] theorem State.setPwr_readPort (f : Power → Power) : (s.setPwr f).readPort = s.readPort := rfl
@[simp] theorem State.setPwr_readHigh (f : Power → Power) : (s.setPwr f).readHigh = s.readHigh := rfl
@[simp] theorem State.setPwr_resv (f : Power → Power) : (s.setPwr f).resv = s.resv := rfl
@[simp] theorem State.setPwr_spQ (f : Power → Power) : (s.setPwr f).spQ = s.spQ := rfl
@[simp] theorem State.setPwr_brgQ (f : Power → Power) : (s.setPwr f).brgQ = s.brgQ := rfl
@[simp] theorem State.setPwr_smp (f : Power → Power) : (s.setPwr f).smp = s.smp := rfl
@[simp] theorem State.setPwr_sig (f : Power → Power) : (s.setPwr f).sig = s.sig := rfl
@[simp] theorem State.setPwr_lanes (f : Power → Power) : (s.setPwr f).lanes = s.lanes := rfl
@[simp] theorem State.setPwr_chain (f : Power → Power) : (s.setPwr f).chain = s.chain := rfl
@[simp] theorem State.setPwr_brg (f : Power → Power) : (s.setPwr f).brg = s.brg := rfl
@[simp] theorem State.setPwr_ldr (f : Power → Power) : (s.setPwr f).ldr = s.ldr := rfl
@[simp] theorem State.setPwr_phy (f : Power → Power) : (s.setPwr f).phy = s.phy := rfl
@[simp] theorem State.setPwr_stg (f : Power → Power) : (s.setPwr f).stg = s.stg := rfl
@[simp] theorem State.setPwr_freeCtr (f : Power → Power) : (s.setPwr f).freeCtr = s.freeCtr := rfl
@[simp] theorem State.setPwr_pending (f : Power → Power) : (s.setPwr f).pending = s.pending := rfl
@[simp] theorem State.setPwr_cyc (f : Power → Power) : (s.setPwr f).cyc = s.cyc := rfl
@[simp] theorem State.setPwr_sinceDue (f : Power → Power) : (s.setPwr f).sinceDue = s.sinceDue := rfl

/-! ### setEthP -/

@[simp] theorem State.setEthP_regs (p : Nat) (v : EthPort) : (s.setEthP p v).regs = s.regs := rfl
@[simp] theorem State.setEthP_latch (p : Nat) (v : EthPort) : (s.setEthP p v).latch = s.latch := rfl
@[simp] theorem State.setEthP_sram (p : Nat) (v : EthPort) : (s.setEthP p v).sram = s.sram := rfl
@[simp] theorem State.setEthP_mgmt (p : Nat) (v : EthPort) : (s.setEthP p v).mgmt = s.mgmt := rfl
@[simp] theorem State.setEthP_ospi0 (p : Nat) (v : EthPort) : (s.setEthP p v).ospi0 = s.ospi0 := rfl
@[simp] theorem State.setEthP_ospi1 (p : Nat) (v : EthPort) : (s.setEthP p v).ospi1 = s.ospi1 := rfl
@[simp] theorem State.setEthP_dbe (p : Nat) (v : EthPort) : (s.setEthP p v).dbe = s.dbe := rfl
@[simp] theorem State.setEthP_sbe (p : Nat) (v : EthPort) : (s.setEthP p v).sbe = s.sbe := rfl
@[simp] theorem State.setEthP_pwr (p : Nat) (v : EthPort) : (s.setEthP p v).pwr = s.pwr := rfl
@[simp] theorem State.setEthP_pins (p : Nat) (v : EthPort) : (s.setEthP p v).pins = s.pins := rfl
@[simp] theorem State.setEthP_clk (p : Nat) (v : EthPort) : (s.setEthP p v).clk = s.clk := rfl
@[simp] theorem State.setEthP_ev (p : Nat) (v : EthPort) : (s.setEthP p v).ev = s.ev := rfl
@[simp] theorem State.setEthP_rxQ (p : Nat) (v : EthPort) : (s.setEthP p v).rxQ = s.rxQ := rfl
@[simp] theorem State.setEthP_admQ (p : Nat) (v : EthPort) : (s.setEthP p v).admQ = s.admQ := rfl
@[simp] theorem State.setEthP_gnd (p : Nat) (v : EthPort) : (s.setEthP p v).gnd = s.gnd := rfl
@[simp] theorem State.setEthP_outQ (p : Nat) (v : EthPort) : (s.setEthP p v).outQ = s.outQ := rfl
@[simp] theorem State.setEthP_sending (p : Nat) (v : EthPort) : (s.setEthP p v).sending = s.sending := rfl
@[simp] theorem State.setEthP_sent (p : Nat) (v : EthPort) : (s.setEthP p v).sent = s.sent := rfl
@[simp] theorem State.setEthP_can (p : Nat) (v : EthPort) : (s.setEthP p v).can = s.can := rfl
@[simp] theorem State.setEthP_t1s (p : Nat) (v : EthPort) : (s.setEthP p v).t1s = s.t1s := rfl
@[simp] theorem State.setEthP_egr (p : Nat) (v : EthPort) : (s.setEthP p v).egr = s.egr := rfl
@[simp] theorem State.setEthP_mdioQ (p : Nat) (v : EthPort) : (s.setEthP p v).mdioQ = s.mdioQ := rfl
@[simp] theorem State.setEthP_tsq (p : Nat) (v : EthPort) : (s.setEthP p v).tsq = s.tsq := rfl
@[simp] theorem State.setEthP_tsqLost (p : Nat) (v : EthPort) : (s.setEthP p v).tsqLost = s.tsqLost := rfl
@[simp] theorem State.setEthP_tbl (p : Nat) (v : EthPort) : (s.setEthP p v).tbl = s.tbl := rfl
@[simp] theorem State.setEthP_prs (p : Nat) (v : EthPort) : (s.setEthP p v).prs = s.prs := rfl
@[simp] theorem State.setEthP_capQ (p : Nat) (v : EthPort) : (s.setEthP p v).capQ = s.capQ := rfl
@[simp] theorem State.setEthP_evQ (p : Nat) (v : EthPort) : (s.setEthP p v).evQ = s.evQ := rfl
@[simp] theorem State.setEthP_keys (p : Nat) (v : EthPort) : (s.setEthP p v).keys = s.keys := rfl
@[simp] theorem State.setEthP_otp (p : Nat) (v : EthPort) : (s.setEthP p v).otp = s.otp := rfl
@[simp] theorem State.setEthP_otpRead (p : Nat) (v : EthPort) : (s.setEthP p v).otpRead = s.otpRead := rfl
@[simp] theorem State.setEthP_eye (p : Nat) (v : EthPort) : (s.setEthP p v).eye = s.eye := rfl
@[simp] theorem State.setEthP_readPort (p : Nat) (v : EthPort) : (s.setEthP p v).readPort = s.readPort := rfl
@[simp] theorem State.setEthP_readHigh (p : Nat) (v : EthPort) : (s.setEthP p v).readHigh = s.readHigh := rfl
@[simp] theorem State.setEthP_resv (p : Nat) (v : EthPort) : (s.setEthP p v).resv = s.resv := rfl
@[simp] theorem State.setEthP_spQ (p : Nat) (v : EthPort) : (s.setEthP p v).spQ = s.spQ := rfl
@[simp] theorem State.setEthP_brgQ (p : Nat) (v : EthPort) : (s.setEthP p v).brgQ = s.brgQ := rfl
@[simp] theorem State.setEthP_smp (p : Nat) (v : EthPort) : (s.setEthP p v).smp = s.smp := rfl
@[simp] theorem State.setEthP_sig (p : Nat) (v : EthPort) : (s.setEthP p v).sig = s.sig := rfl
@[simp] theorem State.setEthP_lanes (p : Nat) (v : EthPort) : (s.setEthP p v).lanes = s.lanes := rfl
@[simp] theorem State.setEthP_chain (p : Nat) (v : EthPort) : (s.setEthP p v).chain = s.chain := rfl
@[simp] theorem State.setEthP_brg (p : Nat) (v : EthPort) : (s.setEthP p v).brg = s.brg := rfl
@[simp] theorem State.setEthP_ldr (p : Nat) (v : EthPort) : (s.setEthP p v).ldr = s.ldr := rfl
@[simp] theorem State.setEthP_phy (p : Nat) (v : EthPort) : (s.setEthP p v).phy = s.phy := rfl
@[simp] theorem State.setEthP_stg (p : Nat) (v : EthPort) : (s.setEthP p v).stg = s.stg := rfl
@[simp] theorem State.setEthP_freeCtr (p : Nat) (v : EthPort) : (s.setEthP p v).freeCtr = s.freeCtr := rfl
@[simp] theorem State.setEthP_pending (p : Nat) (v : EthPort) : (s.setEthP p v).pending = s.pending := rfl
@[simp] theorem State.setEthP_cyc (p : Nat) (v : EthPort) : (s.setEthP p v).cyc = s.cyc := rfl
@[simp] theorem State.setEthP_sinceDue (p : Nat) (v : EthPort) : (s.setEthP p v).sinceDue = s.sinceDue := rfl

/-! ### setCanP -/

@[simp] theorem State.setCanP_regs (p : Nat) (v : CanPort) : (s.setCanP p v).regs = s.regs := rfl
@[simp] theorem State.setCanP_latch (p : Nat) (v : CanPort) : (s.setCanP p v).latch = s.latch := rfl
@[simp] theorem State.setCanP_sram (p : Nat) (v : CanPort) : (s.setCanP p v).sram = s.sram := rfl
@[simp] theorem State.setCanP_mgmt (p : Nat) (v : CanPort) : (s.setCanP p v).mgmt = s.mgmt := rfl
@[simp] theorem State.setCanP_ospi0 (p : Nat) (v : CanPort) : (s.setCanP p v).ospi0 = s.ospi0 := rfl
@[simp] theorem State.setCanP_ospi1 (p : Nat) (v : CanPort) : (s.setCanP p v).ospi1 = s.ospi1 := rfl
@[simp] theorem State.setCanP_dbe (p : Nat) (v : CanPort) : (s.setCanP p v).dbe = s.dbe := rfl
@[simp] theorem State.setCanP_sbe (p : Nat) (v : CanPort) : (s.setCanP p v).sbe = s.sbe := rfl
@[simp] theorem State.setCanP_pwr (p : Nat) (v : CanPort) : (s.setCanP p v).pwr = s.pwr := rfl
@[simp] theorem State.setCanP_pins (p : Nat) (v : CanPort) : (s.setCanP p v).pins = s.pins := rfl
@[simp] theorem State.setCanP_clk (p : Nat) (v : CanPort) : (s.setCanP p v).clk = s.clk := rfl
@[simp] theorem State.setCanP_ev (p : Nat) (v : CanPort) : (s.setCanP p v).ev = s.ev := rfl
@[simp] theorem State.setCanP_rxQ (p : Nat) (v : CanPort) : (s.setCanP p v).rxQ = s.rxQ := rfl
@[simp] theorem State.setCanP_admQ (p : Nat) (v : CanPort) : (s.setCanP p v).admQ = s.admQ := rfl
@[simp] theorem State.setCanP_gnd (p : Nat) (v : CanPort) : (s.setCanP p v).gnd = s.gnd := rfl
@[simp] theorem State.setCanP_outQ (p : Nat) (v : CanPort) : (s.setCanP p v).outQ = s.outQ := rfl
@[simp] theorem State.setCanP_sending (p : Nat) (v : CanPort) : (s.setCanP p v).sending = s.sending := rfl
@[simp] theorem State.setCanP_sent (p : Nat) (v : CanPort) : (s.setCanP p v).sent = s.sent := rfl
@[simp] theorem State.setCanP_eth (p : Nat) (v : CanPort) : (s.setCanP p v).eth = s.eth := rfl
@[simp] theorem State.setCanP_t1s (p : Nat) (v : CanPort) : (s.setCanP p v).t1s = s.t1s := rfl
@[simp] theorem State.setCanP_egr (p : Nat) (v : CanPort) : (s.setCanP p v).egr = s.egr := rfl
@[simp] theorem State.setCanP_mdioQ (p : Nat) (v : CanPort) : (s.setCanP p v).mdioQ = s.mdioQ := rfl
@[simp] theorem State.setCanP_tsq (p : Nat) (v : CanPort) : (s.setCanP p v).tsq = s.tsq := rfl
@[simp] theorem State.setCanP_tsqLost (p : Nat) (v : CanPort) : (s.setCanP p v).tsqLost = s.tsqLost := rfl
@[simp] theorem State.setCanP_tbl (p : Nat) (v : CanPort) : (s.setCanP p v).tbl = s.tbl := rfl
@[simp] theorem State.setCanP_prs (p : Nat) (v : CanPort) : (s.setCanP p v).prs = s.prs := rfl
@[simp] theorem State.setCanP_capQ (p : Nat) (v : CanPort) : (s.setCanP p v).capQ = s.capQ := rfl
@[simp] theorem State.setCanP_evQ (p : Nat) (v : CanPort) : (s.setCanP p v).evQ = s.evQ := rfl
@[simp] theorem State.setCanP_keys (p : Nat) (v : CanPort) : (s.setCanP p v).keys = s.keys := rfl
@[simp] theorem State.setCanP_otp (p : Nat) (v : CanPort) : (s.setCanP p v).otp = s.otp := rfl
@[simp] theorem State.setCanP_otpRead (p : Nat) (v : CanPort) : (s.setCanP p v).otpRead = s.otpRead := rfl
@[simp] theorem State.setCanP_eye (p : Nat) (v : CanPort) : (s.setCanP p v).eye = s.eye := rfl
@[simp] theorem State.setCanP_readPort (p : Nat) (v : CanPort) : (s.setCanP p v).readPort = s.readPort := rfl
@[simp] theorem State.setCanP_readHigh (p : Nat) (v : CanPort) : (s.setCanP p v).readHigh = s.readHigh := rfl
@[simp] theorem State.setCanP_resv (p : Nat) (v : CanPort) : (s.setCanP p v).resv = s.resv := rfl
@[simp] theorem State.setCanP_spQ (p : Nat) (v : CanPort) : (s.setCanP p v).spQ = s.spQ := rfl
@[simp] theorem State.setCanP_brgQ (p : Nat) (v : CanPort) : (s.setCanP p v).brgQ = s.brgQ := rfl
@[simp] theorem State.setCanP_smp (p : Nat) (v : CanPort) : (s.setCanP p v).smp = s.smp := rfl
@[simp] theorem State.setCanP_sig (p : Nat) (v : CanPort) : (s.setCanP p v).sig = s.sig := rfl
@[simp] theorem State.setCanP_lanes (p : Nat) (v : CanPort) : (s.setCanP p v).lanes = s.lanes := rfl
@[simp] theorem State.setCanP_chain (p : Nat) (v : CanPort) : (s.setCanP p v).chain = s.chain := rfl
@[simp] theorem State.setCanP_brg (p : Nat) (v : CanPort) : (s.setCanP p v).brg = s.brg := rfl
@[simp] theorem State.setCanP_ldr (p : Nat) (v : CanPort) : (s.setCanP p v).ldr = s.ldr := rfl
@[simp] theorem State.setCanP_phy (p : Nat) (v : CanPort) : (s.setCanP p v).phy = s.phy := rfl
@[simp] theorem State.setCanP_stg (p : Nat) (v : CanPort) : (s.setCanP p v).stg = s.stg := rfl
@[simp] theorem State.setCanP_freeCtr (p : Nat) (v : CanPort) : (s.setCanP p v).freeCtr = s.freeCtr := rfl
@[simp] theorem State.setCanP_pending (p : Nat) (v : CanPort) : (s.setCanP p v).pending = s.pending := rfl
@[simp] theorem State.setCanP_cyc (p : Nat) (v : CanPort) : (s.setCanP p v).cyc = s.cyc := rfl
@[simp] theorem State.setCanP_sinceDue (p : Nat) (v : CanPort) : (s.setCanP p v).sinceDue = s.sinceDue := rfl

/-! ### setT1sP -/

@[simp] theorem State.setT1sP_regs (p : Nat) (v : T1sPort) : (s.setT1sP p v).regs = s.regs := rfl
@[simp] theorem State.setT1sP_latch (p : Nat) (v : T1sPort) : (s.setT1sP p v).latch = s.latch := rfl
@[simp] theorem State.setT1sP_sram (p : Nat) (v : T1sPort) : (s.setT1sP p v).sram = s.sram := rfl
@[simp] theorem State.setT1sP_mgmt (p : Nat) (v : T1sPort) : (s.setT1sP p v).mgmt = s.mgmt := rfl
@[simp] theorem State.setT1sP_ospi0 (p : Nat) (v : T1sPort) : (s.setT1sP p v).ospi0 = s.ospi0 := rfl
@[simp] theorem State.setT1sP_ospi1 (p : Nat) (v : T1sPort) : (s.setT1sP p v).ospi1 = s.ospi1 := rfl
@[simp] theorem State.setT1sP_dbe (p : Nat) (v : T1sPort) : (s.setT1sP p v).dbe = s.dbe := rfl
@[simp] theorem State.setT1sP_sbe (p : Nat) (v : T1sPort) : (s.setT1sP p v).sbe = s.sbe := rfl
@[simp] theorem State.setT1sP_pwr (p : Nat) (v : T1sPort) : (s.setT1sP p v).pwr = s.pwr := rfl
@[simp] theorem State.setT1sP_pins (p : Nat) (v : T1sPort) : (s.setT1sP p v).pins = s.pins := rfl
@[simp] theorem State.setT1sP_clk (p : Nat) (v : T1sPort) : (s.setT1sP p v).clk = s.clk := rfl
@[simp] theorem State.setT1sP_ev (p : Nat) (v : T1sPort) : (s.setT1sP p v).ev = s.ev := rfl
@[simp] theorem State.setT1sP_rxQ (p : Nat) (v : T1sPort) : (s.setT1sP p v).rxQ = s.rxQ := rfl
@[simp] theorem State.setT1sP_admQ (p : Nat) (v : T1sPort) : (s.setT1sP p v).admQ = s.admQ := rfl
@[simp] theorem State.setT1sP_gnd (p : Nat) (v : T1sPort) : (s.setT1sP p v).gnd = s.gnd := rfl
@[simp] theorem State.setT1sP_outQ (p : Nat) (v : T1sPort) : (s.setT1sP p v).outQ = s.outQ := rfl
@[simp] theorem State.setT1sP_sending (p : Nat) (v : T1sPort) : (s.setT1sP p v).sending = s.sending := rfl
@[simp] theorem State.setT1sP_sent (p : Nat) (v : T1sPort) : (s.setT1sP p v).sent = s.sent := rfl
@[simp] theorem State.setT1sP_eth (p : Nat) (v : T1sPort) : (s.setT1sP p v).eth = s.eth := rfl
@[simp] theorem State.setT1sP_can (p : Nat) (v : T1sPort) : (s.setT1sP p v).can = s.can := rfl
@[simp] theorem State.setT1sP_egr (p : Nat) (v : T1sPort) : (s.setT1sP p v).egr = s.egr := rfl
@[simp] theorem State.setT1sP_mdioQ (p : Nat) (v : T1sPort) : (s.setT1sP p v).mdioQ = s.mdioQ := rfl
@[simp] theorem State.setT1sP_tsq (p : Nat) (v : T1sPort) : (s.setT1sP p v).tsq = s.tsq := rfl
@[simp] theorem State.setT1sP_tsqLost (p : Nat) (v : T1sPort) : (s.setT1sP p v).tsqLost = s.tsqLost := rfl
@[simp] theorem State.setT1sP_tbl (p : Nat) (v : T1sPort) : (s.setT1sP p v).tbl = s.tbl := rfl
@[simp] theorem State.setT1sP_prs (p : Nat) (v : T1sPort) : (s.setT1sP p v).prs = s.prs := rfl
@[simp] theorem State.setT1sP_capQ (p : Nat) (v : T1sPort) : (s.setT1sP p v).capQ = s.capQ := rfl
@[simp] theorem State.setT1sP_evQ (p : Nat) (v : T1sPort) : (s.setT1sP p v).evQ = s.evQ := rfl
@[simp] theorem State.setT1sP_keys (p : Nat) (v : T1sPort) : (s.setT1sP p v).keys = s.keys := rfl
@[simp] theorem State.setT1sP_otp (p : Nat) (v : T1sPort) : (s.setT1sP p v).otp = s.otp := rfl
@[simp] theorem State.setT1sP_otpRead (p : Nat) (v : T1sPort) : (s.setT1sP p v).otpRead = s.otpRead := rfl
@[simp] theorem State.setT1sP_eye (p : Nat) (v : T1sPort) : (s.setT1sP p v).eye = s.eye := rfl
@[simp] theorem State.setT1sP_readPort (p : Nat) (v : T1sPort) : (s.setT1sP p v).readPort = s.readPort := rfl
@[simp] theorem State.setT1sP_readHigh (p : Nat) (v : T1sPort) : (s.setT1sP p v).readHigh = s.readHigh := rfl
@[simp] theorem State.setT1sP_resv (p : Nat) (v : T1sPort) : (s.setT1sP p v).resv = s.resv := rfl
@[simp] theorem State.setT1sP_spQ (p : Nat) (v : T1sPort) : (s.setT1sP p v).spQ = s.spQ := rfl
@[simp] theorem State.setT1sP_brgQ (p : Nat) (v : T1sPort) : (s.setT1sP p v).brgQ = s.brgQ := rfl
@[simp] theorem State.setT1sP_smp (p : Nat) (v : T1sPort) : (s.setT1sP p v).smp = s.smp := rfl
@[simp] theorem State.setT1sP_sig (p : Nat) (v : T1sPort) : (s.setT1sP p v).sig = s.sig := rfl
@[simp] theorem State.setT1sP_lanes (p : Nat) (v : T1sPort) : (s.setT1sP p v).lanes = s.lanes := rfl
@[simp] theorem State.setT1sP_chain (p : Nat) (v : T1sPort) : (s.setT1sP p v).chain = s.chain := rfl
@[simp] theorem State.setT1sP_brg (p : Nat) (v : T1sPort) : (s.setT1sP p v).brg = s.brg := rfl
@[simp] theorem State.setT1sP_ldr (p : Nat) (v : T1sPort) : (s.setT1sP p v).ldr = s.ldr := rfl
@[simp] theorem State.setT1sP_phy (p : Nat) (v : T1sPort) : (s.setT1sP p v).phy = s.phy := rfl
@[simp] theorem State.setT1sP_stg (p : Nat) (v : T1sPort) : (s.setT1sP p v).stg = s.stg := rfl
@[simp] theorem State.setT1sP_freeCtr (p : Nat) (v : T1sPort) : (s.setT1sP p v).freeCtr = s.freeCtr := rfl
@[simp] theorem State.setT1sP_pending (p : Nat) (v : T1sPort) : (s.setT1sP p v).pending = s.pending := rfl
@[simp] theorem State.setT1sP_cyc (p : Nat) (v : T1sPort) : (s.setT1sP p v).cyc = s.cyc := rfl
@[simp] theorem State.setT1sP_sinceDue (p : Nat) (v : T1sPort) : (s.setT1sP p v).sinceDue = s.sinceDue := rfl

/-! ### setEgrP -/

@[simp] theorem State.setEgrP_regs (p : Nat) (v : EgrPort) : (s.setEgrP p v).regs = s.regs := rfl
@[simp] theorem State.setEgrP_latch (p : Nat) (v : EgrPort) : (s.setEgrP p v).latch = s.latch := rfl
@[simp] theorem State.setEgrP_sram (p : Nat) (v : EgrPort) : (s.setEgrP p v).sram = s.sram := rfl
@[simp] theorem State.setEgrP_mgmt (p : Nat) (v : EgrPort) : (s.setEgrP p v).mgmt = s.mgmt := rfl
@[simp] theorem State.setEgrP_ospi0 (p : Nat) (v : EgrPort) : (s.setEgrP p v).ospi0 = s.ospi0 := rfl
@[simp] theorem State.setEgrP_ospi1 (p : Nat) (v : EgrPort) : (s.setEgrP p v).ospi1 = s.ospi1 := rfl
@[simp] theorem State.setEgrP_dbe (p : Nat) (v : EgrPort) : (s.setEgrP p v).dbe = s.dbe := rfl
@[simp] theorem State.setEgrP_sbe (p : Nat) (v : EgrPort) : (s.setEgrP p v).sbe = s.sbe := rfl
@[simp] theorem State.setEgrP_pwr (p : Nat) (v : EgrPort) : (s.setEgrP p v).pwr = s.pwr := rfl
@[simp] theorem State.setEgrP_pins (p : Nat) (v : EgrPort) : (s.setEgrP p v).pins = s.pins := rfl
@[simp] theorem State.setEgrP_clk (p : Nat) (v : EgrPort) : (s.setEgrP p v).clk = s.clk := rfl
@[simp] theorem State.setEgrP_ev (p : Nat) (v : EgrPort) : (s.setEgrP p v).ev = s.ev := rfl
@[simp] theorem State.setEgrP_rxQ (p : Nat) (v : EgrPort) : (s.setEgrP p v).rxQ = s.rxQ := rfl
@[simp] theorem State.setEgrP_admQ (p : Nat) (v : EgrPort) : (s.setEgrP p v).admQ = s.admQ := rfl
@[simp] theorem State.setEgrP_gnd (p : Nat) (v : EgrPort) : (s.setEgrP p v).gnd = s.gnd := rfl
@[simp] theorem State.setEgrP_outQ (p : Nat) (v : EgrPort) : (s.setEgrP p v).outQ = s.outQ := rfl
@[simp] theorem State.setEgrP_sending (p : Nat) (v : EgrPort) : (s.setEgrP p v).sending = s.sending := rfl
@[simp] theorem State.setEgrP_sent (p : Nat) (v : EgrPort) : (s.setEgrP p v).sent = s.sent := rfl
@[simp] theorem State.setEgrP_eth (p : Nat) (v : EgrPort) : (s.setEgrP p v).eth = s.eth := rfl
@[simp] theorem State.setEgrP_can (p : Nat) (v : EgrPort) : (s.setEgrP p v).can = s.can := rfl
@[simp] theorem State.setEgrP_t1s (p : Nat) (v : EgrPort) : (s.setEgrP p v).t1s = s.t1s := rfl
@[simp] theorem State.setEgrP_mdioQ (p : Nat) (v : EgrPort) : (s.setEgrP p v).mdioQ = s.mdioQ := rfl
@[simp] theorem State.setEgrP_tsq (p : Nat) (v : EgrPort) : (s.setEgrP p v).tsq = s.tsq := rfl
@[simp] theorem State.setEgrP_tsqLost (p : Nat) (v : EgrPort) : (s.setEgrP p v).tsqLost = s.tsqLost := rfl
@[simp] theorem State.setEgrP_tbl (p : Nat) (v : EgrPort) : (s.setEgrP p v).tbl = s.tbl := rfl
@[simp] theorem State.setEgrP_prs (p : Nat) (v : EgrPort) : (s.setEgrP p v).prs = s.prs := rfl
@[simp] theorem State.setEgrP_capQ (p : Nat) (v : EgrPort) : (s.setEgrP p v).capQ = s.capQ := rfl
@[simp] theorem State.setEgrP_evQ (p : Nat) (v : EgrPort) : (s.setEgrP p v).evQ = s.evQ := rfl
@[simp] theorem State.setEgrP_keys (p : Nat) (v : EgrPort) : (s.setEgrP p v).keys = s.keys := rfl
@[simp] theorem State.setEgrP_otp (p : Nat) (v : EgrPort) : (s.setEgrP p v).otp = s.otp := rfl
@[simp] theorem State.setEgrP_otpRead (p : Nat) (v : EgrPort) : (s.setEgrP p v).otpRead = s.otpRead := rfl
@[simp] theorem State.setEgrP_eye (p : Nat) (v : EgrPort) : (s.setEgrP p v).eye = s.eye := rfl
@[simp] theorem State.setEgrP_readPort (p : Nat) (v : EgrPort) : (s.setEgrP p v).readPort = s.readPort := rfl
@[simp] theorem State.setEgrP_readHigh (p : Nat) (v : EgrPort) : (s.setEgrP p v).readHigh = s.readHigh := rfl
@[simp] theorem State.setEgrP_resv (p : Nat) (v : EgrPort) : (s.setEgrP p v).resv = s.resv := rfl
@[simp] theorem State.setEgrP_spQ (p : Nat) (v : EgrPort) : (s.setEgrP p v).spQ = s.spQ := rfl
@[simp] theorem State.setEgrP_brgQ (p : Nat) (v : EgrPort) : (s.setEgrP p v).brgQ = s.brgQ := rfl
@[simp] theorem State.setEgrP_smp (p : Nat) (v : EgrPort) : (s.setEgrP p v).smp = s.smp := rfl
@[simp] theorem State.setEgrP_sig (p : Nat) (v : EgrPort) : (s.setEgrP p v).sig = s.sig := rfl
@[simp] theorem State.setEgrP_lanes (p : Nat) (v : EgrPort) : (s.setEgrP p v).lanes = s.lanes := rfl
@[simp] theorem State.setEgrP_chain (p : Nat) (v : EgrPort) : (s.setEgrP p v).chain = s.chain := rfl
@[simp] theorem State.setEgrP_brg (p : Nat) (v : EgrPort) : (s.setEgrP p v).brg = s.brg := rfl
@[simp] theorem State.setEgrP_ldr (p : Nat) (v : EgrPort) : (s.setEgrP p v).ldr = s.ldr := rfl
@[simp] theorem State.setEgrP_phy (p : Nat) (v : EgrPort) : (s.setEgrP p v).phy = s.phy := rfl
@[simp] theorem State.setEgrP_stg (p : Nat) (v : EgrPort) : (s.setEgrP p v).stg = s.stg := rfl
@[simp] theorem State.setEgrP_freeCtr (p : Nat) (v : EgrPort) : (s.setEgrP p v).freeCtr = s.freeCtr := rfl
@[simp] theorem State.setEgrP_pending (p : Nat) (v : EgrPort) : (s.setEgrP p v).pending = s.pending := rfl
@[simp] theorem State.setEgrP_cyc (p : Nat) (v : EgrPort) : (s.setEgrP p v).cyc = s.cyc := rfl
@[simp] theorem State.setEgrP_sinceDue (p : Nat) (v : EgrPort) : (s.setEgrP p v).sinceDue = s.sinceDue := rfl

/-! ### setLane -/

@[simp] theorem State.setLane_regs (b : Nat) (l : Lane) : (s.setLane b l).regs = s.regs := rfl
@[simp] theorem State.setLane_latch (b : Nat) (l : Lane) : (s.setLane b l).latch = s.latch := rfl
@[simp] theorem State.setLane_sram (b : Nat) (l : Lane) : (s.setLane b l).sram = s.sram := rfl
@[simp] theorem State.setLane_mgmt (b : Nat) (l : Lane) : (s.setLane b l).mgmt = s.mgmt := rfl
@[simp] theorem State.setLane_ospi0 (b : Nat) (l : Lane) : (s.setLane b l).ospi0 = s.ospi0 := rfl
@[simp] theorem State.setLane_ospi1 (b : Nat) (l : Lane) : (s.setLane b l).ospi1 = s.ospi1 := rfl
@[simp] theorem State.setLane_dbe (b : Nat) (l : Lane) : (s.setLane b l).dbe = s.dbe := rfl
@[simp] theorem State.setLane_sbe (b : Nat) (l : Lane) : (s.setLane b l).sbe = s.sbe := rfl
@[simp] theorem State.setLane_pwr (b : Nat) (l : Lane) : (s.setLane b l).pwr = s.pwr := rfl
@[simp] theorem State.setLane_pins (b : Nat) (l : Lane) : (s.setLane b l).pins = s.pins := rfl
@[simp] theorem State.setLane_clk (b : Nat) (l : Lane) : (s.setLane b l).clk = s.clk := rfl
@[simp] theorem State.setLane_ev (b : Nat) (l : Lane) : (s.setLane b l).ev = s.ev := rfl
@[simp] theorem State.setLane_rxQ (b : Nat) (l : Lane) : (s.setLane b l).rxQ = s.rxQ := rfl
@[simp] theorem State.setLane_admQ (b : Nat) (l : Lane) : (s.setLane b l).admQ = s.admQ := rfl
@[simp] theorem State.setLane_gnd (b : Nat) (l : Lane) : (s.setLane b l).gnd = s.gnd := rfl
@[simp] theorem State.setLane_outQ (b : Nat) (l : Lane) : (s.setLane b l).outQ = s.outQ := rfl
@[simp] theorem State.setLane_sending (b : Nat) (l : Lane) : (s.setLane b l).sending = s.sending := rfl
@[simp] theorem State.setLane_sent (b : Nat) (l : Lane) : (s.setLane b l).sent = s.sent := rfl
@[simp] theorem State.setLane_eth (b : Nat) (l : Lane) : (s.setLane b l).eth = s.eth := rfl
@[simp] theorem State.setLane_can (b : Nat) (l : Lane) : (s.setLane b l).can = s.can := rfl
@[simp] theorem State.setLane_t1s (b : Nat) (l : Lane) : (s.setLane b l).t1s = s.t1s := rfl
@[simp] theorem State.setLane_egr (b : Nat) (l : Lane) : (s.setLane b l).egr = s.egr := rfl
@[simp] theorem State.setLane_mdioQ (b : Nat) (l : Lane) : (s.setLane b l).mdioQ = s.mdioQ := rfl
@[simp] theorem State.setLane_tsq (b : Nat) (l : Lane) : (s.setLane b l).tsq = s.tsq := rfl
@[simp] theorem State.setLane_tsqLost (b : Nat) (l : Lane) : (s.setLane b l).tsqLost = s.tsqLost := rfl
@[simp] theorem State.setLane_tbl (b : Nat) (l : Lane) : (s.setLane b l).tbl = s.tbl := rfl
@[simp] theorem State.setLane_prs (b : Nat) (l : Lane) : (s.setLane b l).prs = s.prs := rfl
@[simp] theorem State.setLane_capQ (b : Nat) (l : Lane) : (s.setLane b l).capQ = s.capQ := rfl
@[simp] theorem State.setLane_evQ (b : Nat) (l : Lane) : (s.setLane b l).evQ = s.evQ := rfl
@[simp] theorem State.setLane_keys (b : Nat) (l : Lane) : (s.setLane b l).keys = s.keys := rfl
@[simp] theorem State.setLane_otp (b : Nat) (l : Lane) : (s.setLane b l).otp = s.otp := rfl
@[simp] theorem State.setLane_otpRead (b : Nat) (l : Lane) : (s.setLane b l).otpRead = s.otpRead := rfl
@[simp] theorem State.setLane_eye (b : Nat) (l : Lane) : (s.setLane b l).eye = s.eye := rfl
@[simp] theorem State.setLane_readPort (b : Nat) (l : Lane) : (s.setLane b l).readPort = s.readPort := rfl
@[simp] theorem State.setLane_readHigh (b : Nat) (l : Lane) : (s.setLane b l).readHigh = s.readHigh := rfl
@[simp] theorem State.setLane_resv (b : Nat) (l : Lane) : (s.setLane b l).resv = s.resv := rfl
@[simp] theorem State.setLane_spQ (b : Nat) (l : Lane) : (s.setLane b l).spQ = s.spQ := rfl
@[simp] theorem State.setLane_brgQ (b : Nat) (l : Lane) : (s.setLane b l).brgQ = s.brgQ := rfl
@[simp] theorem State.setLane_smp (b : Nat) (l : Lane) : (s.setLane b l).smp = s.smp := rfl
@[simp] theorem State.setLane_sig (b : Nat) (l : Lane) : (s.setLane b l).sig = s.sig := rfl
@[simp] theorem State.setLane_chain (b : Nat) (l : Lane) : (s.setLane b l).chain = s.chain := rfl
@[simp] theorem State.setLane_brg (b : Nat) (l : Lane) : (s.setLane b l).brg = s.brg := rfl
@[simp] theorem State.setLane_ldr (b : Nat) (l : Lane) : (s.setLane b l).ldr = s.ldr := rfl
@[simp] theorem State.setLane_phy (b : Nat) (l : Lane) : (s.setLane b l).phy = s.phy := rfl
@[simp] theorem State.setLane_stg (b : Nat) (l : Lane) : (s.setLane b l).stg = s.stg := rfl
@[simp] theorem State.setLane_freeCtr (b : Nat) (l : Lane) : (s.setLane b l).freeCtr = s.freeCtr := rfl
@[simp] theorem State.setLane_pending (b : Nat) (l : Lane) : (s.setLane b l).pending = s.pending := rfl
@[simp] theorem State.setLane_cyc (b : Nat) (l : Lane) : (s.setLane b l).cyc = s.cyc := rfl
@[simp] theorem State.setLane_sinceDue (b : Nat) (l : Lane) : (s.setLane b l).sinceDue = s.sinceDue := rfl

/-! ### setTbl -/

@[simp] theorem State.setTbl_regs (f : Tables → Tables) : (s.setTbl f).regs = s.regs := rfl
@[simp] theorem State.setTbl_latch (f : Tables → Tables) : (s.setTbl f).latch = s.latch := rfl
@[simp] theorem State.setTbl_sram (f : Tables → Tables) : (s.setTbl f).sram = s.sram := rfl
@[simp] theorem State.setTbl_mgmt (f : Tables → Tables) : (s.setTbl f).mgmt = s.mgmt := rfl
@[simp] theorem State.setTbl_ospi0 (f : Tables → Tables) : (s.setTbl f).ospi0 = s.ospi0 := rfl
@[simp] theorem State.setTbl_ospi1 (f : Tables → Tables) : (s.setTbl f).ospi1 = s.ospi1 := rfl
@[simp] theorem State.setTbl_dbe (f : Tables → Tables) : (s.setTbl f).dbe = s.dbe := rfl
@[simp] theorem State.setTbl_sbe (f : Tables → Tables) : (s.setTbl f).sbe = s.sbe := rfl
@[simp] theorem State.setTbl_pwr (f : Tables → Tables) : (s.setTbl f).pwr = s.pwr := rfl
@[simp] theorem State.setTbl_pins (f : Tables → Tables) : (s.setTbl f).pins = s.pins := rfl
@[simp] theorem State.setTbl_clk (f : Tables → Tables) : (s.setTbl f).clk = s.clk := rfl
@[simp] theorem State.setTbl_ev (f : Tables → Tables) : (s.setTbl f).ev = s.ev := rfl
@[simp] theorem State.setTbl_rxQ (f : Tables → Tables) : (s.setTbl f).rxQ = s.rxQ := rfl
@[simp] theorem State.setTbl_admQ (f : Tables → Tables) : (s.setTbl f).admQ = s.admQ := rfl
@[simp] theorem State.setTbl_gnd (f : Tables → Tables) : (s.setTbl f).gnd = s.gnd := rfl
@[simp] theorem State.setTbl_outQ (f : Tables → Tables) : (s.setTbl f).outQ = s.outQ := rfl
@[simp] theorem State.setTbl_sending (f : Tables → Tables) : (s.setTbl f).sending = s.sending := rfl
@[simp] theorem State.setTbl_sent (f : Tables → Tables) : (s.setTbl f).sent = s.sent := rfl
@[simp] theorem State.setTbl_eth (f : Tables → Tables) : (s.setTbl f).eth = s.eth := rfl
@[simp] theorem State.setTbl_can (f : Tables → Tables) : (s.setTbl f).can = s.can := rfl
@[simp] theorem State.setTbl_t1s (f : Tables → Tables) : (s.setTbl f).t1s = s.t1s := rfl
@[simp] theorem State.setTbl_egr (f : Tables → Tables) : (s.setTbl f).egr = s.egr := rfl
@[simp] theorem State.setTbl_mdioQ (f : Tables → Tables) : (s.setTbl f).mdioQ = s.mdioQ := rfl
@[simp] theorem State.setTbl_tsq (f : Tables → Tables) : (s.setTbl f).tsq = s.tsq := rfl
@[simp] theorem State.setTbl_tsqLost (f : Tables → Tables) : (s.setTbl f).tsqLost = s.tsqLost := rfl
@[simp] theorem State.setTbl_prs (f : Tables → Tables) : (s.setTbl f).prs = s.prs := rfl
@[simp] theorem State.setTbl_capQ (f : Tables → Tables) : (s.setTbl f).capQ = s.capQ := rfl
@[simp] theorem State.setTbl_evQ (f : Tables → Tables) : (s.setTbl f).evQ = s.evQ := rfl
@[simp] theorem State.setTbl_keys (f : Tables → Tables) : (s.setTbl f).keys = s.keys := rfl
@[simp] theorem State.setTbl_otp (f : Tables → Tables) : (s.setTbl f).otp = s.otp := rfl
@[simp] theorem State.setTbl_otpRead (f : Tables → Tables) : (s.setTbl f).otpRead = s.otpRead := rfl
@[simp] theorem State.setTbl_eye (f : Tables → Tables) : (s.setTbl f).eye = s.eye := rfl
@[simp] theorem State.setTbl_readPort (f : Tables → Tables) : (s.setTbl f).readPort = s.readPort := rfl
@[simp] theorem State.setTbl_readHigh (f : Tables → Tables) : (s.setTbl f).readHigh = s.readHigh := rfl
@[simp] theorem State.setTbl_resv (f : Tables → Tables) : (s.setTbl f).resv = s.resv := rfl
@[simp] theorem State.setTbl_spQ (f : Tables → Tables) : (s.setTbl f).spQ = s.spQ := rfl
@[simp] theorem State.setTbl_brgQ (f : Tables → Tables) : (s.setTbl f).brgQ = s.brgQ := rfl
@[simp] theorem State.setTbl_smp (f : Tables → Tables) : (s.setTbl f).smp = s.smp := rfl
@[simp] theorem State.setTbl_sig (f : Tables → Tables) : (s.setTbl f).sig = s.sig := rfl
@[simp] theorem State.setTbl_lanes (f : Tables → Tables) : (s.setTbl f).lanes = s.lanes := rfl
@[simp] theorem State.setTbl_chain (f : Tables → Tables) : (s.setTbl f).chain = s.chain := rfl
@[simp] theorem State.setTbl_brg (f : Tables → Tables) : (s.setTbl f).brg = s.brg := rfl
@[simp] theorem State.setTbl_ldr (f : Tables → Tables) : (s.setTbl f).ldr = s.ldr := rfl
@[simp] theorem State.setTbl_phy (f : Tables → Tables) : (s.setTbl f).phy = s.phy := rfl
@[simp] theorem State.setTbl_stg (f : Tables → Tables) : (s.setTbl f).stg = s.stg := rfl
@[simp] theorem State.setTbl_freeCtr (f : Tables → Tables) : (s.setTbl f).freeCtr = s.freeCtr := rfl
@[simp] theorem State.setTbl_pending (f : Tables → Tables) : (s.setTbl f).pending = s.pending := rfl
@[simp] theorem State.setTbl_cyc (f : Tables → Tables) : (s.setTbl f).cyc = s.cyc := rfl
@[simp] theorem State.setTbl_sinceDue (f : Tables → Tables) : (s.setTbl f).sinceDue = s.sinceDue := rfl

/-! ### setBrg -/

@[simp] theorem State.setBrg_regs (f : Brg → Brg) : (s.setBrg f).regs = s.regs := rfl
@[simp] theorem State.setBrg_latch (f : Brg → Brg) : (s.setBrg f).latch = s.latch := rfl
@[simp] theorem State.setBrg_sram (f : Brg → Brg) : (s.setBrg f).sram = s.sram := rfl
@[simp] theorem State.setBrg_mgmt (f : Brg → Brg) : (s.setBrg f).mgmt = s.mgmt := rfl
@[simp] theorem State.setBrg_ospi0 (f : Brg → Brg) : (s.setBrg f).ospi0 = s.ospi0 := rfl
@[simp] theorem State.setBrg_ospi1 (f : Brg → Brg) : (s.setBrg f).ospi1 = s.ospi1 := rfl
@[simp] theorem State.setBrg_dbe (f : Brg → Brg) : (s.setBrg f).dbe = s.dbe := rfl
@[simp] theorem State.setBrg_sbe (f : Brg → Brg) : (s.setBrg f).sbe = s.sbe := rfl
@[simp] theorem State.setBrg_pwr (f : Brg → Brg) : (s.setBrg f).pwr = s.pwr := rfl
@[simp] theorem State.setBrg_pins (f : Brg → Brg) : (s.setBrg f).pins = s.pins := rfl
@[simp] theorem State.setBrg_clk (f : Brg → Brg) : (s.setBrg f).clk = s.clk := rfl
@[simp] theorem State.setBrg_ev (f : Brg → Brg) : (s.setBrg f).ev = s.ev := rfl
@[simp] theorem State.setBrg_rxQ (f : Brg → Brg) : (s.setBrg f).rxQ = s.rxQ := rfl
@[simp] theorem State.setBrg_admQ (f : Brg → Brg) : (s.setBrg f).admQ = s.admQ := rfl
@[simp] theorem State.setBrg_gnd (f : Brg → Brg) : (s.setBrg f).gnd = s.gnd := rfl
@[simp] theorem State.setBrg_outQ (f : Brg → Brg) : (s.setBrg f).outQ = s.outQ := rfl
@[simp] theorem State.setBrg_sending (f : Brg → Brg) : (s.setBrg f).sending = s.sending := rfl
@[simp] theorem State.setBrg_sent (f : Brg → Brg) : (s.setBrg f).sent = s.sent := rfl
@[simp] theorem State.setBrg_eth (f : Brg → Brg) : (s.setBrg f).eth = s.eth := rfl
@[simp] theorem State.setBrg_can (f : Brg → Brg) : (s.setBrg f).can = s.can := rfl
@[simp] theorem State.setBrg_t1s (f : Brg → Brg) : (s.setBrg f).t1s = s.t1s := rfl
@[simp] theorem State.setBrg_egr (f : Brg → Brg) : (s.setBrg f).egr = s.egr := rfl
@[simp] theorem State.setBrg_mdioQ (f : Brg → Brg) : (s.setBrg f).mdioQ = s.mdioQ := rfl
@[simp] theorem State.setBrg_tsq (f : Brg → Brg) : (s.setBrg f).tsq = s.tsq := rfl
@[simp] theorem State.setBrg_tsqLost (f : Brg → Brg) : (s.setBrg f).tsqLost = s.tsqLost := rfl
@[simp] theorem State.setBrg_tbl (f : Brg → Brg) : (s.setBrg f).tbl = s.tbl := rfl
@[simp] theorem State.setBrg_prs (f : Brg → Brg) : (s.setBrg f).prs = s.prs := rfl
@[simp] theorem State.setBrg_capQ (f : Brg → Brg) : (s.setBrg f).capQ = s.capQ := rfl
@[simp] theorem State.setBrg_evQ (f : Brg → Brg) : (s.setBrg f).evQ = s.evQ := rfl
@[simp] theorem State.setBrg_keys (f : Brg → Brg) : (s.setBrg f).keys = s.keys := rfl
@[simp] theorem State.setBrg_otp (f : Brg → Brg) : (s.setBrg f).otp = s.otp := rfl
@[simp] theorem State.setBrg_otpRead (f : Brg → Brg) : (s.setBrg f).otpRead = s.otpRead := rfl
@[simp] theorem State.setBrg_eye (f : Brg → Brg) : (s.setBrg f).eye = s.eye := rfl
@[simp] theorem State.setBrg_readPort (f : Brg → Brg) : (s.setBrg f).readPort = s.readPort := rfl
@[simp] theorem State.setBrg_readHigh (f : Brg → Brg) : (s.setBrg f).readHigh = s.readHigh := rfl
@[simp] theorem State.setBrg_resv (f : Brg → Brg) : (s.setBrg f).resv = s.resv := rfl
@[simp] theorem State.setBrg_spQ (f : Brg → Brg) : (s.setBrg f).spQ = s.spQ := rfl
@[simp] theorem State.setBrg_brgQ (f : Brg → Brg) : (s.setBrg f).brgQ = s.brgQ := rfl
@[simp] theorem State.setBrg_smp (f : Brg → Brg) : (s.setBrg f).smp = s.smp := rfl
@[simp] theorem State.setBrg_sig (f : Brg → Brg) : (s.setBrg f).sig = s.sig := rfl
@[simp] theorem State.setBrg_lanes (f : Brg → Brg) : (s.setBrg f).lanes = s.lanes := rfl
@[simp] theorem State.setBrg_chain (f : Brg → Brg) : (s.setBrg f).chain = s.chain := rfl
@[simp] theorem State.setBrg_ldr (f : Brg → Brg) : (s.setBrg f).ldr = s.ldr := rfl
@[simp] theorem State.setBrg_phy (f : Brg → Brg) : (s.setBrg f).phy = s.phy := rfl
@[simp] theorem State.setBrg_stg (f : Brg → Brg) : (s.setBrg f).stg = s.stg := rfl
@[simp] theorem State.setBrg_freeCtr (f : Brg → Brg) : (s.setBrg f).freeCtr = s.freeCtr := rfl
@[simp] theorem State.setBrg_pending (f : Brg → Brg) : (s.setBrg f).pending = s.pending := rfl
@[simp] theorem State.setBrg_cyc (f : Brg → Brg) : (s.setBrg f).cyc = s.cyc := rfl
@[simp] theorem State.setBrg_sinceDue (f : Brg → Brg) : (s.setBrg f).sinceDue = s.sinceDue := rfl

/-! ### setChain -/

@[simp] theorem State.setChain_regs (f : Chain → Chain) : (s.setChain f).regs = s.regs := rfl
@[simp] theorem State.setChain_latch (f : Chain → Chain) : (s.setChain f).latch = s.latch := rfl
@[simp] theorem State.setChain_sram (f : Chain → Chain) : (s.setChain f).sram = s.sram := rfl
@[simp] theorem State.setChain_mgmt (f : Chain → Chain) : (s.setChain f).mgmt = s.mgmt := rfl
@[simp] theorem State.setChain_ospi0 (f : Chain → Chain) : (s.setChain f).ospi0 = s.ospi0 := rfl
@[simp] theorem State.setChain_ospi1 (f : Chain → Chain) : (s.setChain f).ospi1 = s.ospi1 := rfl
@[simp] theorem State.setChain_dbe (f : Chain → Chain) : (s.setChain f).dbe = s.dbe := rfl
@[simp] theorem State.setChain_sbe (f : Chain → Chain) : (s.setChain f).sbe = s.sbe := rfl
@[simp] theorem State.setChain_pwr (f : Chain → Chain) : (s.setChain f).pwr = s.pwr := rfl
@[simp] theorem State.setChain_pins (f : Chain → Chain) : (s.setChain f).pins = s.pins := rfl
@[simp] theorem State.setChain_clk (f : Chain → Chain) : (s.setChain f).clk = s.clk := rfl
@[simp] theorem State.setChain_ev (f : Chain → Chain) : (s.setChain f).ev = s.ev := rfl
@[simp] theorem State.setChain_rxQ (f : Chain → Chain) : (s.setChain f).rxQ = s.rxQ := rfl
@[simp] theorem State.setChain_admQ (f : Chain → Chain) : (s.setChain f).admQ = s.admQ := rfl
@[simp] theorem State.setChain_gnd (f : Chain → Chain) : (s.setChain f).gnd = s.gnd := rfl
@[simp] theorem State.setChain_outQ (f : Chain → Chain) : (s.setChain f).outQ = s.outQ := rfl
@[simp] theorem State.setChain_sending (f : Chain → Chain) : (s.setChain f).sending = s.sending := rfl
@[simp] theorem State.setChain_sent (f : Chain → Chain) : (s.setChain f).sent = s.sent := rfl
@[simp] theorem State.setChain_eth (f : Chain → Chain) : (s.setChain f).eth = s.eth := rfl
@[simp] theorem State.setChain_can (f : Chain → Chain) : (s.setChain f).can = s.can := rfl
@[simp] theorem State.setChain_t1s (f : Chain → Chain) : (s.setChain f).t1s = s.t1s := rfl
@[simp] theorem State.setChain_egr (f : Chain → Chain) : (s.setChain f).egr = s.egr := rfl
@[simp] theorem State.setChain_mdioQ (f : Chain → Chain) : (s.setChain f).mdioQ = s.mdioQ := rfl
@[simp] theorem State.setChain_tsq (f : Chain → Chain) : (s.setChain f).tsq = s.tsq := rfl
@[simp] theorem State.setChain_tsqLost (f : Chain → Chain) : (s.setChain f).tsqLost = s.tsqLost := rfl
@[simp] theorem State.setChain_tbl (f : Chain → Chain) : (s.setChain f).tbl = s.tbl := rfl
@[simp] theorem State.setChain_prs (f : Chain → Chain) : (s.setChain f).prs = s.prs := rfl
@[simp] theorem State.setChain_capQ (f : Chain → Chain) : (s.setChain f).capQ = s.capQ := rfl
@[simp] theorem State.setChain_evQ (f : Chain → Chain) : (s.setChain f).evQ = s.evQ := rfl
@[simp] theorem State.setChain_keys (f : Chain → Chain) : (s.setChain f).keys = s.keys := rfl
@[simp] theorem State.setChain_otp (f : Chain → Chain) : (s.setChain f).otp = s.otp := rfl
@[simp] theorem State.setChain_otpRead (f : Chain → Chain) : (s.setChain f).otpRead = s.otpRead := rfl
@[simp] theorem State.setChain_eye (f : Chain → Chain) : (s.setChain f).eye = s.eye := rfl
@[simp] theorem State.setChain_readPort (f : Chain → Chain) : (s.setChain f).readPort = s.readPort := rfl
@[simp] theorem State.setChain_readHigh (f : Chain → Chain) : (s.setChain f).readHigh = s.readHigh := rfl
@[simp] theorem State.setChain_resv (f : Chain → Chain) : (s.setChain f).resv = s.resv := rfl
@[simp] theorem State.setChain_spQ (f : Chain → Chain) : (s.setChain f).spQ = s.spQ := rfl
@[simp] theorem State.setChain_brgQ (f : Chain → Chain) : (s.setChain f).brgQ = s.brgQ := rfl
@[simp] theorem State.setChain_smp (f : Chain → Chain) : (s.setChain f).smp = s.smp := rfl
@[simp] theorem State.setChain_sig (f : Chain → Chain) : (s.setChain f).sig = s.sig := rfl
@[simp] theorem State.setChain_lanes (f : Chain → Chain) : (s.setChain f).lanes = s.lanes := rfl
@[simp] theorem State.setChain_brg (f : Chain → Chain) : (s.setChain f).brg = s.brg := rfl
@[simp] theorem State.setChain_ldr (f : Chain → Chain) : (s.setChain f).ldr = s.ldr := rfl
@[simp] theorem State.setChain_phy (f : Chain → Chain) : (s.setChain f).phy = s.phy := rfl
@[simp] theorem State.setChain_stg (f : Chain → Chain) : (s.setChain f).stg = s.stg := rfl
@[simp] theorem State.setChain_freeCtr (f : Chain → Chain) : (s.setChain f).freeCtr = s.freeCtr := rfl
@[simp] theorem State.setChain_pending (f : Chain → Chain) : (s.setChain f).pending = s.pending := rfl
@[simp] theorem State.setChain_cyc (f : Chain → Chain) : (s.setChain f).cyc = s.cyc := rfl
@[simp] theorem State.setChain_sinceDue (f : Chain → Chain) : (s.setChain f).sinceDue = s.sinceDue := rfl

/-! ### setLdr -/

@[simp] theorem State.setLdr_regs (f : Loader → Loader) : (s.setLdr f).regs = s.regs := rfl
@[simp] theorem State.setLdr_latch (f : Loader → Loader) : (s.setLdr f).latch = s.latch := rfl
@[simp] theorem State.setLdr_sram (f : Loader → Loader) : (s.setLdr f).sram = s.sram := rfl
@[simp] theorem State.setLdr_mgmt (f : Loader → Loader) : (s.setLdr f).mgmt = s.mgmt := rfl
@[simp] theorem State.setLdr_ospi0 (f : Loader → Loader) : (s.setLdr f).ospi0 = s.ospi0 := rfl
@[simp] theorem State.setLdr_ospi1 (f : Loader → Loader) : (s.setLdr f).ospi1 = s.ospi1 := rfl
@[simp] theorem State.setLdr_dbe (f : Loader → Loader) : (s.setLdr f).dbe = s.dbe := rfl
@[simp] theorem State.setLdr_sbe (f : Loader → Loader) : (s.setLdr f).sbe = s.sbe := rfl
@[simp] theorem State.setLdr_pwr (f : Loader → Loader) : (s.setLdr f).pwr = s.pwr := rfl
@[simp] theorem State.setLdr_pins (f : Loader → Loader) : (s.setLdr f).pins = s.pins := rfl
@[simp] theorem State.setLdr_clk (f : Loader → Loader) : (s.setLdr f).clk = s.clk := rfl
@[simp] theorem State.setLdr_ev (f : Loader → Loader) : (s.setLdr f).ev = s.ev := rfl
@[simp] theorem State.setLdr_rxQ (f : Loader → Loader) : (s.setLdr f).rxQ = s.rxQ := rfl
@[simp] theorem State.setLdr_admQ (f : Loader → Loader) : (s.setLdr f).admQ = s.admQ := rfl
@[simp] theorem State.setLdr_gnd (f : Loader → Loader) : (s.setLdr f).gnd = s.gnd := rfl
@[simp] theorem State.setLdr_outQ (f : Loader → Loader) : (s.setLdr f).outQ = s.outQ := rfl
@[simp] theorem State.setLdr_sending (f : Loader → Loader) : (s.setLdr f).sending = s.sending := rfl
@[simp] theorem State.setLdr_sent (f : Loader → Loader) : (s.setLdr f).sent = s.sent := rfl
@[simp] theorem State.setLdr_eth (f : Loader → Loader) : (s.setLdr f).eth = s.eth := rfl
@[simp] theorem State.setLdr_can (f : Loader → Loader) : (s.setLdr f).can = s.can := rfl
@[simp] theorem State.setLdr_t1s (f : Loader → Loader) : (s.setLdr f).t1s = s.t1s := rfl
@[simp] theorem State.setLdr_egr (f : Loader → Loader) : (s.setLdr f).egr = s.egr := rfl
@[simp] theorem State.setLdr_mdioQ (f : Loader → Loader) : (s.setLdr f).mdioQ = s.mdioQ := rfl
@[simp] theorem State.setLdr_tsq (f : Loader → Loader) : (s.setLdr f).tsq = s.tsq := rfl
@[simp] theorem State.setLdr_tsqLost (f : Loader → Loader) : (s.setLdr f).tsqLost = s.tsqLost := rfl
@[simp] theorem State.setLdr_tbl (f : Loader → Loader) : (s.setLdr f).tbl = s.tbl := rfl
@[simp] theorem State.setLdr_prs (f : Loader → Loader) : (s.setLdr f).prs = s.prs := rfl
@[simp] theorem State.setLdr_capQ (f : Loader → Loader) : (s.setLdr f).capQ = s.capQ := rfl
@[simp] theorem State.setLdr_evQ (f : Loader → Loader) : (s.setLdr f).evQ = s.evQ := rfl
@[simp] theorem State.setLdr_keys (f : Loader → Loader) : (s.setLdr f).keys = s.keys := rfl
@[simp] theorem State.setLdr_otp (f : Loader → Loader) : (s.setLdr f).otp = s.otp := rfl
@[simp] theorem State.setLdr_otpRead (f : Loader → Loader) : (s.setLdr f).otpRead = s.otpRead := rfl
@[simp] theorem State.setLdr_eye (f : Loader → Loader) : (s.setLdr f).eye = s.eye := rfl
@[simp] theorem State.setLdr_readPort (f : Loader → Loader) : (s.setLdr f).readPort = s.readPort := rfl
@[simp] theorem State.setLdr_readHigh (f : Loader → Loader) : (s.setLdr f).readHigh = s.readHigh := rfl
@[simp] theorem State.setLdr_resv (f : Loader → Loader) : (s.setLdr f).resv = s.resv := rfl
@[simp] theorem State.setLdr_spQ (f : Loader → Loader) : (s.setLdr f).spQ = s.spQ := rfl
@[simp] theorem State.setLdr_brgQ (f : Loader → Loader) : (s.setLdr f).brgQ = s.brgQ := rfl
@[simp] theorem State.setLdr_smp (f : Loader → Loader) : (s.setLdr f).smp = s.smp := rfl
@[simp] theorem State.setLdr_sig (f : Loader → Loader) : (s.setLdr f).sig = s.sig := rfl
@[simp] theorem State.setLdr_lanes (f : Loader → Loader) : (s.setLdr f).lanes = s.lanes := rfl
@[simp] theorem State.setLdr_chain (f : Loader → Loader) : (s.setLdr f).chain = s.chain := rfl
@[simp] theorem State.setLdr_brg (f : Loader → Loader) : (s.setLdr f).brg = s.brg := rfl
@[simp] theorem State.setLdr_phy (f : Loader → Loader) : (s.setLdr f).phy = s.phy := rfl
@[simp] theorem State.setLdr_stg (f : Loader → Loader) : (s.setLdr f).stg = s.stg := rfl
@[simp] theorem State.setLdr_freeCtr (f : Loader → Loader) : (s.setLdr f).freeCtr = s.freeCtr := rfl
@[simp] theorem State.setLdr_pending (f : Loader → Loader) : (s.setLdr f).pending = s.pending := rfl
@[simp] theorem State.setLdr_cyc (f : Loader → Loader) : (s.setLdr f).cyc = s.cyc := rfl
@[simp] theorem State.setLdr_sinceDue (f : Loader → Loader) : (s.setLdr f).sinceDue = s.sinceDue := rfl

/-! ### setSlot -/

@[simp] theorem State.setSlot_regs (k : Nat) (v : KeySlot) : (s.setSlot k v).regs = s.regs := rfl
@[simp] theorem State.setSlot_latch (k : Nat) (v : KeySlot) : (s.setSlot k v).latch = s.latch := rfl
@[simp] theorem State.setSlot_sram (k : Nat) (v : KeySlot) : (s.setSlot k v).sram = s.sram := rfl
@[simp] theorem State.setSlot_mgmt (k : Nat) (v : KeySlot) : (s.setSlot k v).mgmt = s.mgmt := rfl
@[simp] theorem State.setSlot_ospi0 (k : Nat) (v : KeySlot) : (s.setSlot k v).ospi0 = s.ospi0 := rfl
@[simp] theorem State.setSlot_ospi1 (k : Nat) (v : KeySlot) : (s.setSlot k v).ospi1 = s.ospi1 := rfl
@[simp] theorem State.setSlot_dbe (k : Nat) (v : KeySlot) : (s.setSlot k v).dbe = s.dbe := rfl
@[simp] theorem State.setSlot_sbe (k : Nat) (v : KeySlot) : (s.setSlot k v).sbe = s.sbe := rfl
@[simp] theorem State.setSlot_pwr (k : Nat) (v : KeySlot) : (s.setSlot k v).pwr = s.pwr := rfl
@[simp] theorem State.setSlot_pins (k : Nat) (v : KeySlot) : (s.setSlot k v).pins = s.pins := rfl
@[simp] theorem State.setSlot_clk (k : Nat) (v : KeySlot) : (s.setSlot k v).clk = s.clk := rfl
@[simp] theorem State.setSlot_ev (k : Nat) (v : KeySlot) : (s.setSlot k v).ev = s.ev := rfl
@[simp] theorem State.setSlot_rxQ (k : Nat) (v : KeySlot) : (s.setSlot k v).rxQ = s.rxQ := rfl
@[simp] theorem State.setSlot_admQ (k : Nat) (v : KeySlot) : (s.setSlot k v).admQ = s.admQ := rfl
@[simp] theorem State.setSlot_gnd (k : Nat) (v : KeySlot) : (s.setSlot k v).gnd = s.gnd := rfl
@[simp] theorem State.setSlot_outQ (k : Nat) (v : KeySlot) : (s.setSlot k v).outQ = s.outQ := rfl
@[simp] theorem State.setSlot_sending (k : Nat) (v : KeySlot) : (s.setSlot k v).sending = s.sending := rfl
@[simp] theorem State.setSlot_sent (k : Nat) (v : KeySlot) : (s.setSlot k v).sent = s.sent := rfl
@[simp] theorem State.setSlot_eth (k : Nat) (v : KeySlot) : (s.setSlot k v).eth = s.eth := rfl
@[simp] theorem State.setSlot_can (k : Nat) (v : KeySlot) : (s.setSlot k v).can = s.can := rfl
@[simp] theorem State.setSlot_t1s (k : Nat) (v : KeySlot) : (s.setSlot k v).t1s = s.t1s := rfl
@[simp] theorem State.setSlot_egr (k : Nat) (v : KeySlot) : (s.setSlot k v).egr = s.egr := rfl
@[simp] theorem State.setSlot_mdioQ (k : Nat) (v : KeySlot) : (s.setSlot k v).mdioQ = s.mdioQ := rfl
@[simp] theorem State.setSlot_tsq (k : Nat) (v : KeySlot) : (s.setSlot k v).tsq = s.tsq := rfl
@[simp] theorem State.setSlot_tsqLost (k : Nat) (v : KeySlot) : (s.setSlot k v).tsqLost = s.tsqLost := rfl
@[simp] theorem State.setSlot_tbl (k : Nat) (v : KeySlot) : (s.setSlot k v).tbl = s.tbl := rfl
@[simp] theorem State.setSlot_prs (k : Nat) (v : KeySlot) : (s.setSlot k v).prs = s.prs := rfl
@[simp] theorem State.setSlot_capQ (k : Nat) (v : KeySlot) : (s.setSlot k v).capQ = s.capQ := rfl
@[simp] theorem State.setSlot_evQ (k : Nat) (v : KeySlot) : (s.setSlot k v).evQ = s.evQ := rfl
@[simp] theorem State.setSlot_otp (k : Nat) (v : KeySlot) : (s.setSlot k v).otp = s.otp := rfl
@[simp] theorem State.setSlot_otpRead (k : Nat) (v : KeySlot) : (s.setSlot k v).otpRead = s.otpRead := rfl
@[simp] theorem State.setSlot_eye (k : Nat) (v : KeySlot) : (s.setSlot k v).eye = s.eye := rfl
@[simp] theorem State.setSlot_readPort (k : Nat) (v : KeySlot) : (s.setSlot k v).readPort = s.readPort := rfl
@[simp] theorem State.setSlot_readHigh (k : Nat) (v : KeySlot) : (s.setSlot k v).readHigh = s.readHigh := rfl
@[simp] theorem State.setSlot_resv (k : Nat) (v : KeySlot) : (s.setSlot k v).resv = s.resv := rfl
@[simp] theorem State.setSlot_spQ (k : Nat) (v : KeySlot) : (s.setSlot k v).spQ = s.spQ := rfl
@[simp] theorem State.setSlot_brgQ (k : Nat) (v : KeySlot) : (s.setSlot k v).brgQ = s.brgQ := rfl
@[simp] theorem State.setSlot_smp (k : Nat) (v : KeySlot) : (s.setSlot k v).smp = s.smp := rfl
@[simp] theorem State.setSlot_sig (k : Nat) (v : KeySlot) : (s.setSlot k v).sig = s.sig := rfl
@[simp] theorem State.setSlot_lanes (k : Nat) (v : KeySlot) : (s.setSlot k v).lanes = s.lanes := rfl
@[simp] theorem State.setSlot_chain (k : Nat) (v : KeySlot) : (s.setSlot k v).chain = s.chain := rfl
@[simp] theorem State.setSlot_brg (k : Nat) (v : KeySlot) : (s.setSlot k v).brg = s.brg := rfl
@[simp] theorem State.setSlot_ldr (k : Nat) (v : KeySlot) : (s.setSlot k v).ldr = s.ldr := rfl
@[simp] theorem State.setSlot_phy (k : Nat) (v : KeySlot) : (s.setSlot k v).phy = s.phy := rfl
@[simp] theorem State.setSlot_stg (k : Nat) (v : KeySlot) : (s.setSlot k v).stg = s.stg := rfl
@[simp] theorem State.setSlot_freeCtr (k : Nat) (v : KeySlot) : (s.setSlot k v).freeCtr = s.freeCtr := rfl
@[simp] theorem State.setSlot_pending (k : Nat) (v : KeySlot) : (s.setSlot k v).pending = s.pending := rfl
@[simp] theorem State.setSlot_cyc (k : Nat) (v : KeySlot) : (s.setSlot k v).cyc = s.cyc := rfl
@[simp] theorem State.setSlot_sinceDue (k : Nat) (v : KeySlot) : (s.setSlot k v).sinceDue = s.sinceDue := rfl

@[simp] theorem State.setPwr_pwr (f : Power → Power) : (s.setPwr f).pwr = f s.pwr := rfl
@[simp] theorem State.setTbl_tbl (f : Tables → Tables) : (s.setTbl f).tbl = f s.tbl := rfl
@[simp] theorem State.setBrg_brg (f : Brg → Brg) : (s.setBrg f).brg = f s.brg := rfl
@[simp] theorem State.setChain_chain (f : Chain → Chain) : (s.setChain f).chain = f s.chain := rfl
@[simp] theorem State.setLdr_ldr (f : Loader → Loader) : (s.setLdr f).ldr = f s.ldr := rfl

/-! ### noteSet -/

@[simp] theorem State.noteSet_latch (a m : Nat) : (s.noteSet a m).latch = s.latch := rfl
@[simp] theorem State.noteSet_sram (a m : Nat) : (s.noteSet a m).sram = s.sram := rfl
@[simp] theorem State.noteSet_mgmt (a m : Nat) : (s.noteSet a m).mgmt = s.mgmt := rfl
@[simp] theorem State.noteSet_ospi0 (a m : Nat) : (s.noteSet a m).ospi0 = s.ospi0 := rfl
@[simp] theorem State.noteSet_ospi1 (a m : Nat) : (s.noteSet a m).ospi1 = s.ospi1 := rfl
@[simp] theorem State.noteSet_dbe (a m : Nat) : (s.noteSet a m).dbe = s.dbe := rfl
@[simp] theorem State.noteSet_sbe (a m : Nat) : (s.noteSet a m).sbe = s.sbe := rfl
@[simp] theorem State.noteSet_pwr (a m : Nat) : (s.noteSet a m).pwr = s.pwr := rfl
@[simp] theorem State.noteSet_pins (a m : Nat) : (s.noteSet a m).pins = s.pins := rfl
@[simp] theorem State.noteSet_clk (a m : Nat) : (s.noteSet a m).clk = s.clk := rfl
@[simp] theorem State.noteSet_ev (a m : Nat) : (s.noteSet a m).ev = s.ev := rfl
@[simp] theorem State.noteSet_rxQ (a m : Nat) : (s.noteSet a m).rxQ = s.rxQ := rfl
@[simp] theorem State.noteSet_admQ (a m : Nat) : (s.noteSet a m).admQ = s.admQ := rfl
@[simp] theorem State.noteSet_gnd (a m : Nat) : (s.noteSet a m).gnd = s.gnd := rfl
@[simp] theorem State.noteSet_outQ (a m : Nat) : (s.noteSet a m).outQ = s.outQ := rfl
@[simp] theorem State.noteSet_sending (a m : Nat) : (s.noteSet a m).sending = s.sending := rfl
@[simp] theorem State.noteSet_sent (a m : Nat) : (s.noteSet a m).sent = s.sent := rfl
@[simp] theorem State.noteSet_eth (a m : Nat) : (s.noteSet a m).eth = s.eth := rfl
@[simp] theorem State.noteSet_can (a m : Nat) : (s.noteSet a m).can = s.can := rfl
@[simp] theorem State.noteSet_t1s (a m : Nat) : (s.noteSet a m).t1s = s.t1s := rfl
@[simp] theorem State.noteSet_egr (a m : Nat) : (s.noteSet a m).egr = s.egr := rfl
@[simp] theorem State.noteSet_mdioQ (a m : Nat) : (s.noteSet a m).mdioQ = s.mdioQ := rfl
@[simp] theorem State.noteSet_tsq (a m : Nat) : (s.noteSet a m).tsq = s.tsq := rfl
@[simp] theorem State.noteSet_tsqLost (a m : Nat) : (s.noteSet a m).tsqLost = s.tsqLost := rfl
@[simp] theorem State.noteSet_tbl (a m : Nat) : (s.noteSet a m).tbl = s.tbl := rfl
@[simp] theorem State.noteSet_prs (a m : Nat) : (s.noteSet a m).prs = s.prs := rfl
@[simp] theorem State.noteSet_capQ (a m : Nat) : (s.noteSet a m).capQ = s.capQ := rfl
@[simp] theorem State.noteSet_evQ (a m : Nat) : (s.noteSet a m).evQ = s.evQ := rfl
@[simp] theorem State.noteSet_keys (a m : Nat) : (s.noteSet a m).keys = s.keys := rfl
@[simp] theorem State.noteSet_otp (a m : Nat) : (s.noteSet a m).otp = s.otp := rfl
@[simp] theorem State.noteSet_otpRead (a m : Nat) : (s.noteSet a m).otpRead = s.otpRead := rfl
@[simp] theorem State.noteSet_eye (a m : Nat) : (s.noteSet a m).eye = s.eye := rfl
@[simp] theorem State.noteSet_readPort (a m : Nat) : (s.noteSet a m).readPort = s.readPort := rfl
@[simp] theorem State.noteSet_readHigh (a m : Nat) : (s.noteSet a m).readHigh = s.readHigh := rfl
@[simp] theorem State.noteSet_resv (a m : Nat) : (s.noteSet a m).resv = s.resv := rfl
@[simp] theorem State.noteSet_spQ (a m : Nat) : (s.noteSet a m).spQ = s.spQ := rfl
@[simp] theorem State.noteSet_brgQ (a m : Nat) : (s.noteSet a m).brgQ = s.brgQ := rfl
@[simp] theorem State.noteSet_smp (a m : Nat) : (s.noteSet a m).smp = s.smp := rfl
@[simp] theorem State.noteSet_sig (a m : Nat) : (s.noteSet a m).sig = s.sig := rfl
@[simp] theorem State.noteSet_lanes (a m : Nat) : (s.noteSet a m).lanes = s.lanes := rfl
@[simp] theorem State.noteSet_chain (a m : Nat) : (s.noteSet a m).chain = s.chain := rfl
@[simp] theorem State.noteSet_brg (a m : Nat) : (s.noteSet a m).brg = s.brg := rfl
@[simp] theorem State.noteSet_ldr (a m : Nat) : (s.noteSet a m).ldr = s.ldr := rfl
@[simp] theorem State.noteSet_phy (a m : Nat) : (s.noteSet a m).phy = s.phy := rfl
@[simp] theorem State.noteSet_stg (a m : Nat) : (s.noteSet a m).stg = s.stg := rfl
@[simp] theorem State.noteSet_freeCtr (a m : Nat) : (s.noteSet a m).freeCtr = s.freeCtr := rfl
@[simp] theorem State.noteSet_pending (a m : Nat) : (s.noteSet a m).pending = s.pending := rfl
@[simp] theorem State.noteSet_regs (a m : Nat) : (s.noteSet a m).regs = s.regs := rfl
@[simp] theorem State.noteSet_sinceDue (a m : Nat) : (s.noteSet a m).sinceDue = s.sinceDue := rfl

end Sys2Proof.Machine
end

