-- ==== Sys2Proof/Laws/Events.lean ====
section
/-! SUPPORT. What raising an event, counting, and the passing of time can do: each changes registers of its own, the events and the
time base, and nothing else. -/

namespace Sys2Proof.Machine

/-- The registers that reporting an event may change: SYS_EVT_LOST, and block EYELET with its counters. -/
def evtReg (a : Nat) : Prop := a = Rg.SYS_EVT_LOST.addr ∨ a / 0x10000 = 0x10A0

/-- A state that differs from another in registers, events and the records of the cycle alone, and in no register outside `c`. -/
def OnlyRegsEv (c : Nat → Prop) (s t : State) : Prop :=
  ∃ r e n l, t = { s with regs := r, ev := e, cyc := n, sinceDue := l } ∧ ∀ a d, ¬ c a → sget r a d = sget s.regs a d

theorem OnlyRegsEv.refl (c : Nat → Prop) (s : State) : OnlyRegsEv c s s := ⟨s.regs, s.ev, s.cyc, s.sinceDue, rfl, fun _ _ _ => rfl⟩

theorem OnlyRegsEv.trans {c : Nat → Prop} {s t u : State} (h : OnlyRegsEv c s t) (k : OnlyRegsEv c t u) : OnlyRegsEv c s u := by
  obtain ⟨r, e, n, l, rfl, h⟩ := h
  obtain ⟨r', e', n', l', rfl, k⟩ := k
  exact ⟨r', e', n', l', rfl, fun a d x => (k a d x).trans (h a d x)⟩

theorem OnlyRegsEv.mono {c c' : Nat → Prop} {s t : State} (h : OnlyRegsEv c s t) (hc : ∀ a, c a → c' a) : OnlyRegsEv c' s t := by
  obtain ⟨r, e, n, l, rfl, h⟩ := h
  exact ⟨r, e, n, l, rfl, fun a d x => h a d (fun k => x (hc a k))⟩

theorem OnlyRegsEv.rd {c : Nat → Prop} {s t : State} (h : OnlyRegsEv c s t) {q : Reg} (n : ¬ c q.addr) : t.rd q = s.rd q := by
  obtain ⟨r, e, k, l, rfl, h⟩ := h
  simp [State.rd, State.rdw, h _ _ n]

theorem onlyRegsEv_wr {c : Nat → Prop} (s : State) (r : Reg) (v : Nat) (h : c r.addr) : OnlyRegsEv c s (s.wr r v) :=
  ⟨_, s.ev, s.cyc, s.sinceDue, rfl, fun _ _ n => sget_sset_ne _ _ _ _ (fun e => n (e ▸ h))⟩

theorem onlyRegsEv_ev (c : Nat → Prop) (s : State) (e : Events) : OnlyRegsEv c s { s with ev := e } :=
  ⟨s.regs, e, s.cyc, s.sinceDue, rfl, fun _ _ _ => rfl⟩

theorem onlyRegsEv_cyc (c : Nat → Prop) (s : State) (n : Cycle) : OnlyRegsEv c s { s with cyc := n } :=
  ⟨s.regs, s.ev, n, s.sinceDue, rfl, fun _ _ _ => rfl⟩

theorem onlyRegsEv_late (c : Nat → Prop) (s : State) (l : Late) : OnlyRegsEv c s { s with sinceDue := l } :=
  ⟨s.regs, s.ev, s.cyc, l, rfl, fun _ _ _ => rfl⟩

theorem onlyRegsEv_noteSet (c : Nat → Prop) (s : State) (a m : Nat) : OnlyRegsEv c s (s.noteSet a m) := onlyRegsEv_cyc c s _

theorem onlyRegsEv_noteCount (c : Nat → Prop) (s : State) (a n : Nat) : OnlyRegsEv c s (s.noteCount a n) := by
  unfold State.noteCount
  split
  · exact onlyRegsEv_late c s _
  · exact .refl _ _

theorem onlyRegsEv_sf {c : Nat → Prop} (s : State) (r : Reg) (f : Fld) (x : Nat) (h : c (r.addr + 4 * (f.lo / 32))) : OnlyRegsEv c s (s.sf r f x) :=
  onlyRegsEv_wr s _ _ (by simpa using h)

theorem onlyRegsEv_loseEv (s : State) : OnlyRegsEv evtReg s s.loseEv :=
  (onlyRegsEv_wr s _ _ (.inl rfl)).trans (onlyRegsEv_ev _ _ _)

theorem onlyRegsEv_queueEv (s : State) (e : Ev) : OnlyRegsEv evtReg s (s.queueEv e) := by
  unfold State.queueEv
  split
  · exact onlyRegsEv_ev _ _ _
  · exact onlyRegsEv_loseEv s

theorem onlyRegsEv_setBit {c : Nat → Prop} (s : State) (r : Reg) (i : Nat) (h : c (r.addr + 4 * (i / 32))) : OnlyRegsEv c s (s.setBit r i) :=
  (onlyRegsEv_sf s r ⟨i, 1⟩ 1 h).trans (onlyRegsEv_noteSet _ _ _ _)

theorem onlyRegsEv_eyeLoseOne (s : State) : OnlyRegsEv evtReg s s.eyeLoseOne.1 := by
  unfold State.eyeLoseOne
  have h : OnlyRegsEv evtReg s ({ (s.wr (eyeC 7).cnt (s.rd (eyeC 7).cnt + 1)) with ev := { s.ev with eyeLost := s.ev.eyeLost + 1 } } : State) :=
    (onlyRegsEv_wr s _ _ (.inr (by decide))).trans (onlyRegsEv_ev _ _ _)
  simp only
  split
  · exact h
  · split
    · exact (h.trans (onlyRegsEv_setBit _ _ _ (.inr (by decide)))).trans (onlyRegsEv_setBit _ _ _ (.inr (by decide)))
    · exact h.trans (onlyRegsEv_setBit _ _ _ (.inr (by decide)))

theorem onlyRegsEv_eyeLose (s : State) : OnlyRegsEv evtReg s s.eyeLose := by
  unfold State.eyeLose
  have h := onlyRegsEv_eyeLoseOne s
  simp only
  split
  · exact h
  · have k := h.trans (onlyRegsEv_queueEv s.eyeLoseOne.1
      ⟨(eyeC 7).code, (eyeC 7).port, s.rdw Rg.HOOP_INDEX, BitVec.ofNat 64 (eyeC 7).detail, s.raw⟩)
    split
    · exact k.trans (onlyRegsEv_eyeLoseOne _)
    · exact k

theorem onlyRegsEv_eyeCopy (s : State) (e : Ev) : OnlyRegsEv evtReg s (s.eyeCopy e) := by
  unfold State.eyeCopy
  split
  · split
    · exact onlyRegsEv_ev _ _ _
    · exact onlyRegsEv_eyeLose s
  · exact .refl _ _

/-- Raising an event changes the events, SYS_EVT_LOST and the eyelet's counters at most. -/
theorem onlyRegsEv_raise (s : State) (c p d : Nat) : OnlyRegsEv evtReg s (s.raise c p d) :=
  (onlyRegsEv_queueEv _ _).trans (onlyRegsEv_eyeCopy _ _)

theorem rd_raise (s : State) (c p d : Nat) {q : Reg} (h : ¬ evtReg q.addr) : (s.raise c p d).rd q = s.rd q :=
  (onlyRegsEv_raise s c p d).rd h

theorem fd_raise (s : State) (c p d : Nat) {q : Reg} {f : Fld} (h : ¬ evtReg (q.addr + 4 * (f.lo / 32))) :
    (s.raise c p d).fd q f = s.fd q f := by
  unfold State.fd
  rw [rd_raise _ _ _ _ (by simpa using h)]

theorem mem_insertEv (q : List Ev) (e : Ev) : e ∈ insertEv q e := by
  induction q with
  | nil => simp [insertEv]
  | cons h t ih => unfold insertEv; split <;> simp [ih]

theorem mem_insertEv_of (q : List Ev) (e x : Ev) (h : x ∈ q) : x ∈ insertEv q e := by
  induction q with
  | nil => simp at h
  | cons k t ih =>
    unfold insertEv
    split
    · exact List.mem_cons_of_mem _ h
    · rcases List.mem_cons.mp h with rfl | h
      · simp
      · exact List.mem_cons_of_mem _ (ih h)

@[simp] theorem insertEv_length (q : List Ev) (e : Ev) : (insertEv q e).length = q.length + 1 := by
  induction q with
  | nil => rfl
  | cons h t ih => unfold insertEv; split <;> simp [ih]

/-- An event waits in the queue in front of the ring. -/
theorem mem_queue_mono_queueEv (s : State) (e x : Ev) (h : x ∈ s.ev.queue) : x ∈ (s.queueEv e).ev.queue := by
  unfold State.queueEv
  split
  · exact mem_insertEv_of _ _ _ h
  · exact h

/-- An event lost to the eyelet leaves the queue in front of the ring alone. -/
theorem queue_eyeLoseOne (s : State) : s.eyeLoseOne.1.ev.queue = s.ev.queue := by
  unfold State.eyeLoseOne
  simp only
  split
  · rfl
  · split <;> rfl

theorem mem_queue_eyeCopy (s : State) (e x : Ev) (h : x ∈ s.ev.queue) : x ∈ (s.eyeCopy e).ev.queue := by
  unfold State.eyeCopy
  split
  · split
    · exact h
    · unfold State.eyeLose
      have h1 : x ∈ s.eyeLoseOne.1.ev.queue := by rw [queue_eyeLoseOne]; exact h
      simp only
      split
      · exact h1
      · split
        · rw [queue_eyeLoseOne]; exact mem_queue_mono_queueEv _ _ _ h1
        · exact mem_queue_mono_queueEv _ _ _ h1
  · exact h

/-- A raised event enters the queue when there is room (R373). -/
theorem raise_mem (s : State) (c p d : Nat) (h : s.ev.queue.length < 64) :
    (⟨c, p, s.rdw Rg.HOOP_INDEX, BitVec.ofNat 64 d, s.raw⟩ : Ev) ∈ (s.raise c p d).ev.queue := by
  unfold State.raise
  apply mem_queue_eyeCopy
  simp only [State.queueEv, h, if_true]
  exact mem_insertEv _ _

theorem raise_keeps (s : State) (c p d : Nat) (x : Ev) (h : x ∈ s.ev.queue) : x ∈ (s.raise c p d).ev.queue := by
  unfold State.raise
  exact mem_queue_eyeCopy _ _ _ (mem_queue_mono_queueEv _ _ _ h)

/-- What raising an event leaves alone. -/
theorem raise_frame (s : State) (c p d : Nat) : ∃ r e n l, s.raise c p d = { s with regs := r, ev := e, cyc := n, sinceDue := l } := by
  obtain ⟨r, e, n, l, h, -⟩ := onlyRegsEv_raise s c p d
  exact ⟨r, e, n, l, h⟩

/-- The first happening of a hoop is reported as any event is. -/
theorem onlyRegsEv_raiseFirst (s : State) (c b p d : Nat) : OnlyRegsEv evtReg s (s.raiseFirst c b p d) := by
  unfold State.raiseFirst State.mark
  simp only
  split
  · exact (onlyRegsEv_ev _ _ _).trans (onlyRegsEv_raise _ _ _ _)
  · exact onlyRegsEv_ev _ _ _

/-- Counting changes the counter, its HALF and OVER bits and its block's interrupt status, and what reporting an event changes. -/
theorem onlyRegsEv_count {c : Nat → Prop} (s : State) (k : CntAt) (n : Nat) (he : ∀ a, evtReg a → c a) (h1 : c k.cnt.addr)
    (h2 : c (k.half.addr + 4 * (k.bit / 32))) (h3 : c (k.ovf.addr + 4 * (k.bit / 32))) (h4 : c (k.ist.addr + 4 * (k.istBit / 32))) :
    OnlyRegsEv c s (s.count k n) := by
  have h : OnlyRegsEv c s ((s.wr k.cnt (s.rd k.cnt + n)).noteCount k.cnt.addr n) := (onlyRegsEv_wr s _ _ h1).trans (onlyRegsEv_noteCount _ _ _ _)
  unfold State.count
  simp only
  split
  · exact h
  · split
    · exact ((h.trans (onlyRegsEv_setBit _ _ _ h3)).trans (onlyRegsEv_setBit _ _ _ h4)).trans ((onlyRegsEv_raise _ _ _ _).mono he)
    · exact h.trans (onlyRegsEv_setBit _ _ _ h2)

end Sys2Proof.Machine
end

