-- ==== Sys2Proof/Laws/Frames.lean ====
section
/-! SUPPORT. What the passing of time and the reporting of an event leave alone. -/

namespace Sys2Proof.Machine

/-! ## The passing of time -/

/-- The registers that the passing of time may change: block TIME, those of event reporting, and where the end of the cycle counts what it
loses, blocks of CAN ports and block TABLE DMA. -/
def timeReg (a : Nat) : Prop := evtReg a ∨ a / 0x10000 = 0x1001 ∨ a / 0x10000 = 0x1012 ∨ a / 0x10000 = 0x1030

/-- A state that differs from another in registers, events, the time base, the records of the cycle and what the end of the cycle settles
alone, and in no register outside `c`. -/
def OnlyTime (c : Nat → Prop) (s t : State) : Prop :=
  ∃ r e k n l m q, t = { s with regs := r, ev := e, clk := k, cyc := n, sinceDue := l, sram := m, tsqLost := q } ∧
    ∀ a d, ¬ c a → sget r a d = sget s.regs a d

theorem OnlyTime.trans {c : Nat → Prop} {s t u : State} (h : OnlyTime c s t) (k : OnlyTime c t u) : OnlyTime c s u := by
  obtain ⟨r, e, x, n, l, m, q, rfl, h⟩ := h
  obtain ⟨r', e', x', n', l', m', q', rfl, k⟩ := k
  exact ⟨r', e', x', n', l', m', q', rfl, fun a d n => (k a d n).trans (h a d n)⟩

theorem OnlyRegsEv.time {c : Nat → Prop} {s t : State} (h : OnlyRegsEv c s t) : OnlyTime c s t := by
  obtain ⟨r, e, n, l, rfl, h⟩ := h
  exact ⟨r, e, s.clk, n, l, s.sram, s.tsqLost, rfl, h⟩

theorem OnlyTime.refl (c : Nat → Prop) (s : State) : OnlyTime c s s := (OnlyRegsEv.refl c s).time

theorem OnlyTime.rd {c : Nat → Prop} {s t : State} (h : OnlyTime c s t) {q : Reg} (n : ¬ c q.addr) : t.rd q = s.rd q := by
  obtain ⟨r, e, k, _, _, _, _, rfl, h⟩ := h
  simp [State.rd, State.rdw, h _ _ n]

theorem onlyTime_clk (c : Nat → Prop) (s : State) (k : Clock) : OnlyTime c s { s with clk := k } :=
  ⟨s.regs, s.ev, k, s.cyc, s.sinceDue, s.sram, s.tsqLost, rfl, fun _ _ _ => rfl⟩

theorem onlyTime_tsqLost (c : Nat → Prop) (s : State) (q : List (Nat × Nat)) : OnlyTime c s { s with tsqLost := q } :=
  ⟨s.regs, s.ev, s.clk, s.cyc, s.sinceDue, s.sram, q, rfl, fun _ _ _ => rfl⟩

theorem onlyTime_setRam (c : Nat → Prop) (s : State) (a : Nat) (b : Bytes) : OnlyTime c s (s.setRam a b) :=
  ⟨s.regs, s.ev, s.clk, s.cyc, s.sinceDue, _, s.tsqLost, rfl, fun _ _ _ => rfl⟩

theorem onlyTime_foldl {α : Type} {c : Nat → Prop} (f : State → α → State) (h : ∀ s x, OnlyTime c s (f s x)) (l : List α) (s : State) :
    OnlyTime c s (l.foldl f s) := by
  induction l generalizing s with
  | nil => exact .refl _ _
  | cons x l ih => exact (h s x).trans (ih _)

theorem onlyTime_wr (s : State) (r : Reg) (v : Nat) (h : r.addr / 0x10000 = 0x1001) : OnlyTime timeReg s (s.wr r v) :=
  (onlyRegsEv_wr s r v (.inr (.inl h))).time

theorem onlyTime_setOffset (s : State) (v : Int) : OnlyTime timeReg s (s.setOffset v) :=
  ((onlyTime_wr s _ _ (by decide)).trans (onlyTime_wr _ _ _ (by decide))).trans (onlyTime_wr _ _ _ (by decide))

theorem onlyTime_showSlew (s : State) : OnlyTime timeReg s s.showSlew :=
  (onlyTime_wr s _ _ (by decide)).trans (onlyTime_wr _ _ _ (by decide))

theorem onlyTime_slew (s : State) (n : Nat) : OnlyTime timeReg s (s.slew n) := by
  unfold State.slew
  split
  · exact .refl _ _
  · simp only
    split
    · exact (((onlyTime_setOffset s _).trans (onlyTime_clk _ _ _)).trans (onlyTime_showSlew _)).trans
        ((onlyRegsEv_raise _ _ _ _).mono (fun _ h => Or.inl h)).time
    · exact ((onlyTime_setOffset s _).trans (onlyTime_clk _ _ _)).trans (onlyTime_showSlew _)

theorem onlyTime_tsLose (s : State) (p : Fin 48) : OnlyTime timeReg s (s.tsLose p.val) :=
  ((onlyTime_wr s _ _ (by have := p.isLt; simp only [Rg.TIME_TSQ_OVF]; omega)).trans (onlyTime_tsqLost _ _ _)).trans
    ((onlyRegsEv_raiseFirst _ _ _ _ _).mono (fun _ h => Or.inl h)).time

theorem canBlock {a : Nat} (h : 0x10120000 ≤ a) (h1 : a < 0x10130000) : timeReg a := .inr (.inr (.inl (by omega)))

/-- The counters of a CAN port lie in its block. -/
theorem onlyTime_canCount (s : State) (n : Fin 16) (i : Fin 32) : OnlyRegsEv timeReg s (s.count (canC (32 + n.val) i.val) 1) := by
  have hn := n.isLt
  have hi := i.isLt
  refine onlyRegsEv_count (c := timeReg) s _ 1 (fun _ h => Or.inl h) ?_ ?_ ?_ ?_ <;>
    (apply canBlock <;> simp only [canC, Rg.CAN_CNT, Rg.CAN_CNT_HALF, Rg.CAN_CNT_OVER, Rg.CAN_INT_STATUS] <;> omega)

theorem onlyTime_mfDrop (s : State) (n : Fin 16) (f : Nat) : OnlyTime timeReg s (s.mfDrop (32 + n.val) f) := by
  have hn := n.isLt
  refine (((onlyTime_canCount s n 7).trans (onlyRegsEv_setBit (c := timeReg) _ _ _ ?_)).trans
    ((onlyRegsEv_raiseFirst _ _ _ _ _).mono (fun _ h => Or.inl h))).time
  apply canBlock <;> simp only [Rg.CAN_INT_STATUS] <;> omega

theorem onlyTime_mtxCancelled (s : State) (n : Fin 16) : OnlyTime timeReg s (s.mtxCancelled (32 + n.val)) := by
  have hn := n.isLt
  refine ((onlyTime_canCount s n 11).trans (onlyRegsEv_setBit (c := timeReg) _ _ _ ?_)).time
  apply canBlock <;> simp only [Rg.CAN_INT_STATUS] <;> omega

theorem onlyTime_prioOverrun (s : State) (n : Fin 16) (k : Fin 4) : OnlyTime timeReg s (s.prioOverrun (32 + n.val) k.val) := by
  have hn := n.isLt
  have hk := k.isLt
  refine (((onlyTime_canCount s n 8).trans (onlyRegsEv_sf (c := timeReg) _ _ _ _ ?_)).trans
    ((onlyRegsEv_raiseFirst _ _ _ _ _).mono (fun _ h => Or.inl h))).time
  apply canBlock <;> simp only [Rg.CAN_PRIO_CTRL, Fl.CAN_PRIO_CTRL_OVR] <;> omega

theorem onlyTime_aged (s : State) : OnlyRegsEv timeReg s (s.count (tblC 5)) := by
  refine onlyRegsEv_count (c := timeReg) s (tblC 5) 1 (fun _ h => Or.inl h) ?_ ?_ ?_ ?_ <;> exact .inr (.inr (.inr rfl))

theorem onlyTime_ageSettle (s : State) (w : Nat × Nat × Bytes) : OnlyTime timeReg s (s.ageSettle w) := by
  unfold State.ageSettle
  split
  · exact .refl _ _
  · split
    · exact onlyTime_setRam _ _ _ _
    · have h := onlyTime_setRam timeReg s w.1 (zeros w.2.1)
      generalize s.setRam w.1 (zeros w.2.1) = u at h ⊢
      exact h.trans (onlyTime_aged u).time

/-- The end of the cycle changes what it settles: ageing visits, and what it counts as lost. -/
theorem onlyTime_cycleEnd (s : State) : OnlyTime timeReg s s.cycleEnd := by
  have h1 : OnlyTime timeReg s (s.cyc.tsWait.foldl (fun t w => t.tsLose w.1.val) s) :=
    onlyTime_foldl _ (fun t (w : Fin 48 × Nat × Int) => onlyTime_tsLose t w.1) _ _
  have h2 (u : State) : OnlyTime timeReg u (s.cyc.mfWait.foldl (fun t w => t.mfDrop (32 + w.1.val) w.2.1) u) :=
    onlyTime_foldl _ (fun t (w : Fin 16 × Nat × Bytes) => onlyTime_mfDrop t w.1 w.2.1) _ _
  have h3 (u : State) : OnlyTime timeReg u (s.cyc.ages.foldl State.ageSettle u) := onlyTime_foldl _ onlyTime_ageSettle _ _
  have h4 (u : State) : OnlyTime timeReg u (s.cyc.prioOver.foldl (fun t w => t.prioOverrun (32 + w.1.val) w.2.val) u) :=
    onlyTime_foldl _ (fun t (w : Fin 16 × Fin 4) => onlyTime_prioOverrun t w.1 w.2) _ _
  have h5 (u : State) : OnlyTime timeReg u (s.cyc.cancels.foldl (fun t w => t.mtxCancelled (32 + w.1.val)) u) :=
    onlyTime_foldl _ (fun t (w : Fin 16 × Fin 16) => onlyTime_mtxCancelled t w.1) _ _
  unfold State.cycleEnd
  simp only
  exact ((((h1.trans (h2 _)).trans (h3 _)).trans (h5 _)).trans (h4 _)).trans (onlyRegsEv_cyc timeReg _ cycInit).time

/-- Noting the boundary cycle changes what the cycles since it have noted alone. -/
theorem onlyTime_noteDue (t s : State) : OnlyTime timeReg t (t.noteDue s) := by
  unfold State.noteDue
  split
  · exact .refl _ _
  · exact (onlyRegsEv_late timeReg t _).time

/-- The passing of time changes block TIME and the time base, reports the end of a slew, and ends the cycle. -/
theorem onlyTime_advance (s : State) (n : Nat) : OnlyTime timeReg s (s.advance n) := by
  unfold State.advance
  split
  · exact .refl _ _
  · exact ((((onlyTime_cycleEnd s).trans (onlyTime_wr _ _ _ (by decide))).trans (onlyTime_wr _ _ _ (by decide))).trans
      (onlyTime_slew _ _)).trans (onlyTime_noteDue _ _)

theorem rd_advance (s : State) (n : Nat) {q : Reg} (h : ¬ timeReg q.addr) : (s.advance n).rd q = s.rd q := (onlyTime_advance s n).rd h

theorem fd_advance (s : State) (n : Nat) {q : Reg} {f : Fld} (h : ¬ timeReg (q.addr + 4 * (f.lo / 32))) :
    (s.advance n).fd q f = s.fd q f := by
  unfold State.fd
  rw [rd_advance _ _ (by simpa using h)]

theorem advance_frame (s : State) (n : Nat) :
    ∃ r e k c l m q, s.advance n = { s with regs := r, ev := e, clk := k, cyc := c, sinceDue := l, sram := m, tsqLost := q } := by
  obtain ⟨r, e, k, c, l, m, q, h, -⟩ := onlyTime_advance s n
  exact ⟨r, e, k, c, l, m, q, h⟩

theorem rawSteps_zero (s : State) : s.rawSteps 0 = 0 := by
  unfold State.rawSteps
  split
  · rfl
  · rfl
  · split <;> rfl
  · rfl

@[simp] theorem advance_zero (s : State) : s.advance 0 = s := by simp [State.advance, rawSteps_zero]

@[simp] theorem State.advance_latch (s : State) (n : Nat) : (s.advance n).latch = s.latch := by
  obtain ⟨r, e, k, c, l, m, q, h⟩ := advance_frame s n; rw [h]
@[simp] theorem State.advance_mgmt (s : State) (n : Nat) : (s.advance n).mgmt = s.mgmt := by
  obtain ⟨r, e, k, c, l, m, q, h⟩ := advance_frame s n; rw [h]
@[simp] theorem State.advance_ospi0 (s : State) (n : Nat) : (s.advance n).ospi0 = s.ospi0 := by
  obtain ⟨r, e, k, c, l, m, q, h⟩ := advance_frame s n; rw [h]
@[simp] theorem State.advance_ospi1 (s : State) (n : Nat) : (s.advance n).ospi1 = s.ospi1 := by
  obtain ⟨r, e, k, c, l, m, q, h⟩ := advance_frame s n; rw [h]
@[simp] theorem State.advance_dbe (s : State) (n : Nat) : (s.advance n).dbe = s.dbe := by
  obtain ⟨r, e, k, c, l, m, q, h⟩ := advance_frame s n; rw [h]
@[simp] theorem State.advance_sbe (s : State) (n : Nat) : (s.advance n).sbe = s.sbe := by
  obtain ⟨r, e, k, c, l, m, q, h⟩ := advance_frame s n; rw [h]
@[simp] theorem State.advance_pwr (s : State) (n : Nat) : (s.advance n).pwr = s.pwr := by
  obtain ⟨r, e, k, c, l, m, q, h⟩ := advance_frame s n; rw [h]
@[simp] theorem State.advance_pins (s : State) (n : Nat) : (s.advance n).pins = s.pins := by
  obtain ⟨r, e, k, c, l, m, q, h⟩ := advance_frame s n; rw [h]
@[simp] theorem State.advance_rxQ (s : State) (n : Nat) : (s.advance n).rxQ = s.rxQ := by
  obtain ⟨r, e, k, c, l, m, q, h⟩ := advance_frame s n; rw [h]
@[simp] theorem State.advance_admQ (s : State) (n : Nat) : (s.advance n).admQ = s.admQ := by
  obtain ⟨r, e, k, c, l, m, q, h⟩ := advance_frame s n; rw [h]
@[simp] theorem State.advance_gnd (s : State) (n : Nat) : (s.advance n).gnd = s.gnd := by
  obtain ⟨r, e, k, c, l, m, q, h⟩ := advance_frame s n; rw [h]
@[simp] theorem State.advance_outQ (s : State) (n : Nat) : (s.advance n).outQ = s.outQ := by
  obtain ⟨r, e, k, c, l, m, q, h⟩ := advance_frame s n; rw [h]
@[simp] theorem State.advance_sending (s : State) (n : Nat) : (s.advance n).sending = s.sending := by
  obtain ⟨r, e, k, c, l, m, q, h⟩ := advance_frame s n; rw [h]
@[simp] theorem State.advance_sent (s : State) (n : Nat) : (s.advance n).sent = s.sent := by
  obtain ⟨r, e, k, c, l, m, q, h⟩ := advance_frame s n; rw [h]
@[simp] theorem State.advance_eth (s : State) (n : Nat) : (s.advance n).eth = s.eth := by
  obtain ⟨r, e, k, c, l, m, q, h⟩ := advance_frame s n; rw [h]
@[simp] theorem State.advance_can (s : State) (n : Nat) : (s.advance n).can = s.can := by
  obtain ⟨r, e, k, c, l, m, q, h⟩ := advance_frame s n; rw [h]
@[simp] theorem State.advance_t1s (s : State) (n : Nat) : (s.advance n).t1s = s.t1s := by
  obtain ⟨r, e, k, c, l, m, q, h⟩ := advance_frame s n; rw [h]
@[simp] theorem State.advance_egr (s : State) (n : Nat) : (s.advance n).egr = s.egr := by
  obtain ⟨r, e, k, c, l, m, q, h⟩ := advance_frame s n; rw [h]
@[simp] theorem State.advance_mdioQ (s : State) (n : Nat) : (s.advance n).mdioQ = s.mdioQ := by
  obtain ⟨r, e, k, c, l, m, q, h⟩ := advance_frame s n; rw [h]
@[simp] theorem State.advance_tsq (s : State) (n : Nat) : (s.advance n).tsq = s.tsq := by
  obtain ⟨r, e, k, c, l, m, q, h⟩ := advance_frame s n; rw [h]
@[simp] theorem State.advance_tbl (s : State) (n : Nat) : (s.advance n).tbl = s.tbl := by
  obtain ⟨r, e, k, c, l, m, q, h⟩ := advance_frame s n; rw [h]
@[simp] theorem State.advance_prs (s : State) (n : Nat) : (s.advance n).prs = s.prs := by
  obtain ⟨r, e, k, c, l, m, q, h⟩ := advance_frame s n; rw [h]
@[simp] theorem State.advance_capQ (s : State) (n : Nat) : (s.advance n).capQ = s.capQ := by
  obtain ⟨r, e, k, c, l, m, q, h⟩ := advance_frame s n; rw [h]
@[simp] theorem State.advance_evQ (s : State) (n : Nat) : (s.advance n).evQ = s.evQ := by
  obtain ⟨r, e, k, c, l, m, q, h⟩ := advance_frame s n; rw [h]
@[simp] theorem State.advance_keys (s : State) (n : Nat) : (s.advance n).keys = s.keys := by
  obtain ⟨r, e, k, c, l, m, q, h⟩ := advance_frame s n; rw [h]
@[simp] theorem State.advance_otp (s : State) (n : Nat) : (s.advance n).otp = s.otp := by
  obtain ⟨r, e, k, c, l, m, q, h⟩ := advance_frame s n; rw [h]
@[simp] theorem State.advance_otpRead (s : State) (n : Nat) : (s.advance n).otpRead = s.otpRead := by
  obtain ⟨r, e, k, c, l, m, q, h⟩ := advance_frame s n; rw [h]
@[simp] theorem State.advance_eye (s : State) (n : Nat) : (s.advance n).eye = s.eye := by
  obtain ⟨r, e, k, c, l, m, q, h⟩ := advance_frame s n; rw [h]
@[simp] theorem State.advance_readPort (s : State) (n : Nat) : (s.advance n).readPort = s.readPort := by
  obtain ⟨r, e, k, c, l, m, q, h⟩ := advance_frame s n; rw [h]
@[simp] theorem State.advance_readHigh (s : State) (n : Nat) : (s.advance n).readHigh = s.readHigh := by
  obtain ⟨r, e, k, c, l, m, q, h⟩ := advance_frame s n; rw [h]
@[simp] theorem State.advance_resv (s : State) (n : Nat) : (s.advance n).resv = s.resv := by
  obtain ⟨r, e, k, c, l, m, q, h⟩ := advance_frame s n; rw [h]
@[simp] theorem State.advance_spQ (s : State) (n : Nat) : (s.advance n).spQ = s.spQ := by
  obtain ⟨r, e, k, c, l, m, q, h⟩ := advance_frame s n; rw [h]
@[simp] theorem State.advance_brgQ (s : State) (n : Nat) : (s.advance n).brgQ = s.brgQ := by
  obtain ⟨r, e, k, c, l, m, q, h⟩ := advance_frame s n; rw [h]
@[simp] theorem State.advance_smp (s : State) (n : Nat) : (s.advance n).smp = s.smp := by
  obtain ⟨r, e, k, c, l, m, q, h⟩ := advance_frame s n; rw [h]
@[simp] theorem State.advance_sig (s : State) (n : Nat) : (s.advance n).sig = s.sig := by
  obtain ⟨r, e, k, c, l, m, q, h⟩ := advance_frame s n; rw [h]
@[simp] theorem State.advance_lanes (s : State) (n : Nat) : (s.advance n).lanes = s.lanes := by
  obtain ⟨r, e, k, c, l, m, q, h⟩ := advance_frame s n; rw [h]
@[simp] theorem State.advance_chain (s : State) (n : Nat) : (s.advance n).chain = s.chain := by
  obtain ⟨r, e, k, c, l, m, q, h⟩ := advance_frame s n; rw [h]
@[simp] theorem State.advance_brg (s : State) (n : Nat) : (s.advance n).brg = s.brg := by
  obtain ⟨r, e, k, c, l, m, q, h⟩ := advance_frame s n; rw [h]
@[simp] theorem State.advance_ldr (s : State) (n : Nat) : (s.advance n).ldr = s.ldr := by
  obtain ⟨r, e, k, c, l, m, q, h⟩ := advance_frame s n; rw [h]
@[simp] theorem State.advance_phy (s : State) (n : Nat) : (s.advance n).phy = s.phy := by
  obtain ⟨r, e, k, c, l, m, q, h⟩ := advance_frame s n; rw [h]
@[simp] theorem State.advance_stg (s : State) (n : Nat) : (s.advance n).stg = s.stg := by
  obtain ⟨r, e, k, c, l, m, q, h⟩ := advance_frame s n; rw [h]
@[simp] theorem State.advance_freeCtr (s : State) (n : Nat) : (s.advance n).freeCtr = s.freeCtr := by
  obtain ⟨r, e, k, c, l, m, q, h⟩ := advance_frame s n; rw [h]
@[simp] theorem State.advance_pending (s : State) (n : Nat) : (s.advance n).pending = s.pending := by
  obtain ⟨r, e, k, c, l, m, q, h⟩ := advance_frame s n; rw [h]

/-! ## Events -/

@[simp] theorem State.raise_latch (s : State) (c p d : Nat) : (s.raise c p d).latch = s.latch := by
  obtain ⟨r, e, n, l, h⟩ := raise_frame s c p d; rw [h]
@[simp] theorem State.raise_sram (s : State) (c p d : Nat) : (s.raise c p d).sram = s.sram := by
  obtain ⟨r, e, n, l, h⟩ := raise_frame s c p d; rw [h]
@[simp] theorem State.raise_mgmt (s : State) (c p d : Nat) : (s.raise c p d).mgmt = s.mgmt := by
  obtain ⟨r, e, n, l, h⟩ := raise_frame s c p d; rw [h]
@[simp] theorem State.raise_ospi0 (s : State) (c p d : Nat) : (s.raise c p d).ospi0 = s.ospi0 := by
  obtain ⟨r, e, n, l, h⟩ := raise_frame s c p d; rw [h]
@[simp] theorem State.raise_ospi1 (s : State) (c p d : Nat) : (s.raise c p d).ospi1 = s.ospi1 := by
  obtain ⟨r, e, n, l, h⟩ := raise_frame s c p d; rw [h]
@[simp] theorem State.raise_dbe (s : State) (c p d : Nat) : (s.raise c p d).dbe = s.dbe := by
  obtain ⟨r, e, n, l, h⟩ := raise_frame s c p d; rw [h]
@[simp] theorem State.raise_sbe (s : State) (c p d : Nat) : (s.raise c p d).sbe = s.sbe := by
  obtain ⟨r, e, n, l, h⟩ := raise_frame s c p d; rw [h]
@[simp] theorem State.raise_pwr (s : State) (c p d : Nat) : (s.raise c p d).pwr = s.pwr := by
  obtain ⟨r, e, n, l, h⟩ := raise_frame s c p d; rw [h]
@[simp] theorem State.raise_pins (s : State) (c p d : Nat) : (s.raise c p d).pins = s.pins := by
  obtain ⟨r, e, n, l, h⟩ := raise_frame s c p d; rw [h]
@[simp] theorem State.raise_clk (s : State) (c p d : Nat) : (s.raise c p d).clk = s.clk := by
  obtain ⟨r, e, n, l, h⟩ := raise_frame s c p d; rw [h]
@[simp] theorem State.raise_rxQ (s : State) (c p d : Nat) : (s.raise c p d).rxQ = s.rxQ := by
  obtain ⟨r, e, n, l, h⟩ := raise_frame s c p d; rw [h]
@[simp] theorem State.raise_admQ (s : State) (c p d : Nat) : (s.raise c p d).admQ = s.admQ := by
  obtain ⟨r, e, n, l, h⟩ := raise_frame s c p d; rw [h]
@[simp] theorem State.raise_gnd (s : State) (c p d : Nat) : (s.raise c p d).gnd = s.gnd := by
  obtain ⟨r, e, n, l, h⟩ := raise_frame s c p d; rw [h]
@[simp] theorem State.raise_outQ (s : State) (c p d : Nat) : (s.raise c p d).outQ = s.outQ := by
  obtain ⟨r, e, n, l, h⟩ := raise_frame s c p d; rw [h]
@[simp] theorem State.raise_sending (s : State) (c p d : Nat) : (s.raise c p d).sending = s.sending := by
  obtain ⟨r, e, n, l, h⟩ := raise_frame s c p d; rw [h]
@[simp] theorem State.raise_sent (s : State) (c p d : Nat) : (s.raise c p d).sent = s.sent := by
  obtain ⟨r, e, n, l, h⟩ := raise_frame s c p d; rw [h]
@[simp] theorem State.raise_eth (s : State) (c p d : Nat) : (s.raise c p d).eth = s.eth := by
  obtain ⟨r, e, n, l, h⟩ := raise_frame s c p d; rw [h]
@[simp] theorem State.raise_can (s : State) (c p d : Nat) : (s.raise c p d).can = s.can := by
  obtain ⟨r, e, n, l, h⟩ := raise_frame s c p d; rw [h]
@[simp] theorem State.raise_t1s (s : State) (c p d : Nat) : (s.raise c p d).t1s = s.t1s := by
  obtain ⟨r, e, n, l, h⟩ := raise_frame s c p d; rw [h]
@[simp] theorem State.raise_egr (s : State) (c p d : Nat) : (s.raise c p d).egr = s.egr := by
  obtain ⟨r, e, n, l, h⟩ := raise_frame s c p d; rw [h]
@[simp] theorem State.raise_mdioQ (s : State) (c p d : Nat) : (s.raise c p d).mdioQ = s.mdioQ := by
  obtain ⟨r, e, n, l, h⟩ := raise_frame s c p d; rw [h]
@[simp] theorem State.raise_tsq (s : State) (c p d : Nat) : (s.raise c p d).tsq = s.tsq := by
  obtain ⟨r, e, n, l, h⟩ := raise_frame s c p d; rw [h]
@[simp] theorem State.raise_tsqLost (s : State) (c p d : Nat) : (s.raise c p d).tsqLost = s.tsqLost := by
  obtain ⟨r, e, n, l, h⟩ := raise_frame s c p d; rw [h]
@[simp] theorem State.raise_tbl (s : State) (c p d : Nat) : (s.raise c p d).tbl = s.tbl := by
  obtain ⟨r, e, n, l, h⟩ := raise_frame s c p d; rw [h]
@[simp] theorem State.raise_prs (s : State) (c p d : Nat) : (s.raise c p d).prs = s.prs := by
  obtain ⟨r, e, n, l, h⟩ := raise_frame s c p d; rw [h]
@[simp] theorem State.raise_capQ (s : State) (c p d : Nat) : (s.raise c p d).capQ = s.capQ := by
  obtain ⟨r, e, n, l, h⟩ := raise_frame s c p d; rw [h]
@[simp] theorem State.raise_evQ (s : State) (c p d : Nat) : (s.raise c p d).evQ = s.evQ := by
  obtain ⟨r, e, n, l, h⟩ := raise_frame s c p d; rw [h]
@[simp] theorem State.raise_keys (s : State) (c p d : Nat) : (s.raise c p d).keys = s.keys := by
  obtain ⟨r, e, n, l, h⟩ := raise_frame s c p d; rw [h]
@[simp] theorem State.raise_otp (s : State) (c p d : Nat) : (s.raise c p d).otp = s.otp := by
  obtain ⟨r, e, n, l, h⟩ := raise_frame s c p d; rw [h]
@[simp] theorem State.raise_otpRead (s : State) (c p d : Nat) : (s.raise c p d).otpRead = s.otpRead := by
  obtain ⟨r, e, n, l, h⟩ := raise_frame s c p d; rw [h]
@[simp] theorem State.raise_eye (s : State) (c p d : Nat) : (s.raise c p d).eye = s.eye := by
  obtain ⟨r, e, n, l, h⟩ := raise_frame s c p d; rw [h]
@[simp] theorem State.raise_readPort (s : State) (c p d : Nat) : (s.raise c p d).readPort = s.readPort := by
  obtain ⟨r, e, n, l, h⟩ := raise_frame s c p d; rw [h]
@[simp] theorem State.raise_readHigh (s : State) (c p d : Nat) : (s.raise c p d).readHigh = s.readHigh := by
  obtain ⟨r, e, n, l, h⟩ := raise_frame s c p d; rw [h]
@[simp] theorem State.raise_resv (s : State) (c p d : Nat) : (s.raise c p d).resv = s.resv := by
  obtain ⟨r, e, n, l, h⟩ := raise_frame s c p d; rw [h]
@[simp] theorem State.raise_spQ (s : State) (c p d : Nat) : (s.raise c p d).spQ = s.spQ := by
  obtain ⟨r, e, n, l, h⟩ := raise_frame s c p d; rw [h]
@[simp] theorem State.raise_brgQ (s : State) (c p d : Nat) : (s.raise c p d).brgQ = s.brgQ := by
  obtain ⟨r, e, n, l, h⟩ := raise_frame s c p d; rw [h]
@[simp] theorem State.raise_smp (s : State) (c p d : Nat) : (s.raise c p d).smp = s.smp := by
  obtain ⟨r, e, n, l, h⟩ := raise_frame s c p d; rw [h]
@[simp] theorem State.raise_sig (s : State) (c p d : Nat) : (s.raise c p d).sig = s.sig := by
  obtain ⟨r, e, n, l, h⟩ := raise_frame s c p d; rw [h]
@[simp] theorem State.raise_lanes (s : State) (c p d : Nat) : (s.raise c p d).lanes = s.lanes := by
  obtain ⟨r, e, n, l, h⟩ := raise_frame s c p d; rw [h]
@[simp] theorem State.raise_chain (s : State) (c p d : Nat) : (s.raise c p d).chain = s.chain := by
  obtain ⟨r, e, n, l, h⟩ := raise_frame s c p d; rw [h]
@[simp] theorem State.raise_brg (s : State) (c p d : Nat) : (s.raise c p d).brg = s.brg := by
  obtain ⟨r, e, n, l, h⟩ := raise_frame s c p d; rw [h]
@[simp] theorem State.raise_ldr (s : State) (c p d : Nat) : (s.raise c p d).ldr = s.ldr := by
  obtain ⟨r, e, n, l, h⟩ := raise_frame s c p d; rw [h]
@[simp] theorem State.raise_phy (s : State) (c p d : Nat) : (s.raise c p d).phy = s.phy := by
  obtain ⟨r, e, n, l, h⟩ := raise_frame s c p d; rw [h]
@[simp] theorem State.raise_stg (s : State) (c p d : Nat) : (s.raise c p d).stg = s.stg := by
  obtain ⟨r, e, n, l, h⟩ := raise_frame s c p d; rw [h]
@[simp] theorem State.raise_freeCtr (s : State) (c p d : Nat) : (s.raise c p d).freeCtr = s.freeCtr := by
  obtain ⟨r, e, n, l, h⟩ := raise_frame s c p d; rw [h]
@[simp] theorem State.raise_pending (s : State) (c p d : Nat) : (s.raise c p d).pending = s.pending := by
  obtain ⟨r, e, n, l, h⟩ := raise_frame s c p d; rw [h]

end Sys2Proof.Machine
end

