-- ==== Sys2Proof/Laws/Hash.lean ====
section
/-! SUPPORT. The length of a SHAKE256 digest. -/

namespace Sys2Proof.Machine

/-- A round answers 25 lanes. -/
theorem keccakRound_length (a : List Nat) (rc : Nat) : (keccakRound a rc).length = 25 := by
  have h : (keccakChi (keccakRhoPi (keccakTheta a))).length = 25 := by simp [keccakChi]
  unfold keccakRound
  split
  · next e => rw [e] at h; exact h
  · next e => rw [e] at h; exact h

/-- The permutation answers 25 lanes. -/
theorem keccakF_length (a : List Nat) : (keccakF a).length = 25 := by
  have h : ∀ (l : List Nat) (a : List Nat), a.length = 25 → (l.foldl keccakRound a).length = 25 := by
    intro l
    induction l with
    | nil => exact fun _ h => h
    | cons r l ih => exact fun a _ => ih _ (keccakRound_length a r)
  have e : keccakRc = 1 :: keccakRc.tail := rfl
  unfold keccakF
  rw [e, List.foldl_cons]
  exact h _ _ (keccakRound_length a 1)

/-- Absorbing keeps 25 lanes. -/
theorem keccakAbsorb_length (k : Nat) (a : List Nat) (m : Bytes) (h : a.length = 25) : (keccakAbsorb a m k).length = 25 := by
  induction k generalizing a m with
  | zero => exact h
  | succ k ih => exact ih _ _ (keccakF_length _)

/-- A number written in n bytes is n bytes long. -/
theorem leBytes_length (n v : Nat) : (leBytes n v).length = n := by
  induction n generalizing v with
  | zero => rfl
  | succ n ih => simp [leBytes, ih]

/-- A digest is 64 bytes long. -/
@[simp] theorem shake512_length (m : Bytes) : (shake512 m).length = 64 := by
  have h : ∀ l : List Nat, (l.flatMap (leBytes 8)).length = 8 * l.length := by
    intro l
    induction l with
    | nil => rfl
    | cons x l ih => simp [List.flatMap_cons, ih, leBytes_length]; omega
  have e : cdiv 64 136 = 1 := rfl
  simp only [shake512, shake256, sponge, e, keccakSqueeze, List.append_nil, List.length_take, h]
  rw [keccakAbsorb_length _ _ _ (by simp)]
  rfl

end Sys2Proof.Machine
end

