-- ==== Sys2Proof/Tests/Slice0.lean ====
section
/-! SUPPORT. Own tests. Ill-formed commands the check refuses; words of bobbins written out bit by bit from R247 and the instruction tables;
and, for every clause of every statement, a concrete state and operands that meet its hypotheses together: each such theorem applies the
statement to them and says that the command then answers a next state. -/

namespace Sys2Proof.Tests

set_option maxRecDepth 100000
set_option Elab.async false

open Sys2Proof Sys2Proof.Machine Sys2Proof.Safety

/-! ## Well-formed commands -/

/-- A token of 256 bytes (R84). -/
theorem test_wf_debugToken : Instr.wf (.debugToken []) = false := by decide

/-- Eight quanta. -/
theorem test_wf_pfcReceive : Instr.wf (.pfcReceive 0 0 0 []) = false := by decide

/-- Data as long as the DLC says. -/
theorem test_wf_canMessage : Instr.wf (.canMessageReceive 0 0 ⟨.classical, false, false, false, false, false, 2, 0x123, 0, 0, 0, [1]⟩) = false :=
    by decide

/-- No extended identifier in an XL message. -/
theorem test_wf_canXl : Instr.wf (.canMessageReceive 0 0 ⟨.xl, true, false, false, false, false, 0, 0x123, 0, 0, 0, [1]⟩) = false := by decide

/-- A base identifier of eleven bits. -/
theorem test_wf_canId : Instr.wf (.canMessageReceive 0 0 ⟨.fd, false, false, true, false, false, 1, 0x800, 0, 0, 0, [1]⟩) = false := by decide

/-- A table from 1 to 3. -/
theorem test_wf_tblPrepare : Instr.wf (.tblPrepare 0) = false := by decide

/-- A table from 1 to 3. -/
theorem test_wf_tblCommit : Instr.wf (.tblCommit 0 0) = false := by decide

/-- A table from 1 to 3. -/
theorem test_wf_tblAbort : Instr.wf (.tblAbort 0) = false := by decide

/-- No port 49. -/
theorem test_wf_transmitStart : Instr.wf (.frameTransmitStart 0 49) = false := by decide

/-- No port 49. -/
theorem test_wf_launchTime : Instr.wf (.launchTimeReached 49 0) = false := by decide

/-- No port 49. -/
theorem test_wf_transmitEnd : Instr.wf (.frameTransmitEnd 0 49) = false := by decide

/-- Gates on ports 0 to 31 only. -/
theorem test_wf_gateEntry : Instr.wf (.gateEntryChange 32) = false := by decide

/-- No PRED 0 with NEG 1. -/
theorem test_wf_predicate : Instr.wf (.bNop 0 ⟨0, true⟩) = false := by decide

/-- N from 1. -/
theorem test_wf_skip : Instr.wf (.bSkip 0 ⟨0, false⟩ 0) = false := by decide

/-- REP without a condition. -/
theorem test_wf_rep : Instr.wf (.bRep 0 ⟨1, false⟩ 0 0) = false := by decide

/-- POS + LEN at most 64. -/
theorem test_wf_extu : Instr.wf (.bExtu 0 ⟨0, false⟩ 1 2 60 4) = false := by decide

/-- POS + LEN at most 64. -/
theorem test_wf_exts : Instr.wf (.bExts 0 ⟨0, false⟩ 1 2 63 1) = false := by decide

/-- POS + LEN at most 64. -/
theorem test_wf_ins : Instr.wf (.bIns 0 ⟨0, false⟩ 1 2 1 63) = false := by decide

/-- PD not 0. -/
theorem test_wf_cmp : Instr.wf (.bCmp 0 ⟨0, false⟩ 0 .eq 1 2) = false := by decide

/-- PD not 0. -/
theorem test_wf_cmpi : Instr.wf (.bCmpi 0 ⟨0, false⟩ 0 .eq 1 2) = false := by decide

/-- PD not 0. -/
theorem test_wf_fcmp : Instr.wf (.bFcmp 0 ⟨0, false⟩ 0 .eq 1 2) = false := by decide

/-- PD not 0. -/
theorem test_wf_plog : Instr.wf (.bPlog 0 ⟨0, false⟩ 0 .and 1 2) = false := by decide

/-- D even. -/
theorem test_wf_sld : Instr.wf (.bSld 0 ⟨0, false⟩ 5 1 0) = false := by decide

/-- D at least 2. -/
theorem test_wf_sldZero : Instr.wf (.bSld 0 ⟨0, false⟩ 0 1 0) = false := by decide

/-- F one of 8, 16 and 24. -/
theorem test_wf_emit : Instr.wf (.bEmit 0 ⟨0, false⟩ 9 1 0) = false := by decide

/-! ## Words, bit by bit: PRED, NEG, opcode, then the fields of the format -/

theorem test_word_end : bobWord 3 0b000_0_000000_0000000000000000000000 = some (.bEnd 3 ⟨0, false⟩) := by decide +kernel

theorem test_word_skip : bobWord 3 0b010_1_000001_00000000_00000000001001 = some (.bSkip 3 ⟨2, true⟩ 9) := by decide +kernel

theorem test_word_rep : bobWord 3 0b000_0_000010_00000111_00000001100011 = some (.bRep 3 ⟨0, false⟩ 7 99) := by decide +kernel

theorem test_word_add : bobWord 3 0b000_0_000100_00101_00001_00010_0_000000 = some (.bAdd 3 ⟨0, false⟩ 5 1 2) := by decide +kernel

theorem test_word_sra : bobWord 3 0b111_0_001011_11111_11110_11101_0_000000 = some (.bSra 3 ⟨7, false⟩ 31 30 29) := by decide +kernel

theorem test_word_maxu : bobWord 3 0b000_0_001111_00101_00001_00010_0_000000 = some (.bMaxu 3 ⟨0, false⟩ 5 1 2) := by decide +kernel

theorem test_word_addi : bobWord 3 0b000_0_010000_00101_00001_111111111111 = some (.bAddi 3 ⟨0, false⟩ 5 1 0xFFF) := by decide +kernel

theorem test_word_slli : bobWord 3 0b000_0_010100_00101_00001_000000_111111 = some (.bSlli 3 ⟨0, false⟩ 5 1 63) := by decide +kernel

theorem test_word_li : bobWord 3 0b000_0_010111_00101_11010101111001101 = some (.bLi 3 ⟨0, false⟩ 5 0x1ABCD) := by decide +kernel

theorem test_word_extu : bobWord 3 0b000_0_011001_00101_00001_001000_001111 = some (.bExtu 3 ⟨0, false⟩ 5 1 8 15) := by decide +kernel

theorem test_word_mulq : bobWord 3 0b000_0_011111_00101_00001_00010_0_100001 = some (.bMulq 3 ⟨0, false⟩ 5 1 2 33) := by decide +kernel

theorem test_word_remu : bobWord 3 0b000_0_100011_00101_00001_00010_0_000000 = some (.bRemu 3 ⟨0, false⟩ 5 1 2) := by decide +kernel

theorem test_word_fsqrt : bobWord 3 0b000_0_101000_00101_00001_00000_0_000000 = some (.bFsqrt 3 ⟨0, false⟩ 5 1) := by decide +kernel

theorem test_word_cmp : bobWord 3 0b000_0_110000_100_101_01001_01010_000000 = some (.bCmp 3 ⟨0, false⟩ 4 .geu 9 10) := by decide +kernel

theorem test_word_cmpi : bobWord 3 0b001_1_110001_100_010_01001_11111111111 = some (.bCmpi 3 ⟨1, true⟩ 4 .lt 9 0x7FF) := by decide +kernel

theorem test_word_plog : bobWord 3 0b000_0_110011_100_011_101_110_0000000000 = some (.bPlog 3 ⟨0, false⟩ 4 .andn 5 6) := by decide +kernel

theorem test_word_ld : bobWord 3 0b000_0_110100_00101_00001_111111111110 = some (.bLd 3 ⟨0, false⟩ 5 1 0xFFE) := by decide +kernel

theorem test_word_st : bobWord 3 0b000_0_110101_00101_00001_000000000001 = some (.bSt 3 ⟨0, false⟩ 5 1 1) := by decide +kernel

theorem test_word_sld : bobWord 3 0b000_0_110110_00110_00001_000000000111 = some (.bSld 3 ⟨0, false⟩ 6 1 7) := by decide +kernel

theorem test_word_emit : bobWord 3 0b000_0_110111_10000_00001_000100100011 = some (.bEmit 3 ⟨0, false⟩ 16 1 0x123) := by decide +kernel

/-- An undefined opcode, and a reserved bit set, spell nothing. -/
theorem test_word_undefined : bobWord 3 0b000_0_111111_0000000000000000000000 = none ∧ bobWord 3 0b000_0_000100_00101_00001_00010_1_000000 = none :=
    by decide +kernel

/-- No row of the table has bits. -/
theorem test_no_table_words : decodeTableWord 16 1 = none := rfl

/-! ## States the tests start from -/

/-- A running part whose datapath forwards. -/
def runS : State := State.reset.setPwr (fun p => { p with phase := .run, fwd := true })

/-- The part in a phase. -/
def inPhase (ph : Phase) : State := State.reset.setPwr (fun p => { p with phase := ph })

/-- The public key that is the identity point, and the signature it accepts for every message: R the identity, S zero. -/
def idKey : Bytes := leBytes 57 1
def idSig : Bytes := leBytes 57 1 ++ leBytes 57 0

/-- Slots 2 and 3 of the key store with that key. -/
def withIdKeys (s : State) : State :=
  let k : KeySlot := ⟨1, [0, 4, 0, 0, 255, 255, 255, 0, 0, 0, 0, 0], ⟨[], [], idKey⟩, none⟩
  { s with keys := { s.keys with slots := [(2, k), (3, k)] } }

/-- A recovery datagram to port 2 with VLAN identifier 5: the payload's first bytes, its length field and its operation. -/
def recFrame (hd : Bytes) : Bytes :=
  List.replicate 12 2 ++ [0x81, 0, 0, 5, 8, 0, 0x45, 0] ++ List.replicate 7 0 ++ [17] ++ List.replicate 10 0
    ++ beBytes 2 51411 ++ beBytes 2 recoveryUdp ++ [0, 48, 0, 0] ++ hd ++ List.replicate 12 0 ++ [0, 8, 1, 1] ++ List.replicate 30 0

/-- A part in safe hold whose OTP names port 2 and VLAN identifier 5 for recovery, the port's link up. -/
def recS : State :=
  { (inPhase .safeHold).sf (Rg.ETH_STATUS 2) Fl.ETH_STATUS_LINK 1 with otp := { State.reset.otp with recovery := 2 + 256 * 5 } }

/-- An image whose vendor section is empty and whose operator section gives action record 0 a
destination and makes node 0 of each parse bank valid; no metrology section. -/
def vBody : Bytes := [0x0F, 0, 0, 4]
def oBody : Bytes := [3, 0, 0, 16, 1, 0, 0, 0, 0, 0, 0, 0, 0x20, 0, 0, 0, 3, 0, 0, 16, 4, 0, 0, 0, 0, 0, 0x40, 0, 0x80, 0, 0, 0, 3, 0, 0, 16, 5, 0, 0, 0, 0, 0, 0x40, 0, 0x80, 0, 0, 0, 0x0F, 0, 0, 4]
def sEntry (n sigs off len d : Nat) : Bytes := beBytes 1 n ++ beBytes 1 sigs ++ [0, 0] ++ beBytes 4 off ++ beBytes 4 len ++ zeros 4 ++ beBytes 64 d
def hdr : Bytes := [0x50, 0x52, 0x43, 0x4B, 0, 1, 2, 0, 0, 0, 4, 0, 0, 0, 0, 7, 0, 9, 3, 0, 0, 0, 0, 0]
  ++ sEntry 1 1 512 4 0xc723ec9ad98e16919680aea444972431fefee14b9a2a925a7df151bafb885632cab77d9328d5d59d5e9dfa74fae43d80ee23e8fe51a609e74bd859f6c12e2e28
  ++ sEntry 2 1 640 52 0x74e8622d1a230477e00faf9fa7fac760602ccde1babf572c22bee95138690fb56c6fa0a96e196f83ee8c1432298e41cc4805afb9f027b02570b36f2376c5221e
  ++ sEntry 3 2 0 0 0 ++ idKey ++ idKey ++ idKey ++ zeros 77
def sigBlk (n : Nat) : Bytes := beBytes 1 n ++ zeros 5 ++ idSig
def img : Bytes := hdr ++ vBody ++ sigBlk 1 ++ zeros 4 ++ oBody ++ sigBlk 2

/-- A start with that image in slot 0, slot 1 erased, and OTP that holds the digest of its key. -/
def keyDig : Bytes := beBytes 64 0x2d01ad5a432174dc4d2d424ce69101044990c5b6a0d06fadf11f394c9f987abd7c9190036bfd70da7f4055b93141839adb87d387aba41883e3c7744ec7fc492a
def otpI : Otp := { State.reset.otp with lifecycle := 1, imageDig := keyDig, operDig := [keyDig] }
def imgS : State :=
  { (inPhase .start).sf Rg.IMG_LIFECYCLE Fl.IMG_LIFECYCLE_STATE 1 with
    ospi0 := img.zipIdx.map fun e => (e.2, e.1)
    otp := otpI
    otpRead := otpI }

/-- The same, with OSPI0 failing to bring the slots of a mask. -/
def badS (m : BitVec 2) : State := { imgS with pins := { imgS.pins with ospiBad := m } }

/-- A start whose rules of the metrology section hold: a seal period, and a metrology signing key in the slot of the seal unit. -/
def metroS : State :=
  let s := (inPhase .start).wr Rg.SEAL_TIMING 1000
  s.setSlot (s.fd Rg.SEAL_CFG Fl.SEAL_CFG_KEY_SLOT) ⟨1, [0, 147, 255, 255, 4, 16, 15, 0, 0, 0, 0, 0], ⟨[], [], []⟩, none⟩

/-- Bobbin 3 at work, with a lane. -/
def w0 (p : Nat) : Pq := ⟨⟨p % 8, by omega⟩, false⟩
def ln0 : Lane := { laneInit with wregs := [(1, 40), (2, 3)] }
def bobS (b : Nat) (l : Lane) : State :=
  ((runS.sf (Rg.BOB_BUDGET b) Fl.BOB_BUDGET_CYCLES 1000).sf (Rg.BOB_STATUS b) Fl.BOB_STATUS_STATE 2).setLane b l

/-- The identity point stays itself under the additions of a verification. -/
theorem sum_zero : Ed.sum Ed.zero Ed.zero = Ed.zero := by decide +kernel
theorem smul_zero (n k : Nat) : Ed.smul k Ed.zero n = Ed.zero := by
  induction n generalizing k with
  | zero => rfl
  | succ n ih => simp [Ed.smul, sum_zero, ih]
theorem zero_smul (n : Nat) (q : Ed.Pt) : Ed.smul 0 q n = Ed.zero := by
  induction n generalizing q with
  | zero => rfl
  | succ n ih => simp [Ed.smul, ih]
theorem idSig_take : idSig.take 57 = idKey := by decide +kernel
theorem idSig_drop : ofLe ((idSig.drop 57).take 57) = 0 := by decide +kernel
theorem idKey_decode : Ed.decode idKey = some Ed.zero := by decide +kernel
theorem idVerify (m ctx : Bytes) : Ed.verify idKey m ctx idSig = true := by
  have h : ¬ (idSig.length ≠ 114 ∨ 0 ≥ Ed.order) := by decide +kernel
  simp only [Ed.verify, idSig_take, idSig_drop, idKey_decode, h, if_false, zero_smul, smul_zero, sum_zero]
  decide +kernel

/-- An entry of table 1 that waits for END, table 1 with 16 buckets; and the same with the first bucket of the entry full. -/

def tblE : Bytes := eMake 1 0xE0 [0, 1, 2, 3, 4, 5, 6, 7] [0, 0, 0, 0, 0, 1]

def seedS (e : Bytes) : State := ((inPhase .start).sf (Rg.TBL_CFG 1) Fl.TBL_CFG_SIZE 16).setLdr (fun l => { l with entries := [(1, e)] })

def fillS (e : Bytes) : State :=
  let s := seedS e
  let x := crc32 (beBytes 4 (s.rd64 (Rg.TBL_SEED_INIT 1) % 2 ^ 32) ++ eKey 1 e) * 16 / 2 ^ 32
  s.setRam (s.bktAt 1 0 x) (List.replicate 64 0xFF)

/-- A running part with Ethernet port 3 enabled, and one whose link is up. -/

def ethS : State := runS.sf (Rg.ETH_CFG 3) Fl.ETH_CFG_ENABLE 1

def upS : State := ethS.sf (Rg.ETH_STATUS 3) Fl.ETH_STATUS_LINK 1

/-- Port 3 with signal detected, adapting or not. -/

def sigS (adapting : Bool) : State := ethS.setEthP 3 { ethInit with signalAt := some 0, adapting := adapting }

/-- A frame being sent on a port, with 32 bytes in hand at its start. -/

def sendF (p : Nat) (f : Frame) (dead : Bool) : Sending := ⟨p, f, f, List.replicate 60 7, 64, false, dead, 0, 32⟩

/-- A part that sends it. -/

def sendingOn (p : Nat) (f : Frame) : State := { upS with sending := [sendF p f false] }

/-- A message, a running CAN controller 0, and a filter of it with a target. -/

def msg : CanMsg := ⟨.classical, false, false, false, false, false, 2, 0x123, 0, 0, 0, [1, 2]⟩

def canS : State := runS.sf (Rg.CAN_CFG 32) Fl.CAN_CFG_MODE 1

def filtAt (f t : Nat) : State := canS.wr (Rg.CAN_FILT_ACT 32 f) (15 + 16 * t)

def filtS (t : Nat) : State := filtAt 0 t

/-- A CAN frame queued for controller 0 in class 2, and the controller with it in its transmit buffer. -/

def canF : Frame := { data := canHeader msg 0 ++ canData msg, isCan := true, egress := 32, cls := 2 }

def txbS (f : Frame) (a : Option Nat) : State := canS.setCanP 32 { canInit with txb := [(2, ⟨f, false, false⟩)], active := a }

/-- The staging area of controller 0 with the message's image. -/

def mtxS (st : Nat) : State :=
  (canS.wrBytes (Rg.CAN_MTX_STAGE 32) (canHeader msg 0 ++ canData msg)).wr (Rg.CAN_MTX_STATUS 32 5) st

/-- T1S port 24, enabled, in fall-back or not. -/

def t1S (fall : Nat) : State := (runS.sf (Rg.T1S_CFG 24) Fl.T1S_CFG_ENABLE 1).sf (Rg.T1S_STATUS 24) Fl.T1S_STATUS_FALLBACK fall

/-- Action record 0 sends to port 3; it is live, and node 0 of bank A has the given first bytes. -/

def parseS (node : Bytes) : State :=
  (((runS.setRam Mm.act [0xA0, 0, 0, 3]).setRam (Mm.parse + 0x4000) node).setTbl (fun b => { b with live := [0] }))

def fr0 : Frame := { data := List.replicate 60 7, src := 5 }

def oneFrame (s : State) : State := { s with rxQ := [fr0] }

/-- The management DMA with one descriptor at 0x1000, whose ADDR is 0x2000 and whose INDEX is 0; table 1 has four buckets. -/

def dmaS (op table bank : Nat) : State :=
  (((((runS.wr Rg.TBL_DMA_BASE 0x1000).wr Rg.TBL_DMA_HEAD 1).sf (Rg.HOOP_BUDGET 2) Fl.HOOP_BUDGET_CYCLES 100).sf (Rg.TBL_CFG 1)
    Fl.TBL_CFG_SIZE 4).setMem 0x1000 (leBytes 4 (op + 16 * table + 128 * bank + 256) ++ zeros 4 ++ leBytes 8 0x2000))

def locked0 (s : State) : State := s.setTbl (fun b => { b with locks := [⟨1, 0, 0⟩] })

def zslot : Nat := 557842528

/-- Table 1 holds an entry for the all-zero key. -/

def hasZero (s : State) : State := s.setRam zslot [0x80]

/-- A learning request of VLAN 5 on port 3, and table 1 with an entry of its key on port 9 with the given flags. -/

def lreq : LearnReq := ⟨5, [1, 2, 3, 4, 5, 6], 3⟩

def learnS : State :=
  (((runS.sf (Rg.HOOP_BUDGET 0) Fl.HOOP_BUDGET_CYCLES 100).sf (Rg.TBL_CFG 1) Fl.TBL_CFG_SIZE 4).setTbl (fun b => { b with learnQ := [lreq] }))

def lkey : Bytes := [0, 5, 1, 2, 3, 4, 5, 6]

def lslot : Nat := 557842448

def learnT (flags : Byte) : State := learnS.setRam lslot ([flags, 0] ++ lkey ++ [0, 9, 0, 0, 0, 0])

/-- A frame for port 9 at admission, whose queue has the given limit. -/

def admF : Frame := { data := List.replicate 60 7, src := 5, goDest := 9, ctDis := true }

def admS (lim : Nat) : State := { runS.sf (Rg.BUF_LIMIT 9 0) Fl.BUF_LIMIT_LIMIT lim with admQ := [admF] }

/-- A copy in the ground, its triple, and copies held by the resequencer. -/

def cpy (seq : Nat) : Frame := { data := List.replicate 60 7, src := 5, egress := 9, seq := seq }

def gndS (fl : List Flight) (held : List Held) (sp : List Spread) : State :=
  { runS with gnd := { runS.gnd with flight := fl, held := held, spread := sp, triples := [⟨5, 9, 0, 8, 6⟩] } }

/-- A copy that has reached its egress group, and a ground whose intermediates are full. -/

def come (seq : Nat) : Flight := ⟨cpy seq, 3, some 0, false⟩

def fullS (stalled : Bool) : State :=
  let s := gndS [] [] [⟨1, [cpy 6], stalled⟩]
  { s with gnd := { s.gnd with queues := (List.range 64).map fun k => (k, List.replicate 60 ⟨0, 9, none, false⟩) } }

/-- Port 5 with two frames of strict classes queued and nothing else in the way. -/

def txF (c : Nat) : Frame := { data := List.replicate 20 7, egress := 5, cls := c }

def txS (up : Nat) : State :=
  { (runS.sf (Rg.ETH_STATUS 5) Fl.ETH_STATUS_LINK up).sf (Rg.EGR_SCHED 5) Fl.EGR_SCHED_STRICT 4 with outQ := [txF 4, txF 6] }

/-- A frame of class 2 on the wire of port p. -/

def wireF (p : Nat) : Sending := sendF p { data := List.replicate 60 7, cls := 2 } false

def wireS (p : Nat) : State := { runS with sending := [wireF p] }

/-- Port 31 with a gate list of two entries, the first of which is shown. -/

def gateS : State :=
  ((runS.setRam (Mm.gate + 0x800 * 31) [0, 0, 0, 70, 1, 0, 0, 0, 0, 0, 0, 30, 2]).sf (Rg.EGR_GATE_CFG 31) Fl.EGR_GATE_CFG_LEN 2).sf
    (Rg.EGR_GATE_STATUS 31) Fl.EGR_GATE_STATUS_STATES 1

/-- A frame that waits to be captured under map 0. -/

def capF : Frame := { data := [0x16, 0] ++ zeros 10 ++ [0, 20] ++ [0x10, 1] ++ zeros 6 ++ [0, 9, 0, 33] ++ [1, 2, 3, 4, 5, 6, 7, 8], lastAkz := 1, hdrEnd := 14 }

def capS (f : Frame) (slot : Nat) (ts : Int) : State := { runS.wr64 (Rg.BOB_CMAP 0 0) slot with capQ := [{ f with ts := ts }] }

def emitS (b : Nat) (l : Lane) (n : Nat) : State :=
  (((bobS b l).wr (Rg.BOB_EMIT_MAX b) n).setRam Mm.reg8 [0, 4, 0, 64]).setRam (Mm.reg8 + 16) ([0, 9, 0x60] ++ zeros 5 ++ [0, 60])

/-- The record of bobbin 0 that the emit unit builds, through template 0 for port 9. -/

def rec0 : EmitRec := ⟨0, List.replicate 8 5, 0⟩

def buildS : State :=
  ((({ emitS 0 { laneInit with out := [rec0] } 1 with clk := { clockInit with built := false } }.sf (Rg.BOB_STATUS 0) Fl.BOB_STATUS_STATE 1).sf (Rg.BUF_LIMIT 9 3) Fl.BUF_LIMIT_LIMIT 100).sf
    Rg.BUF_RESERVE Fl.BUF_RESERVE_EMIT 10)

/-- A slow-path copy and its ring 0 of 4 slots of 2048 bytes at 0x4000. -/

def spF : Frame := { data := List.replicate 60 7, src := 5 }

def spS (en rd : Nat) : State :=
  { ((((runS.sf (Rg.SYS_SP_RX_CFG 0) Fl.SYS_SP_RX_CFG_EN en).sf (Rg.SYS_SP_RX_CFG 0) Fl.SYS_SP_RX_CFG_LOG2 2).wr (Rg.SYS_SP_RX_BASE 0) 0x4000).wr
    (Rg.SYS_SP_RX_RD 0) rd) with spQ := [spF] }

/-- The transmit ring of 2 descriptors at 0x5000, the first with this second word; its frame of 60 bytes at 0x6000. -/

def txRing (w1 : Nat) : State :=
  (((((runS.wr Rg.SYS_SP_TX_BASE 0x5000).sf Rg.SYS_SP_TX_SIZE Fl.SYS_SP_TX_SIZE_LOG2 1).wr Rg.SYS_SP_TX_HEAD 1).sf (Rg.BUF_LIMIT 9 3)
    Fl.BUF_LIMIT_LIMIT 100).setMem 0x5000 (leBytes 4 0x6000 ++ leBytes 4 w1)).sf Rg.BUF_RESERVE Fl.BUF_RESERVE_MGMT 10

/-- The frame of a lookup descriptor at 0x5000, decided for a port. -/

def lookF (p : Nat) : Frame := { data := List.replicate 60 7, src := 48, cls := 3, goDest := p, txDesc := 0x5001 }

/-- An event that waits, and the event ring of 4 records at 0x7000. -/

def ev0 : Ev := ⟨0x0104, noPort, 5, 6, 0⟩

def evS (en rd : Nat) : State :=
  { (((runS.sf Rg.SYS_EVT_CTRL Fl.SYS_EVT_CTRL_EN en).sf Rg.SYS_EVT_SIZE Fl.SYS_EVT_SIZE_LOG2 2).wr Rg.SYS_EVT_BASE 0x7000).wr Rg.SYS_EVT_RD rd with
    ev := { runS.ev with queue := [ev0] } }

/-- An attribute string: this type in world 1, any master, any usage, any state, replaceable and destroyable. -/

def attr (t : Nat) : Bytes := [9, BitVec.ofNat 8 (t + 64), 255, 255, 127, 63, 15, 3, 0, 0, 0, 0]

def keyS (st t : Nat) (s : State) : State := s.setSlot 9 ⟨st, attr t, ⟨zeros 32, zeros 8, idKey⟩, none⟩

/-- The eyelet on port 9 with a working key and one request. -/

def eyeS (r : EyeReq) : State :=
  let s := keyS 1 2 (((((runS.sf Rg.EYE_CFG Fl.EYE_CFG_PORT 9).sf Rg.EYE_CFG Fl.EYE_CFG_KEY_SLOT 9).sf (Rg.BUF_LIMIT 9 0) Fl.BUF_LIMIT_LIMIT 100).sf
    Rg.BUF_RESERVE Fl.BUF_RESERVE_MGMT 60).sf Rg.KEY_CFG Fl.KEY_CFG_ATTEST_SLOT 9)
  { s with keys := { s.keys with work := [⟨9, ascii "EYELET" ++ beBytes 2 s.node, [1]⟩] }, eye := { s.eye with queue := [r] } }

/-- The bridge with a working key of initiator 1, and a route for the region at 0: T1S port 24, read and write. -/

def brgS : State :=
  let s := keyS 1 2 ((((((runS.sf Rg.BRG_CFG Fl.BRG_CFG_ENABLE 1).sf (Rg.BRG_INIT 1) Fl.BRG_INIT_VALID 1).sf (Rg.BRG_INIT 1) Fl.BRG_INIT_KEY_SLOT 9).sf
    (Rg.TBL_CFG 3) Fl.TBL_CFG_SIZE 4).wr64 Rg.HOOP_COUNT 100).sf Rg.BRG_COLLECT Fl.BRG_COLLECT_TIMEOUT 2)
  { s with keys := { s.keys with work := [⟨9, ascii "COP" ++ beBytes 2 1, [1]⟩] } }

def rt0 : Bytes := [0x98, 0x40, 3, 255, 1, 2, 3, 4, 5, 6, 0, 0]

def rtS : State := brgS.setRam 558891136 ([0x80, 0, 0, 0] ++ rt0)

/-- A COP datagram of initiator 1, tag 7, address 0x10, length 4, with the tag a key [1] gives it. -/

def copMsg (ty : Nat) (data : Bytes) : Bytes := [BitVec.ofNat 8 (16 + ty), 0, 0, 1, 0, 7, 0, 0, 0, 16, 0, 4, 0, 0, 0, 0] ++ data

def copF (body : Bytes) : Frame :=
  { data := zeros 12 ++ [8, 0, 0x45] ++ zeros 8 ++ [17] ++ zeros 10 ++ [0, 0] ++ beBytes 2 (runS.fd Rg.BRG_CFG Fl.BRG_CFG_UDP_PORT)
      ++ beBytes 2 (8 + body.length) ++ [0, 0] ++ body, src := 5 }

def copBody (ty : Nat) (data : Bytes) : Bytes := copMsg ty data ++ beBytes 16 (if ty = 1 then 0x3ba5205f532c490c9c62775326b8cb8a
  else 0x93a7c381f56d38ce4d021b8c3dcc2a49)

/-- The request it carries. -/

def copC (ty : Nat) (data : Bytes) : CopReq := ⟨14, 34, 8 + (copBody ty data).length, copBody ty data⟩

/-- A slot of the bridge in a state, for a transaction through a route. -/

def slotX (st : Nat) (write : Bool) (rt : Bytes) : BrgSlot := ⟨st, 1, 7, true, write, 0x10, 4, [], rt, 0, 0, 0, 0, 0⟩

def slotS (n : Nat) (x : BrgSlot) : State := { brgS with brg := { brgS.brg with slots := [(n, x)] } }

/-- A far-side message on T1S port 24 for slot 3. -/

def farB (m : Far) : Bytes :=
  [BitVec.ofNat 8 (16 * m.type + m.gen), BitVec.ofNat 8 m.tag, if m.last then 128 else 0, 0, 0, 0] ++ beBytes 2 m.total ++ m.data

def farF (m : Far) : Frame :=
  { data := zeros 6 ++ [1, 2, 3, 4, 5, 6] ++ beBytes 2 (runS.fd Rg.BRG_L2 Fl.BRG_L2_ETYPE) ++ farB m, src := 24 }

def farS (m : Far) (x : BrgSlot) : State := { slotS 3 x with brgQ := [farF m] }

/-- The attributes of a replaceable wrapped KMAC root. -/

def attrR : Bytes := [9, 66, 255, 255, 127, 9, 15, 3, 0, 0, 0, 0]

/-- A payload of KEY_REPL_BUF for slot 9: derived, or public. -/

def payL (src : Nat) : Bytes := [9, BitVec.ofNat 8 (66 + 16 * src), 255, 255] ++ zeros 124

/-- A service descriptor at 0 of an operation on slot 9. -/

def svcS (op t : Nat) (tag : Bytes) : State := ((keyS 1 t runS).setMem 0 [BitVec.ofNat 8 op, 9]).setMem 48 tag

/-- The tag of AES-256-GCM with zero key and nonce over nothing. -/

def gTag : Bytes := beBytes 16 0x530f8afbc74536b9a963b4f1c4cb738b

/-- A part with metrology, a key of the seal unit, and no cause of LEGAL_HALT. -/

def sealS : State :=
  let s := (runS.sf Rg.IMG_STATUS Fl.IMG_STATUS_METRO_VALID 1).sf Rg.SEAL_STATUS Fl.SEAL_STATUS_HALT_CAUSE 0
  s.setSlot (s.fd Rg.SEAL_CFG Fl.SEAL_CFG_KEY_SLOT) ⟨1, [0, 147, 255, 255, 4, 16, 15, 0, 0, 0, 0, 0], ⟨zeros 57, [], []⟩, none⟩

def evF : Frame := { data := List.replicate 60 7, src := 5 }

def item (isSeal signed : Bool) (n : Nat) : ChainItem := ⟨List.replicate n 7, isSeal, signed, 4, [], 0, false⟩

def bufS (b : List ChainItem) : State := { sealS with chain := { sealS.chain with buf := b } }

def openS (page : Nat) (o : Bool) : State :=
  let s := (bufS [item false true 128]).wr Rg.SEAL_APPEND page
  { s with chain := { s.chain with opened := o } }

/-! ## The statements on states that meet their hypotheses -/

/-- A command that completes with some result answers a next state. -/
theorem ran {c : Instr} {s : State} {P : State → Prop} (h : completes c s P) : ∃ t, exec c s = .next t := h.imp fun _ x => x.1

/-- The same, the command and the state left to the term. -/
theorem ranEx {c : Instr} {s : State} {P : State → Prop} (h : completes c s P) : ∃ c s t, exec c s = .next t := ⟨c, s, ran h⟩

/-! Several decided premises given as one. -/

theorem meet3 {a b c p : Prop} (h : a → b → c → p) (e : a ∧ b ∧ c) : p := h e.1 e.2.1 e.2.2
theorem meet4 {a b c d p : Prop} (h : a → b → c → d → p) (e : a ∧ b ∧ c ∧ d) : p := meet3 (h e.1) e.2
theorem meet5 {a b c d f p : Prop} (h : a → b → c → d → f → p) (e : a ∧ b ∧ c ∧ d ∧ f) : p := meet4 (h e.1) e.2
theorem meet6 {a b c d f g p : Prop} (h : a → b → c → d → f → g → p) (e : a ∧ b ∧ c ∧ d ∧ f ∧ g) : p := meet5 (h e.1) e.2
theorem meet7 {a b c d f g i p : Prop} (h : a → b → c → d → f → g → i → p) (e : a ∧ b ∧ c ∧ d ∧ f ∧ g ∧ i) : p := meet6 (h e.1) e.2
theorem meet8 {a b c d f g i j p : Prop} (h : a → b → c → d → f → g → i → j → p) (e : a ∧ b ∧ c ∧ d ∧ f ∧ g ∧ i ∧ j) : p :=
  meet7 (h e.1) e.2

/-! ### StepRunsFrontCommand -/

theorem test_stepRunsFrontCommand (h : Obligations.StepRunsFrontCommand) :
    step { runS with pending := [.timeAdjDone, .wdogWarn] } = exec .timeAdjDone { runS with pending := [.wdogWarn] } := h _ _ _ rfl

/-! ### EmptyQueueTicks -/

theorem test_emptyQueueTicks_1 (h : Obligations.EmptyQueueTicks) : step State.reset = .next State.reset := (h State.reset rfl).1 rfl

theorem test_emptyQueueTicks_2 (h : Obligations.EmptyQueueTicks) : step (inPhase .sleep) = .next ((inPhase .sleep).advance 10) :=
  (h (inPhase .sleep) rfl).2.1 rfl

theorem test_emptyQueueTicks_3 (h : Obligations.EmptyQueueTicks) : step (inPhase .flush) = .next ((inPhase .flush).advance 1) :=
  meet3 (h (inPhase .flush) rfl).2.2.1 (by decide +kernel)

theorem test_emptyQueueTicks_4 (h : Obligations.EmptyQueueTicks) : step runS = .next (runS.advance 1).injectDue :=
  (h runS rfl).2.2.2 rfl (by decide +kernel)

/-! ### RegisterWriteStoresMemory -/

theorem test_registerWriteStoresMemory_1 (h : Obligations.RegisterWriteStoresMemory) : ∃ t, exec (Instr.registerWrite 1 12582908
    { value := 16909060, width := Width.word, op := CoreOp.store }) (runS) = .next t :=
  ran (h.1 1 0x00BFFFFC .word 0x01020304 runS (by decide +kernel) rfl (by decide +kernel) (by decide +kernel))

theorem test_registerWriteStoresMemory_2 (h : Obligations.RegisterWriteStoresMemory) : ∃ t, exec (Instr.reg64LowRead 1
    { addr := 12582904, width := Width.double, reserve := none }) (runS.setMem 0x00BFFFF8 [1, 2, 3, 4, 5, 6, 7, 8]) = .next t :=
  ran (meet3 (h.2.1 1 0x00BFFFF8 .double (runS.setMem 0x00BFFFF8 [1, 2, 3, 4, 5, 6, 7, 8]) (by decide +kernel) rfl) (by decide +kernel))

theorem test_registerWriteStoresMemory_3 (h : Obligations.RegisterWriteStoresMemory) : ∃ t, exec (Instr.registerWrite 0 268435456
    { value := 1, width := Width.half, op := CoreOp.store }) (runS) = .next t :=
  ran (h.2.2.1 0 0x10000000 ⟨1, .half, .store⟩ runS (by decide +kernel) rfl (by decide +kernel) (by decide +kernel))

theorem test_registerWriteStoresMemory_4 (h : Obligations.RegisterWriteStoresMemory) : ∃ t, exec (Instr.registerWrite 0 268435456
    { value := 1, width := Width.word, op := CoreOp.add }) (runS) = .next t :=
  ran (h.2.2.1 0 0x10000000 ⟨1, .word, .add⟩ runS (by decide +kernel) rfl (by decide +kernel) (by decide +kernel))

theorem test_registerWriteStoresMemory_5 (h : Obligations.RegisterWriteStoresMemory) : ∃ t, exec (Instr.registerWrite 0 8
    { value := 4294967295, width := Width.word, op := CoreOp.add }) (runS.setMem 8 [1, 2, 3, 4]) = .next t :=
  ran (h.2.2.2.1 0 8 .word 0xFFFFFFFF (runS.setMem 8 [1, 2, 3, 4]) (by decide +kernel) rfl (by decide +kernel) (by decide +kernel))

theorem test_registerWriteStoresMemory_6 (h : Obligations.RegisterWriteStoresMemory) : ∃ t, exec (Instr.reg64LowRead 0
    { addr := 16, width := Width.double, reserve := some 1 }) (runS) = .next t :=
  ran ((h.2.2.2.2.1 0 1 16 .double 7 runS (by decide +kernel) rfl (by decide +kernel) (by decide +kernel)).1)

theorem test_registerWriteStoresMemory_7 (h : Obligations.RegisterWriteStoresMemory) : ∃ t, exec (Instr.registerWrite 0 16
    { value := 7, width := Width.double, op := CoreOp.storeCond 1 }) { runS with resv := [(1, 16, 8)] } = .next t :=
  ran ((h.2.2.2.2.1 0 1 16 .double 7 { runS with resv := [(1, 16, 8)] } (by decide +kernel) rfl (by decide +kernel) (by decide +kernel)).2)

theorem test_registerWriteStoresMemory_8 (h : Obligations.RegisterWriteStoresMemory) : ∃ t, exec (Instr.registerWrite 0 16
    { value := 7, width := Width.double, op := CoreOp.storeCond 1 }) (runS) = .next t :=
  ran ((h.2.2.2.2.1 0 1 16 .double 7 runS (by decide +kernel) rfl (by decide +kernel) (by decide +kernel)).2)

theorem test_registerWriteStoresMemory_9 (h : Obligations.RegisterWriteStoresMemory) : ∃ t, exec (Instr.debugWindowRead 562036732) (runS.setRam
    562036732 [1, 2, 3, 4]) = .next t :=
  ran (meet5 (h.2.2.2.2.2 0x217FFFFC (runS.setRam 0x217FFFFC [1, 2, 3, 4])) (by decide +kernel))

/-! ### RegisterWriteActsByField -/

theorem test_registerWriteActsByField_1 (h : Obligations.RegisterWriteActsByField) : ∃ t, exec (Instr.registerWrite 0 (BitVec.ofNat 32
    (Rg.ETH_INT_STATUS ↑23).addr) (CoreStore.word 4294967295)) (runS.wr (Rg.ETH_INT_STATUS 23) 0x1F) = .next t :=
  ran ((h 0 23 0xFFFFFFFF (runS.wr (Rg.ETH_INT_STATUS 23) 0x1F) (by decide +kernel) rfl).1)

theorem test_registerWriteActsByField_2 (h : Obligations.RegisterWriteActsByField) : ∃ t, exec (Instr.registerWrite 0 (BitVec.ofNat 32 (Rg.ETH_INT_EN
    ↑23).addr) (CoreStore.word 4294967295)) (runS.wr (Rg.ETH_INT_STATUS 23) 0x1F) = .next t :=
  ran ((h 0 23 0xFFFFFFFF (runS.wr (Rg.ETH_INT_STATUS 23) 0x1F) (by decide +kernel) rfl).2)

/-! ### ReadOnlyWriteIgnored -/

theorem test_readOnlyWriteIgnored_1 (h : Obligations.ReadOnlyWriteIgnored) : ∃ t, exec (Instr.registerWrite 0 (BitVec.ofNat 32 Rg.SYS_CHIP_ID.addr)
    (CoreStore.word 1)) (runS) = .next t :=
  ran (h 0 1 runS (by decide +kernel) rfl (by unfold Safety.evRoom; decide +kernel))

/-! ### ReadsLatch -/

theorem test_readsLatch_1 (h : Obligations.ReadsLatch) : ∃ t, exec (Instr.reg64LowRead 3 (CoreLoad.word (BitVec.ofNat 32 Rg.HOOP_COUNT.addr))) (runS)
    = .next t :=
  ran (h.1 3 runS (by decide +kernel) rfl)

theorem test_readsLatch_2 (h : Obligations.ReadsLatch) : ∃ t, exec (Instr.reg64LowRead 0 (CoreLoad.word (BitVec.ofNat 32 (Rg.TIME_NOW.addr + 4))))
    (runS) = .next t :=
  ran (h.2.1 0 runS (by decide +kernel) rfl (Rg.TIME_NOW.addr + 4) (by decide +kernel))

theorem test_readsLatch_3 (h : Obligations.ReadsLatch) : ∃ t, exec (Instr.timeNowRead 0) (runS.wr64 Rg.TIME_RAW 5000000000) = .next t :=
  ran (h.2.2.1 0 (runS.wr64 Rg.TIME_RAW 5000000000) (by decide +kernel))

theorem test_readsLatch_4 (h : Obligations.ReadsLatch) : ∃ t, exec (Instr.reg64LowRead 0 (CoreLoad.word (BitVec.ofNat 32 (Rg.TIME_PPS_IN_TS
    ↑1).addr))) (runS) = .next t :=
  ran (h.2.2.2 0 1 runS (by decide +kernel) rfl)

/-! ### TimeRateWriteClamps -/

theorem test_timeRateWriteClamps_1 (h : Obligations.TimeRateWriteClamps) : ∃ t, exec (Instr.timeRateWrite 0 109951164) (runS) = .next t :=
  ran (h 0 109951164 runS (by decide +kernel) (by unfold Safety.evRoom; decide +kernel))

theorem test_timeRateWriteClamps_2 (h : Obligations.TimeRateWriteClamps) : ∃ t, exec (Instr.timeRateWrite 1 (BitVec.ofInt 32 (-109951163))) (runS) =
    .next t :=
  ran (h 1 (BitVec.ofInt 32 (-109951163)) runS (by decide +kernel) (by unfold Safety.evRoom; decide +kernel))

/-! ### SlewStartsAndEnds -/

theorem test_slewStartsAndEnds_1 (h : Obligations.SlewStartsAndEnds) : ∃ t, exec (Instr.timeAdjWrite 0 (BitVec.ofInt 32 (-1))) (runS) = .next t :=
  ran (h.1 0 (BitVec.ofInt 32 (-1)) runS (by decide +kernel))

theorem test_slewStartsAndEnds_2 (h : Obligations.SlewStartsAndEnds) : ∃ t, exec (Instr.timeAdjDone)
    { runS with clk := { clockInit with slewRemain := -3 } } = .next t :=
  ran ((meet4 (h.2 { runS with clk := { clockInit with slewRemain := -3 } }) (by decide +kernel)) (by unfold Safety.evRoom; decide +kernel))

/-! ### TrustFollowsServo -/

theorem test_trustFollowsServo_1 (h : Obligations.TrustFollowsServo) : ∃ t, exec (Instr.servoReport 0 1000) (runS.sf Rg.TIME_STATUS
    Fl.TIME_STATUS_GOOD_RUN 15) = .next t :=
  ran (meet3 (h.1 0 1000 (runS.sf Rg.TIME_STATUS Fl.TIME_STATUS_GOOD_RUN 15)) (by decide +kernel))

theorem test_trustFollowsServo_2 (h : Obligations.TrustFollowsServo) : ∃ t, exec (Instr.servoReport 0 0) ((runS.sf Rg.TIME_STATUS
    Fl.TIME_STATUS_TRUST 1).wr64 Rg.TIME_RAW 5000000000) = .next t :=
  ran (meet5 (h.2.1 0 0 ((runS.sf Rg.TIME_STATUS Fl.TIME_STATUS_TRUST 1).wr64 Rg.TIME_RAW 5000000000)) (by decide +kernel))

theorem test_trustFollowsServo_3 (h : Obligations.TrustFollowsServo) : ∃ t, exec (Instr.servoReport 0 2147483648) (runS.sf Rg.TIME_STATUS
    Fl.TIME_STATUS_TRUST 1) = .next t :=
  ran (h.2.2.1 0 0x80000000 (runS.sf Rg.TIME_STATUS Fl.TIME_STATUS_TRUST 1) (by decide +kernel) (by decide +kernel))

theorem test_trustFollowsServo_4 (h : Obligations.TrustFollowsServo) : ∃ t, exec (Instr.servoReport 0 1001) (runS.sf Rg.TIME_STATUS
    Fl.TIME_STATUS_GOOD_RUN 9) = .next t :=
  ran (h.2.2.1 0 1001 (runS.sf Rg.TIME_STATUS Fl.TIME_STATUS_GOOD_RUN 9) (by decide +kernel) (by decide +kernel))

theorem test_trustFollowsServo_5 (h : Obligations.TrustFollowsServo) : ∃ t, exec (Instr.forceLoss 0 2) (runS.sf Rg.TIME_STATUS Fl.TIME_STATUS_TRUST
    1) = .next t :=
  ran (h.2.2.2.1 0 2 (runS.sf Rg.TIME_STATUS Fl.TIME_STATUS_TRUST 1) (by decide +kernel) (by decide +kernel))

theorem test_trustFollowsServo_6 (h : Obligations.TrustFollowsServo) : ∃ t, exec (Instr.syncReportTimeout) (runS.sf Rg.TIME_STATUS
    Fl.TIME_STATUS_TRUST 1) = .next t :=
  ran (meet3 (h.2.2.2.2.1 (runS.sf Rg.TIME_STATUS Fl.TIME_STATUS_TRUST 1)) (by decide +kernel))

theorem test_trustFollowsServo_7 (h : Obligations.TrustFollowsServo) : ∃ t, exec (Instr.holdoverExpiry) (runS.sf Rg.TIME_STATUS Fl.TIME_STATUS_TRUST
    2) = .next t :=
  ran (h.2.2.2.2.2.1 (runS.sf Rg.TIME_STATUS Fl.TIME_STATUS_TRUST 2) (by decide +kernel))

theorem test_trustFollowsServo_8 (h : Obligations.TrustFollowsServo) : ∃ t, exec (Instr.hoopBoundary 0)
    { inPhase .doze with clk := { clockInit with pendTrust := some 1 } } = .next t :=
  ran (meet4 (h.2.2.2.2.2.2 0 { inPhase .doze with clk := { clockInit with pendTrust := some 1 } }) (by decide +kernel))

theorem test_trustFollowsServo_9 (h : Obligations.TrustFollowsServo) : ∃ t, exec (Instr.hoopBoundary 0)
    { (runS.sf Rg.TIME_STATUS Fl.TIME_STATUS_TRUST 1) with clk := { clockInit with pendTrust := some 2, lostAt := 99999 } } = .next t :=
  ran (meet4 (h.2.2.2.2.2.2 0
      { (runS.sf Rg.TIME_STATUS Fl.TIME_STATUS_TRUST 1) with clk := { clockInit with pendTrust := some 2, lostAt := 99999 } }) (by decide +kernel))

/-! ### PpsAndTimestamps -/

theorem test_ppsAndTimestamps_1 (h : Obligations.PpsAndTimestamps) : ∃ t, exec (Instr.ppsInEdge 7 1) (runS.wr Rg.TIME_CTRL 4294967295) = .next t :=
  ran (h.1 7 1 (runS.wr Rg.TIME_CTRL 0xFFFFFFFF) (by decide +kernel))

theorem test_ppsAndTimestamps_2 (h : Obligations.PpsAndTimestamps) : ∃ t, exec (Instr.ppsInEdge 7 0) (runS) = .next t :=
  ran (h.2.1 7 0 runS (by decide +kernel))

theorem test_ppsAndTimestamps_3 (h : Obligations.PpsAndTimestamps) : ∃ t, exec (Instr.ppsInMissing 1) (runS.wr Rg.TIME_CTRL 4294967295) = .next t :=
  ran (h.2.2.1 1 (runS.wr Rg.TIME_CTRL 0xFFFFFFFF) (by decide +kernel) (by unfold Safety.evRoom; decide +kernel))

theorem test_ppsAndTimestamps_4 (h : Obligations.PpsAndTimestamps) : ∃ t, exec (Instr.ppsOutPulse 3)
    { (runS.sf (Rg.TIME_PPS_OUT_CFG 3) Fl.TIME_PPS_OUT_CFG_SRC 2).sf (Rg.TIME_PPS_OUT_CFG 3) Fl.TIME_PPS_OUT_CFG_WIDTH 1 with clk := { clockInit with boundRaw := 5 } } = .next t :=
  ran (meet5 (h.2.2.2.1 3
      { (runS.sf (Rg.TIME_PPS_OUT_CFG 3) Fl.TIME_PPS_OUT_CFG_SRC 2).sf (Rg.TIME_PPS_OUT_CFG 3) Fl.TIME_PPS_OUT_CFG_WIDTH 1 with clk := { clockInit with boundRaw := 5 } }) (by decide +kernel))

theorem test_ppsAndTimestamps_5 (h : Obligations.PpsAndTimestamps) : ∃ t, exec (Instr.timeTsqPop 7 1) { runS with tsq := [(7, [1, 2])] } = .next t :=
  ran (h.2.2.2.2 7 1 { runS with tsq := [(7, [1, 2])] } (by decide +kernel) (by decide +kernel))

theorem test_ppsAndTimestamps_6 (h : Obligations.PpsAndTimestamps) : ∃ t, exec (Instr.timeTsqPop 7 1)
    { runS with tsq := [(7, [1, 2])], cyc := { cycInit with tsWait := [(47, 9, 5)] } } = .next t :=
  ran (h.2.2.2.2 7 1 { runS with tsq := [(7, [1, 2])], cyc := { cycInit with tsWait := [(47, 9, 5)] } } (by decide +kernel) (by decide +kernel))

/-! ### BoundaryFollowsLocalTime -/

theorem test_boundaryFollowsLocalTime_1 (h : Obligations.BoundaryFollowsLocalTime) : ∃ t, exec (Instr.hoopBoundary 0) (inPhase Phase.doze) = .next t
    :=
  ran (h.1 0 (inPhase .doze) (by decide +kernel))

theorem test_boundaryFollowsLocalTime_2 (h : Obligations.BoundaryFollowsLocalTime) : ∃ t, exec (Instr.hoopBoundary 0) (inPhase Phase.flush) = .next t
    :=
  ran (h.1 0 (inPhase .flush) (by decide +kernel))

theorem test_boundaryFollowsLocalTime_3 (h : Obligations.BoundaryFollowsLocalTime) : ∃ t, exec (Instr.hoopBoundary 0) (runS) = .next t :=
  ran (h.1 0 runS (by decide +kernel))

theorem test_boundaryFollowsLocalTime_4 (h : Obligations.BoundaryFollowsLocalTime) : ∃ t, exec (Instr.swapDelayExpiry)
    { (runS.wr (Rg.BOB_BUDGET 0) 100) with clk := { clockInit with swapped := false } } = .next t :=
  ran (h.2.1 { (runS.wr (Rg.BOB_BUDGET 0) 100) with clk := { clockInit with swapped := false } } (by decide +kernel) rfl
      (by unfold Safety.sound; decide +kernel))

theorem test_boundaryFollowsLocalTime_5 (h : Obligations.BoundaryFollowsLocalTime) : ∃ t, exec (Instr.swapDelayExpiry)
    { runS with clk := { clockInit with swapped := true } } = .next t :=
  ran (h.2.2.1 { runS with clk := { clockInit with swapped := true } } (by decide +kernel) rfl rfl)

theorem test_boundaryFollowsLocalTime_6 (h : Obligations.BoundaryFollowsLocalTime) : ∃ t, exec (Instr.bSld 3 (w0 0) 6 1 2) (bobS 3 ln0) = .next t :=
  ran (meet4 (h.2.2.2 3 (w0 0) 6 1 2 0 (bobS 3 ln0) (by unfold Safety.issuesAt; decide +kernel) (by decide +kernel) rfl rfl) (by decide +kernel))

/-! ### ResetInputs -/

theorem test_resetInputs_1 (h : Obligations.ResetInputs) : ∃ t, exec (Instr.powerOnReset 2000) (runS) = .next t :=
  ran (h.1 2000 runS (by decide +kernel) rfl)

theorem test_resetInputs_2 (h : Obligations.ResetInputs) : ∃ t, exec (Instr.porRelease) (State.reset) = .next t :=
  ran (h.2.1 State.reset rfl (by decide +kernel) (by decide +kernel))

theorem test_resetInputs_3 (h : Obligations.ResetInputs) : ∃ t, exec (Instr.porRelease) (State.reset.setPwr (fun p =>
    { p with resetNHigh := false })) = .next t :=
  ran (h.2.2.1 (State.reset.setPwr (fun p => { p with resetNHigh := false })) rfl (by decide +kernel))

theorem test_resetInputs_4 (h : Obligations.ResetInputs) : ∃ t, exec (Instr.resetNAssert 10000) (runS) = .next t :=
  ran (meet3 (h.2.2.2.1 10000 runS) (by decide +kernel))

theorem test_resetInputs_5 (h : Obligations.ResetInputs) : ∃ t, exec (Instr.resetNAssert 1000) (runS) = .next t :=
  ran (h.2.2.2.2.1 1000 runS (by decide +kernel))

theorem test_resetInputs_6 (h : Obligations.ResetInputs) : ∃ t, exec (Instr.resetNRelease) (inPhase Phase.held) = .next t :=
  ran (h.2.2.2.2.2.1 (inPhase .held) rfl (by decide +kernel))

theorem test_resetInputs_7 (h : Obligations.ResetInputs) : ∃ t, exec (Instr.pllRefclkLoss 0) (runS) = .next t :=
  ran (h.2.2.2.2.2.2 runS rfl (by decide +kernel) (by decide +kernel))

/-! ### FlushesOpen -/

theorem test_flushesOpen_1 (h : Obligations.FlushesOpen) : ∃ t, exec (Instr.firmwareResetRequest 0 42241) (runS) = .next t :=
  ran (h.1 0 0x0000A501 runS rfl (by decide +kernel) (by decide +kernel) (by unfold Safety.sound; decide +kernel))

theorem test_flushesOpen_2 (h : Obligations.FlushesOpen) : ∃ t, exec (Instr.firmwareResetRequest 0 1) (runS) = .next t :=
  ran (h.2.1 0 1 runS rfl (by decide +kernel) (by unfold Safety.evRoom; decide +kernel))

theorem test_flushesOpen_3 (h : Obligations.FlushesOpen) : ∃ t, exec (Instr.dozeRequest 0 1) (runS) = .next t :=
  ran (h.2.2.1 0 1 runS rfl (by decide +kernel))

theorem test_flushesOpen_4 (h : Obligations.FlushesOpen) : ∃ t, exec (Instr.sleepRequest 0 2) (runS) = .next t :=
  ran (h.2.2.2.1 0 2 runS rfl (by decide +kernel) (by unfold Safety.sound; decide +kernel))

theorem test_flushesOpen_5 (h : Obligations.FlushesOpen) : ∃ t, exec (Instr.wdogKick 1) (runS) = .next t :=
  ran (h.2.2.2.2.1 1 runS (by decide +kernel) (by decide +kernel))

theorem test_flushesOpen_6 (h : Obligations.FlushesOpen) : ∃ t, exec (Instr.wdogWarn) (runS.setPwr (fun p => { p with wdog := 1 })) = .next t :=
  ran ((meet3 (h.2.2.2.2.2.1 (runS.setPwr (fun p => { p with wdog := 1 }))) (by decide +kernel)) (by unfold Safety.evRoom; decide +kernel))

theorem test_flushesOpen_7 (h : Obligations.FlushesOpen) : ∃ t, exec (Instr.wdogExpiry) (runS) = .next t :=
  ran (h.2.2.2.2.2.2 runS (by decide +kernel) (by decide +kernel) (by unfold Safety.sound; decide +kernel))

/-! ### FlushEnds -/

theorem test_flushEnds_1 (h : Obligations.FlushEnds) : ∃ t, exec (Instr.flushEnd) ((inPhase .flush).setPwr (fun p => { p with tailDone := true })) =
    .next t :=
  ran (h.1 ((inPhase .flush).setPwr (fun p => { p with tailDone := true })) rfl rfl rfl (by decide +kernel) rfl rfl)

theorem test_flushEnds_2 (h : Obligations.FlushEnds) : ∃ t, exec (Instr.flushEnd) ((inPhase .flush).setPwr (fun p => { p with flush := .doze })) =
    .next t :=
  ran (h.2.1 ((inPhase .flush).setPwr (fun p => { p with flush := .doze })) rfl rfl (by decide +kernel) (by decide +kernel) rfl rfl rfl)

theorem test_flushEnds_3 (h : Obligations.FlushEnds) : ∃ t, exec (Instr.flushEnd) ((inPhase .flush).setPwr (fun p =>
    { p with flush := .therm, tailDone := true })) = .next t :=
  ran (h.2.2.1 ((inPhase .flush).setPwr (fun p => { p with flush := .therm, tailDone := true })) rfl rfl rfl (by decide +kernel))

theorem test_flushEnds_4 (h : Obligations.FlushEnds) : ∃ t, exec (Instr.flushEnd) ((inPhase .flush).setPwr (fun p =>
    { p with flush := .sleep, tailDone := true })) = .next t :=
  ran (h.2.2.2 ((inPhase .flush).setPwr (fun p => { p with flush := .sleep, tailDone := true })) rfl rfl rfl (by decide +kernel) rfl rfl)

/-! ### Wakes -/

theorem test_wakes_1 (h : Obligations.Wakes) : ∃ t, exec (Instr.wakeEvent 0 32768 1000) (((inPhase Phase.doze).wr Rg.SYS_WAKE_EN 32768).wr
    Rg.SYS_WAKE_POL 32768) = .next t :=
  ran (meet4 (h.1 0 0x8000 1000 15 (((inPhase .doze).wr Rg.SYS_WAKE_EN 0x8000).wr Rg.SYS_WAKE_POL 0x8000) rfl) (by decide +kernel))

theorem test_wakes_2 (h : Obligations.Wakes) : ∃ t, exec (Instr.dozeTimerWake) (((inPhase .doze).wr Rg.SYS_WAKE_EN 0x40000).setPwr (fun p =>
    { p with dozeReps := 70000 })) = .next t :=
  ran (h.2.1 (((inPhase .doze).wr Rg.SYS_WAKE_EN 0x40000).setPwr (fun p => { p with dozeReps := 70000 })) rfl (by decide +kernel) (by decide +kernel))

theorem test_wakes_3 (h : Obligations.Wakes) : ∃ t, exec (Instr.dozeExitComplete) (inPhase Phase.dozeExit) = .next t :=
  ran (h.2.2.1 (inPhase .dozeExit) rfl)

theorem test_wakes_4 (h : Obligations.Wakes) : ∃ t, exec (Instr.sleepWake 0 1000) (((inPhase Phase.sleep).wr Rg.SYS_WAKE_EN 1).wr Rg.SYS_WAKE_POL 0)
    = .next t :=
  ran (h.2.2.2 0 1000 0 (((inPhase .sleep).wr Rg.SYS_WAKE_EN 1).wr Rg.SYS_WAKE_POL 0) rfl (by decide +kernel) (by decide +kernel) rfl
      (by decide +kernel) (by decide +kernel))

/-! ### TemperatureAndPowerFail -/

theorem test_temperatureAndPowerFail_1 (h : Obligations.TemperatureAndPowerFail) : ∃ t, exec (Instr.tempReading 472) (runS) = .next t :=
  ran (h.1 0x1D8 runS (by decide +kernel) (by decide +kernel))

theorem test_temperatureAndPowerFail_2 (h : Obligations.TemperatureAndPowerFail) : ∃ t, exec (Instr.tempReading 120) (runS.setPwr (fun p =>
    { p with hotRuns := 2 })) = .next t :=
  ran (h.2.1 120 (runS.setPwr (fun p => { p with hotRuns := 2 })) rfl rfl (by decide +kernel))

theorem test_temperatureAndPowerFail_3 (h : Obligations.TemperatureAndPowerFail) : ∃ t, exec (Instr.thermalHoldExit) ((inPhase .thermHold).setPwr
    (fun p => { p with coolSince := some 0 })) = .next t :=
  ran (h.2.2.1 0 ((inPhase .thermHold).setPwr (fun p => { p with coolSince := some 0 })) rfl rfl rfl)

theorem test_temperatureAndPowerFail_4 (h : Obligations.TemperatureAndPowerFail) : ∃ t, exec (Instr.pwrfailAssert 2000) (runS) = .next t :=
  ran (h.2.2.2.1 2000 runS rfl (by decide +kernel) (by unfold Safety.sound; decide +kernel))

theorem test_temperatureAndPowerFail_5 (h : Obligations.TemperatureAndPowerFail) : ∃ t, exec (Instr.flushEnd) ((inPhase .flush).setPwr (fun p =>
    { p with flush := .pfail })) = .next t :=
  ran (h.2.2.2.2.1 ((inPhase .flush).setPwr (fun p => { p with flush := .pfail })) rfl rfl rfl)

theorem test_temperatureAndPowerFail_6 (h : Obligations.TemperatureAndPowerFail) : ∃ t, exec (Instr.pwrfailRelease) ((inPhase .flush).setPwr (fun p
    => { p with flush := .pfail })) = .next t :=
  ran (h.2.2.2.2.2.1 ((inPhase .flush).setPwr (fun p => { p with flush := .pfail })) rfl rfl rfl rfl)

theorem test_temperatureAndPowerFail_7 (h : Obligations.TemperatureAndPowerFail) : ∃ t, exec (Instr.pwrfailRelease) ((inPhase .pfailHold).setPwr (fun
    p => { p with pwrfail := true })) = .next t :=
  ran (h.2.2.2.2.2.2 ((inPhase .pfailHold).setPwr (fun p => { p with pwrfail := true })) rfl rfl)

/-! ### LoaderWritesAndChecks -/

theorem test_loaderWritesAndChecks_1 (h : Obligations.LoaderWritesAndChecks) : ∃ t, exec (Instr.writeRecord Sect.operator (BitVec.ofNat 32
    (Rg.ETH_INT_EN ↑3).addr) 21 63) (inPhase Phase.start) = .next t :=
  ran (h.1 3 0x15 0x3F (inPhase .start) (by unfold Safety.loading; decide +kernel) (by decide +kernel) (by decide +kernel))

theorem test_loaderWritesAndChecks_2 (h : Obligations.LoaderWritesAndChecks) : ∃ t, exec (Instr.writeRecord Sect.vendor 0 0 0) (inPhase Phase.start)
    = .next t :=
  ran (h.2.1 0 0 0 (inPhase .start) rfl (by unfold Safety.evRoom; decide +kernel))

theorem test_loaderWritesAndChecks_3 (h : Obligations.LoaderWritesAndChecks) : ∃ t, exec (Instr.checkRecord Sect.operator 268435456 0 0) (inPhase
    Phase.start) = .next t :=
  ran (h.2.2.1 .operator 0x10000000 0 0 _ _ (inPhase .start) (by unfold Safety.loading; decide +kernel) rfl (by decide +kernel))

theorem test_loaderWritesAndChecks_4 (h : Obligations.LoaderWritesAndChecks) : ∃ t, exec (Instr.checkRecord Sect.operator 268435456 0 1) (inPhase
    Phase.start) = .next t :=
  ran (h.2.2.2 .operator 0x10000000 0 1 _ _ (inPhase .start) (by unfold Safety.loading; decide +kernel) rfl (by decide +kernel)
      (by unfold Safety.evRoom; decide +kernel))

/-! ### LoaderCollects -/

theorem test_loaderCollects_1 (h : Obligations.LoaderCollects) : ∃ t, exec (Instr.tableRecord Sect.operator 4 [0, 1] (List.replicate 8 0)) (inPhase
    Phase.start) = .next t :=
  ran (h.1 4 [0, 1] (List.replicate 8 0) (inPhase .start) (by unfold Safety.loading; decide +kernel) (by decide +kernel) (by decide +kernel))

theorem test_loaderCollects_2 (h : Obligations.LoaderCollects) : ∃ t, exec (Instr.blobRecord Sect.operator 3 0 [1, 2]) (inPhase Phase.start) = .next
    t :=
  ran (h.2.1 3 0 [1, 2] _ _ (inPhase .start) (by unfold Safety.loading; decide +kernel) (by decide +kernel) (by decide +kernel) rfl
      (by decide +kernel))

theorem test_loaderCollects_3 (h : Obligations.LoaderCollects) : ∃ t, exec (Instr.blobRecord Sect.vendor 0 256 [1, 2]) (inPhase Phase.start) = .next
    t :=
  ran (h.2.2.1 0x100 [1, 2] (inPhase .start) (by unfold Safety.loading; decide +kernel) (by decide +kernel))

theorem test_loaderCollects_4 (h : Obligations.LoaderCollects) : ∃ t, exec (Instr.blobRecord Sect.vendor 3 0 [1]) (inPhase Phase.start) = .next t :=
  ran (h.2.2.2.1 3 0 [1] (inPhase .start) rfl (by decide +kernel) (by unfold Safety.evRoom; decide +kernel))

theorem test_loaderCollects_5 (h : Obligations.LoaderCollects) : ∃ t, exec (Instr.blobRecord Sect.vendor 255 0 [1]) (inPhase Phase.start) = .next t :=
  ran (h.2.2.2.1 255 0 [1] (inPhase .start) rfl (by decide +kernel) (by unfold Safety.evRoom; decide +kernel))

theorem test_loaderCollects_6 (h : Obligations.LoaderCollects) : ∃ t, exec (Instr.mdioRecord 7 45 1 1 5 6 10) (inPhase Phase.start) = .next t :=
  ran (meet5 (h.2.2.2.2 7 1 1 5 6 10 (inPhase .start) (by unfold Safety.loading; decide +kernel)) (by decide +kernel))

/-! ### LoaderKeysAndFuses -/

theorem test_loaderKeysAndFuses_1 (h : Obligations.LoaderKeysAndFuses) : ∃ t, exec (Instr.keyslotRecord Sect.metrology
    ([4, 81, 255, 255, 1, 2, 15, 0, 4, 0, 0, 0] ++ List.replicate 8 0 ++ [1, 2, 3, 4] ++ List.replicate 104 0)) (inPhase .start) = .next t :=
  ran (meet6 (h.1 ([4, 81, 255, 255, 1, 2, 15, 0, 4, 0, 0, 0] ++ List.replicate 8 0 ++ [1, 2, 3, 4] ++ List.replicate 104 0) (inPhase .start)
      (by unfold Safety.loading; decide +kernel)) (by decide +kernel))

theorem test_loaderKeysAndFuses_2 (h : Obligations.LoaderKeysAndFuses) : ∃ t, exec (Instr.authKeyRecord ([2, 0, 0, 0] ++ idKey ++ [0, 0, 0]))
    (inPhase Phase.start) = .next t :=
  ran ((meet4 (h.2.1 ([2, 0, 0, 0] ++ idKey ++ [0, 0, 0]) (inPhase .start) rfl) (by decide +kernel)) (by unfold Safety.evRoom; decide +kernel))

theorem test_loaderKeysAndFuses_3 (h : Obligations.LoaderKeysAndFuses) : ∃ t, exec (Instr.authKeyRecord ([3, 0, 0, 0] ++ idKey ++ [0, 0, 0]))
    { inPhase .start with otp := { State.reset.otp with metroDig := [[1], [2], [3], [4]] } } = .next t :=
  ran ((meet4 (h.2.2.1 ([3, 0, 0, 0] ++ idKey ++ [0, 0, 0]) { inPhase .start with otp := { State.reset.otp with metroDig := [[1], [2], [3], [4]] } }
      rfl) (by decide +kernel)) (by unfold Safety.evRoom; decide +kernel))

theorem test_loaderKeysAndFuses_4 (h : Obligations.LoaderKeysAndFuses) : ∃ t, exec (Instr.lifecycleRecord [2, 0, 0, 0])
    { ((inPhase .start).sf Rg.IMG_LIFECYCLE Fl.IMG_LIFECYCLE_STATE 1) with otp := { State.reset.otp with lifecycle := 1 } } = .next t :=
  ran ((meet6 (h.2.2.2.1 [2, 0, 0, 0]
      { ((inPhase .start).sf Rg.IMG_LIFECYCLE Fl.IMG_LIFECYCLE_STATE 1) with otp := { State.reset.otp with lifecycle := 1 } } rfl)
      (by decide +kernel)) (by unfold Safety.evRoom; decide +kernel))

theorem test_loaderKeysAndFuses_5 (h : Obligations.LoaderKeysAndFuses) : ∃ t, exec (Instr.dualRecord Sect.operator ([17, 0, 0, 68, 2, 0, 0, 0] ++
    idKey ++ [0, 0, 0] ++ idSig ++ idSig)) (withIdKeys (inPhase Phase.start)) = .next t :=
  ran ((meet5 (meet8 (h.2.2.2.2.1 ([0x11, 0, 0, 0x44, 2, 0, 0, 0] ++ idKey ++ [0, 0, 0]) idSig idSig (withIdKeys (inPhase .start)) rfl)
      (by decide +kernel)) (by decide +kernel)) (by unfold Safety.evRoom; decide +kernel))

theorem test_loaderKeysAndFuses_6 (h : Obligations.LoaderKeysAndFuses) : ∃ t, exec (Instr.dualRecord Sect.vendor []) (inPhase Phase.start) = .next t
    :=
  ran (h.2.2.2.2.2 [] (inPhase .start) rfl (by unfold Safety.evRoom; decide +kernel))

/-! ### SectionsEnd -/

theorem test_sectionsEnd_1 (h : Obligations.SectionsEnd) : ∃ t, exec (Instr.endRecord Sect.vendor) (inPhase Phase.start) = .next t :=
  ran (h.1 (inPhase .start) (by unfold Safety.loading; decide +kernel))

theorem test_sectionsEnd_2 (h : Obligations.SectionsEnd) : ∃ t, exec (Instr.endRecord Sect.operator) ((inPhase .start).setLdr (fun l =>
    { l with mdio := [⟨4, 45, 1, 1, 0, 0, 10⟩] })) = .next t :=
  ran (h.2.1 ⟨4, 45, 1, 1, 0, 0, 10⟩ ((inPhase .start).setLdr (fun l => { l with mdio := [⟨4, 45, 1, 1, 0, 0, 10⟩] })) rfl rfl rfl
      (by decide +kernel))

theorem test_sectionsEnd_3 (h : Obligations.SectionsEnd) : ∃ t, exec (Instr.endRecord Sect.operator) (seedS tblE) = .next t :=
  ran (((meet8 (h.2.2.1 1 0 tblE (seedS tblE) (by unfold Safety.loading; decide +kernel)) (by decide +kernel)) rfl (by decide +kernel)).1
      (by decide +kernel))

theorem test_sectionsEnd_4 (h : Obligations.SectionsEnd) : ∃ t, exec (Instr.endRecord Sect.operator) (fillS tblE) = .next t :=
  ran (((meet8 (h.2.2.1 1 0 tblE (fillS tblE) (by unfold Safety.loading; decide +kernel)) (by decide +kernel)) rfl (by decide +kernel)).2
      (by decide +kernel) (by decide +kernel))

theorem test_sectionsEnd_5 (h : Obligations.SectionsEnd) : ∃ t, exec (Instr.endRecord Sect.operator) ((inPhase .start).setLdr (fun l =>
    { l with entries := [(3, [])] })) = .next t :=
  ran ((meet3 (h.2.2.2.1 3 [] ((inPhase .start).setLdr (fun l => { l with entries := [(3, [])] })) rfl) (by decide +kernel)) rfl
      (by unfold Safety.evRoom; decide +kernel))

theorem test_sectionsEnd_6 (h : Obligations.SectionsEnd) : ∃ t, exec (Instr.endRecord Sect.metrology) (metroS) = .next t :=
  ran (h.2.2.2.2.1 metroS (by unfold Safety.loading; decide +kernel) (by decide +kernel))

theorem test_sectionsEnd_7 (h : Obligations.SectionsEnd) : ∃ t, exec (Instr.endRecord Sect.metrology) ((inPhase Phase.start).wr Rg.SEAL_TIMING 0) =
    .next t :=
  ran (h.2.2.2.2.2 ((inPhase .start).wr Rg.SEAL_TIMING 0) rfl (by decide +kernel) (by unfold Safety.evRoom; decide +kernel))

/-! ### ImageLoadsAndLocks -/

theorem test_imageLoadsAndLocks_1 (h : Obligations.ImageLoadsAndLocks) : ∃ t, exec (Instr.loadSlot) (inPhase Phase.start) = .next t :=
  ran (h.1 (inPhase .start) rfl (by decide +kernel))

theorem test_imageLoadsAndLocks_2 (h : Obligations.ImageLoadsAndLocks) : ∃ t, exec (Instr.loadSlot) (badS 3) = .next t :=
  ran (h.1 (badS 3) rfl (by decide +kernel))

theorem test_imageLoadsAndLocks_3 (h : Obligations.ImageLoadsAndLocks) : ∃ t, exec (Instr.loadSlot) (imgS) = .next t :=
  ran (h.2.1 imgS rfl rfl (by decide +kernel) (by decide +kernel))

theorem test_imageLoadsAndLocks_4 (h : Obligations.ImageLoadsAndLocks) : ∃ t, exec (Instr.loadSlot) (badS 2) = .next t :=
  ran (meet3 (h.2.1 (badS 2) rfl) (by decide +kernel))

theorem test_imageLoadsAndLocks_5 (h : Obligations.ImageLoadsAndLocks) : ∃ t, exec (Instr.sealedRegisterLock) ((inPhase .start).setLdr (fun l =>
    { l with checked := true })) = .next t :=
  ran (h.2.2.1 ((inPhase .start).setLdr (fun l => { l with checked := true })) rfl rfl)

theorem test_imageLoadsAndLocks_6 (h : Obligations.ImageLoadsAndLocks) : ∃ t, exec (Instr.sealedRegisterLock) ((inPhase .start).setLdr (fun l =>
    { l with entries := [(4, List.replicate 10 0), (4, List.replicate 10 0)] })) = .next t :=
  ran (h.2.2.2 0x0B ((inPhase .start).setLdr (fun l => { l with entries := [(4, List.replicate 10 0), (4, List.replicate 10 0)] })) rfl rfl rfl
      (by decide +kernel) (by unfold Safety.evRoom; decide +kernel))

/-! ### TokensAndFloor -/

theorem test_tokensAndFloor_1 (h : Obligations.TokensAndFloor) : ∃ t, exec (Instr.debugToken ([68, 66, 71, 85] ++ State.reset.otp.uid ++
    List.replicate 8 0 ++ idSig ++ idSig)) (withIdKeys (runS.sf Rg.IMG_LIFECYCLE Fl.IMG_LIFECYCLE_STATE 1)) = .next t :=
  ran ((meet3 (h.1 ([0x44, 0x42, 0x47, 0x55] ++ State.reset.otp.uid ++ List.replicate 8 0 ++ idSig ++ idSig) (withIdKeys (runS.sf Rg.IMG_LIFECYCLE
      Fl.IMG_LIFECYCLE_STATE 1))) (by decide +kernel)) (by unfold Safety.evRoom; decide +kernel))

theorem test_tokensAndFloor_2 (h : Obligations.TokensAndFloor) : ∃ t, exec (Instr.debugToken []) (runS) = .next t :=
  ran (h.2.1 [] runS (by decide +kernel) (by decide +kernel) (by unfold Safety.evRoom; decide +kernel))

theorem test_tokensAndFloor_3 (h : Obligations.TokensAndFloor) : ∃ t, exec (Instr.imgEpochCommit 1) (runS.sf Rg.IMG_ROLLBACK Fl.IMG_ROLLBACK_EPOCH 5)
    = .next t :=
  ran ((meet3 (h.2.2.1 1 (runS.sf Rg.IMG_ROLLBACK Fl.IMG_ROLLBACK_EPOCH 5)) (by decide +kernel)) (by unfold Safety.evRoom; decide +kernel))

theorem test_tokensAndFloor_4 (h : Obligations.TokensAndFloor) : ∃ t, exec (Instr.imgEpochCommit 1) (runS) = .next t :=
  ran (h.2.2.2 1 runS (by decide +kernel) (by decide +kernel))

/-! ### StagingWritesTheOtherSlot -/

theorem test_stagingWritesTheOtherSlot_1 (h : Obligations.StagingWritesTheOtherSlot) : ∃ t, exec (Instr.stageErase 0) (runS) = .next t :=
  ran (h.1 0 runS (by decide +kernel) rfl (by decide +kernel))

theorem test_stagingWritesTheOtherSlot_2 (h : Obligations.StagingWritesTheOtherSlot) : ∃ t, exec (Instr.stageProgram 0) (runS) = .next t :=
  ran (h.2.1 0 runS (by decide +kernel) rfl (by decide +kernel))

theorem test_stagingWritesTheOtherSlot_3 (h : Obligations.StagingWritesTheOtherSlot) : ∃ t, exec (Instr.stageCheck 0) (runS) = .next t :=
  ran (h.2.2.1 0 runS (by decide +kernel) rfl)

theorem test_stagingWritesTheOtherSlot_4 (h : Obligations.StagingWritesTheOtherSlot) : ∃ t, exec (Instr.stageErase 0)
    { runS with stg := some ⟨2, 1, 0, [], none, none⟩ } = .next t :=
  ran (h.2.2.2.1 0 { runS with stg := some ⟨2, 1, 0, [], none, none⟩ } (by decide +kernel) (by decide +kernel) (.stageErase 0) (by decide +kernel))

theorem test_stagingWritesTheOtherSlot_5 (h : Obligations.StagingWritesTheOtherSlot) : ∃ t, exec (Instr.stageProgram 0)
    { runS with stg := some ⟨2, 1, 0, [], none, none⟩ } = .next t :=
  ran (h.2.2.2.1 0 { runS with stg := some ⟨2, 1, 0, [], none, none⟩ } (by decide +kernel) (by decide +kernel) (.stageProgram 0) (by decide +kernel))

theorem test_stagingWritesTheOtherSlot_6 (h : Obligations.StagingWritesTheOtherSlot) : ∃ t, exec (Instr.stageCheck 0)
    { runS with stg := some ⟨2, 1, 0, [], none, none⟩ } = .next t :=
  ran (h.2.2.2.1 0 { runS with stg := some ⟨2, 1, 0, [], none, none⟩ } (by decide +kernel) (by decide +kernel) (.stageCheck 0) (by decide +kernel))

theorem test_stagingWritesTheOtherSlot_7 (h : Obligations.StagingWritesTheOtherSlot) : ∃ t, exec (Instr.stageOpComplete true)
    { runS with stg := some ⟨1, 1, 0, [], none, none⟩ } = .next t :=
  ran (h.2.2.2.2.1 1 0 [] { runS with stg := some ⟨1, 1, 0, [], none, none⟩ } rfl)

theorem test_stagingWritesTheOtherSlot_8 (h : Obligations.StagingWritesTheOtherSlot) : ∃ t, exec (Instr.stageOpComplete true)
    { runS with stg := some ⟨2, 1, 0, [1, 2, 3], none, none⟩ } = .next t :=
  ran (h.2.2.2.2.2.1 1 0 [1, 2, 3] { runS with stg := some ⟨2, 1, 0, [1, 2, 3], none, none⟩ } rfl (by decide +kernel))

theorem test_stagingWritesTheOtherSlot_9 (h : Obligations.StagingWritesTheOtherSlot) : ∃ t, exec (Instr.stageOpComplete false)
    { runS with stg := some ⟨3, 1, 0, [], none, none⟩ } = .next t :=
  ran (h.2.2.2.2.2.2.1 1 0 [] { runS with stg := some ⟨3, 1, 0, [], none, none⟩ } (by decide +kernel) (by decide +kernel)
      (by unfold Safety.evRoom; decide +kernel))

theorem test_stagingWritesTheOtherSlot_10 (h : Obligations.StagingWritesTheOtherSlot) : ∃ t, exec (Instr.stageOpComplete true)
    { runS.sf Rg.SEAL_STATUS Fl.SEAL_STATUS_SIGNING 1 with stg := some ⟨3, 1, 0, [], none, none⟩ } = .next t :=
  ran (h.2.2.2.2.2.2.2.1 1 0 [] true { runS.sf Rg.SEAL_STATUS Fl.SEAL_STATUS_SIGNING 1 with stg := some ⟨3, 1, 0, [], none, none⟩ } rfl
      (by decide +kernel))

theorem test_stagingWritesTheOtherSlot_11 (h : Obligations.StagingWritesTheOtherSlot) : ∃ t, exec (Instr.recoveryStage 0 2 (recFrame [0, 0])) (recS)
    = .next t :=
  ran ((meet5 (h.2.2.2.2.2.2.2.2.1 0 2 (recFrame [0, 0]) ⟨38, _, _⟩ recS) (by decide +kernel)) rfl (by decide +kernel) (by decide +kernel))

theorem test_stagingWritesTheOtherSlot_12 (h : Obligations.StagingWritesTheOtherSlot) : ∃ t, exec (Instr.recoveryStage 0 2 (recFrame [22, 0])) (recS)
    = .next t :=
  ran ((meet8 ((meet5 (h.2.2.2.2.2.2.2.2.2 0 2 (recFrame [0x16, 0]) ⟨38, _, _⟩ recS) (by decide +kernel)) rfl) (by decide +kernel))
      (by decide +kernel) rfl)

/-! ### EthernetLinkFollowsLock -/

theorem test_ethernetLinkFollowsLock_1 (h : Obligations.EthernetLinkFollowsLock) : ∃ t, exec (Instr.signalDetect 5 3) (ethS) = .next t :=
  ran (meet4 (h.1 5 3 ethS) (by decide +kernel))

theorem test_ethernetLinkFollowsLock_2 (h : Obligations.EthernetLinkFollowsLock) : ∃ t, exec (Instr.adaptFreeze 3 4 5) (sigS true) = .next t :=
  ran (h.2.1 3 4 5 0 (sigS true) (by decide +kernel) (by decide +kernel))

theorem test_ethernetLinkFollowsLock_3 (h : Obligations.EthernetLinkFollowsLock) : ∃ t, exec (Instr.adaptRetry 3) (sigS true) = .next t :=
  ran ((meet3 (h.2.2.1 3 0 (sigS true)) (by decide +kernel)) (by unfold Safety.evRoom; decide +kernel))

theorem test_ethernetLinkFollowsLock_4 (h : Obligations.EthernetLinkFollowsLock) : ∃ t, exec (Instr.pcsLockAcquired 5 { p := 3, fec := 0 }) (sigS
    false) = .next t :=
  ran (meet3 (h.2.2.2.1 5 3 0 (sigS false)) (by decide +kernel))

theorem test_ethernetLinkFollowsLock_5 (h : Obligations.EthernetLinkFollowsLock) : ∃ t, exec (Instr.pcsLockAcquired 5 { p := 3, fec := 2 }) (sigS
    false) = .next t :=
  ran (h.2.2.2.2.1 5 3 2 (sigS false) (by decide +kernel))

theorem test_ethernetLinkFollowsLock_6 (h : Obligations.EthernetLinkFollowsLock) : ∃ t, exec (Instr.ethLinkUp 3) (ethS.setEthP 3
    { ethInit with lockAt := some 0 }) = .next t :=
  ran ((meet4 (h.2.2.2.2.2.1 3 0 (ethS.setEthP 3 { ethInit with lockAt := some 0 })) (by decide +kernel)) (by unfold Safety.evRoom; decide +kernel))

theorem test_ethernetLinkFollowsLock_7 (h : Obligations.EthernetLinkFollowsLock) : ∃ t, exec (Instr.ethLinkDown 5 3
    { cause := LinkCause.hiBer, rx := none }) (upS) = .next t :=
  ran (h.2.2.2.2.2.2.1 5 3 .hiBer none upS (by decide +kernel) (by decide +kernel) (by unfold Safety.evRoom; decide +kernel))

theorem test_ethernetLinkFollowsLock_8 (h : Obligations.EthernetLinkFollowsLock) : ∃ t, exec (Instr.ethLinkDown 5 3
    { cause := LinkCause.hiBer, rx := some [1, 2, 3] }) (upS) = .next t :=
  ran (h.2.2.2.2.2.2.1 5 3 .hiBer (some [1, 2, 3]) upS (by decide +kernel) (by decide +kernel) (by unfold Safety.evRoom; decide +kernel))

theorem test_ethernetLinkFollowsLock_9 (h : Obligations.EthernetLinkFollowsLock) : ∃ t, exec (Instr.ethLinkDown 5 3
    { cause := LinkCause.hiBer, rx := none }) (ethS.setEthP 3 { ethInit with signalAt := some 0, lockAt := some 0 }) = .next t :=
  ran (h.2.2.2.2.2.2.2.1 5 3 .hiBer (ethS.setEthP 3 { ethInit with signalAt := some 0, lockAt := some 0 }) (by decide +kernel) (by decide +kernel))

theorem test_ethernetLinkFollowsLock_10 (h : Obligations.EthernetLinkFollowsLock) : ∃ t, exec (Instr.ethLinkDown 5 23
    { cause := LinkCause.hiBer, rx := none }) (upS) = .next t :=
  ran (h.2.2.2.2.2.2.2.2 5 23 .hiBer none upS (by decide +kernel))

/-! ### EthernetReceives -/

theorem test_ethernetReceives_1 (h : Obligations.EthernetReceives) : ∃ t, exec (Instr.ethFrameReceive 5 3
    { data := List.replicate 60 7, fcs := Fcs.good, symErr := false, corr := 0, uncorr := 0 }) (upS) = .next t :=
  ran (meet7 (h.1 5 3 ⟨List.replicate 60 7, .good, false, 0, 0⟩ upS) (by decide +kernel))

theorem test_ethernetReceives_2 (h : Obligations.EthernetReceives) : ∃ t, exec (Instr.ethFrameReceive 5 3
    { data := List.replicate 59 7, fcs := Fcs.good, symErr := false, corr := 0, uncorr := 0 }) (upS) = .next t :=
  ran (meet4 (h.2.1 5 3 ⟨List.replicate 59 7, .good, false, 0, 0⟩ upS) (by decide +kernel))

theorem test_ethernetReceives_3 (h : Obligations.EthernetReceives) : ∃ t, exec (Instr.ethFrameReceive 5 3
    { data := List.replicate 59 7, fcs := Fcs.good, symErr := false, corr := 0, uncorr := 0 }) (ethS) = .next t :=
  ran (h.2.2.1 5 3 ⟨List.replicate 59 7, .good, false, 0, 0⟩ ethS (by decide +kernel))

theorem test_ethernetReceives_4 (h : Obligations.EthernetReceives) : ∃ t, exec (Instr.pauseReceive 5 3 10) (upS.sf (Rg.ETH_FC_CFG 3)
    Fl.ETH_FC_CFG_PAUSE_EN 1) = .next t :=
  ran (meet6 (h.2.2.2.1 5 3 10 (upS.sf (Rg.ETH_FC_CFG 3) Fl.ETH_FC_CFG_PAUSE_EN 1)) (by decide +kernel))

theorem test_ethernetReceives_5 (h : Obligations.EthernetReceives) : ∃ t, exec (Instr.pfcReceive 5 3 255 (List.replicate 8 9)) (upS.wr (Rg.ETH_FC_CFG
    3) 65535) = .next t :=
  ran (meet7 (h.2.2.2.2 5 3 0xFF (List.replicate 8 9) 7 (upS.wr (Rg.ETH_FC_CFG 3) 0xFFFF)) (by decide +kernel))

/-! ### PauseUnderrunMdio -/

theorem test_pauseUnderrunMdio_1 (h : Obligations.PauseUnderrunMdio) : ∃ t, exec (Instr.pauseExpiry 3 (some 2)) (upS.setEthP 3
    { ethInit with pauseEnd := [(2, 50)] }) = .next t :=
  ran (h.1 3 (some 2) (upS.setEthP 3 { ethInit with pauseEnd := [(2, 50)] }) (by decide +kernel))

theorem test_pauseUnderrunMdio_2 (h : Obligations.PauseUnderrunMdio) : ∃ t, exec (Instr.pauseWdogTrip 3 none) ((upS.sf (Rg.ETH_PAUSE_WDOG 3)
    Fl.ETH_PAUSE_WDOG_HOOPS 2).setEthP 3 { ethInit with wdogCnt := [(8, 2)] }) = .next t :=
  ran ((meet3 (h.2.1 3 none ((upS.sf (Rg.ETH_PAUSE_WDOG 3) Fl.ETH_PAUSE_WDOG_HOOPS 2).setEthP 3 { ethInit with wdogCnt := [(8, 2)] }))
      (by decide +kernel)) (by unfold Safety.evRoom; decide +kernel))

theorem test_pauseUnderrunMdio_3 (h : Obligations.PauseUnderrunMdio) : ∃ t, exec (Instr.pauseIgnoreEnd 3 none) (upS.setEthP 3
    { ethInit with ignLeft := [(8, 1)] }) = .next t :=
  ran (h.2.2.1 3 none (upS.setEthP 3 { ethInit with ignLeft := [(8, 1)] }) (by decide +kernel))

theorem test_pauseUnderrunMdio_4 (h : Obligations.PauseUnderrunMdio) : ∃ t, exec (Instr.txUnderrun 5 3) (sendingOn 3 { data := [], ct := true }) =
    .next t :=
  ran (meet6 (h.2.2.2.1 5 3 (sendF 3 { data := [], ct := true } false) (sendingOn 3 { data := [], ct := true }) rfl) (by decide +kernel))

theorem test_pauseUnderrunMdio_5 (h : Obligations.PauseUnderrunMdio) : ∃ t, exec (Instr.mdioRead 5 3 2147483648) (runS) = .next t :=
  ran (meet3 (h.2.2.2.2.1 5 3 0x80000000 runS) (by decide +kernel))

theorem test_pauseUnderrunMdio_6 (h : Obligations.PauseUnderrunMdio) : ∃ t, exec (Instr.mdioReadDone 5 3 7) { runS with mdioQ := [3] } = .next t :=
  ran (h.2.2.2.2.2 5 3 7 [] { runS with mdioQ := [3] } rfl)

/-! ### CanReceives -/

theorem test_canReceives_1 (h : Obligations.CanReceives) : ∃ t, exec (Instr.canMessageReceive 5 0 msg) (filtS 0) = .next t :=
  ran ((meet8 (h.1 5 0 msg 0 (filtS 0)) (by decide +kernel)).1 (by decide +kernel) (by decide +kernel))

theorem test_canReceives_2 (h : Obligations.CanReceives) : ∃ t, exec (Instr.canMessageReceive 5 0 msg) (filtS 1) = .next t :=
  ran (meet3 (meet8 (h.1 5 0 msg 0 (filtS 1)) (by decide +kernel)).2.1 (by decide +kernel))

theorem test_canReceives_3 (h : Obligations.CanReceives) : ∃ t, exec (Instr.canMessageReceive 5 0 msg) (filtAt 7 5) = .next t :=
  ran (meet4 ((meet8 (h.1 5 0 msg 7 (filtAt 7 5)) (by decide +kernel)).2.2 3) (by decide +kernel))

theorem test_canReceives_4 (h : Obligations.CanReceives) : ∃ t, exec (Instr.canMessageReceive 5 0 msg) (canS) = .next t :=
  ran (meet6 (h.2.1 5 0 msg canS) (by decide +kernel))

theorem test_canReceives_5 (h : Obligations.CanReceives) : ∃ t, exec (Instr.canProtocolException 5 0 CanFmt.fd) (canS) = .next t :=
  ran (meet5 (h.2.2.1 5 0 .fd canS) (by decide +kernel))

theorem test_canReceives_6 (h : Obligations.CanReceives) : ∃ t, exec (Instr.canBusIdle 5 0) (canS.sf (Rg.CAN_STATUS 32) Fl.CAN_STATUS_STATE 3) =
    .next t :=
  ran (h.2.2.2 5 0 (canS.sf (Rg.CAN_STATUS 32) Fl.CAN_STATUS_STATE 3) (by decide +kernel) (by decide +kernel))

theorem test_canReceives_7 (h : Obligations.CanReceives) : ∃ t, exec (Instr.canBusIdle 5 0) (canS.sf (Rg.CAN_STATUS 32) Fl.CAN_STATUS_STATE 2) =
    .next t :=
  ran (h.2.2.2 5 0 (canS.sf (Rg.CAN_STATUS 32) Fl.CAN_STATUS_STATE 2) (by decide +kernel) (by decide +kernel))

/-! ### CanBuffers -/

theorem test_canBuffers_1 (h : Obligations.CanBuffers) : ∃ t, exec (Instr.canMfifoPop 0 1) (canS.setCanP 32 { canInit with mfifo := [[1], [2]] }) =
    .next t :=
  ran ((h.1 0 1 (canS.setCanP 32 { canInit with mfifo := [[1], [2]] }) (by decide +kernel) (by decide +kernel)).1 (by decide +kernel))

theorem test_canBuffers_2 (h : Obligations.CanBuffers) : ∃ t, exec (Instr.canMfifoPop 0 1)
    { canS.setCanP 32 { canInit with mfifo := List.replicate 64 [1] } with cyc := { cycInit with mfWait := [(0, 5, [3])] } } = .next t :=
  ran ((h.1 0 1 { canS.setCanP 32 { canInit with mfifo := List.replicate 64 [1] } with cyc := { cycInit with mfWait := [(0, 5, [3])] } }
      (by decide +kernel) (by decide +kernel)).2 5 [3] rfl (by decide +kernel))

theorem test_canBuffers_3 (h : Obligations.CanBuffers) : ∃ t, exec (Instr.prioBufRead 0 3) (canS) = .next t :=
  ran (h.2.1 0 3 canS (by decide +kernel))

theorem test_canBuffers_4 (h : Obligations.CanBuffers) : ∃ t, exec (Instr.prioRelease 0 3 8) (canS) = .next t :=
  ran (meet3 (h.2.2.1 0 3 8 canS) (by decide +kernel))

theorem test_canBuffers_5 (h : Obligations.CanBuffers) : ∃ t, exec (Instr.prioRelease 0 3 8)
    { canS.sf (Rg.CAN_PRIO_CTRL 32 3) Fl.CAN_PRIO_CTRL_NEW 1 with cyc := { cycInit with prioIn := [(0, 3)] } } = .next t :=
  ran (meet3 (h.2.2.1 0 3 8 { canS.sf (Rg.CAN_PRIO_CTRL 32 3) Fl.CAN_PRIO_CTRL_NEW 1 with cyc := { cycInit with prioIn := [(0, 3)] } })
      (by decide +kernel))

theorem test_canBuffers_6 (h : Obligations.CanBuffers) : ∃ t, exec (Instr.prioRelease 0 3 8) ((canS.sf (Rg.CAN_PRIO_CTRL 32 3)
    Fl.CAN_PRIO_CTRL_SHADOW_FULL 1).setCanP 32 { canInit with shadow := [(3, List.replicate 80 6)] }) = .next t :=
  ran (meet4 (h.2.2.2.1 0 3 8 ((canS.sf (Rg.CAN_PRIO_CTRL 32 3) Fl.CAN_PRIO_CTRL_SHADOW_FULL 1).setCanP 32
      { canInit with shadow := [(3, List.replicate 80 6)] })) (by decide +kernel))

theorem test_canBuffers_7 (h : Obligations.CanBuffers) : ∃ t, exec (Instr.canMtxLoad 5 0 5) (mtxS 0) = .next t :=
  ran (meet5 (h.2.2.2.2.1 5 0 5 (mtxS 0)) (by decide +kernel))

theorem test_canBuffers_8 (h : Obligations.CanBuffers) : ∃ t, exec (Instr.canMtxCancel 5 0 5) (mtxS 1) = .next t :=
  ran (h.2.2.2.2.2.1 5 0 5 (mtxS 1) (by decide +kernel) (by decide +kernel))

theorem test_canBuffers_9 (h : Obligations.CanBuffers) : ∃ t, exec (Instr.canMtxCancel 5 0 5) (mtxS 2) = .next t :=
  ran (h.2.2.2.2.2.2 5 0 5 (mtxS 2) (by decide +kernel) (by decide +kernel))

/-! ### CanSends -/

theorem test_canSends_1 (h : Obligations.CanSends) : ∃ t, exec (Instr.canTxbufLoad 5 0 2) { canS with outQ := [canF] } = .next t :=
  ran (meet5 ((meet5 (h.1 5 0 2 canF { canS with outQ := [canF] }) (by decide +kernel)) rfl) (by decide +kernel))

theorem test_canSends_2 (h : Obligations.CanSends) : ∃ t, exec (Instr.canTxCommit 5 0) (txbS canF none) = .next t :=
  ran (meet6 (h.2.1 5 0 2 (txbS canF none)) (by decide +kernel))

theorem test_canSends_3 (h : Obligations.CanSends) : ∃ t, exec (Instr.canArbLost 5 0) (txbS canF (some 2)) = .next t :=
  ran (meet3 (h.2.2.1 5 0 2 (txbS canF (some 2))) (by decide +kernel))

theorem test_canSends_4 (h : Obligations.CanSends) : ∃ t, exec (Instr.canTxComplete 5 0) (txbS canF (some 2)) = .next t :=
  ran (h.2.2.2.1 5 0 2 ⟨canF, false, false⟩ (txbS canF (some 2)) (by decide +kernel) (by decide +kernel) rfl)

theorem test_canSends_5 (h : Obligations.CanSends) : ∃ t, exec (Instr.canTxWindowExpire 0 2) (txbS { canF with launchV := true } none) = .next t :=
  ran (meet6 (h.2.2.2.2 0 2 ⟨{ canF with launchV := true }, false, false⟩ (txbS { canF with launchV := true } none) rfl) (by decide +kernel))

/-! ### CanErrorsAndBusOff -/

theorem test_canErrorsAndBusOff_1 (h : Obligations.CanErrorsAndBusOff) : ∃ t, exec (Instr.canError 5 0
    { kind := CanErr.crc, place := CanErrAt.message, edge := false } false true) (canS) = .next t :=
  ran (meet4 (h.1 5 0 .crc .message false true canS) (by decide +kernel))

theorem test_canErrorsAndBusOff_2 (h : Obligations.CanErrorsAndBusOff) : ∃ t, exec (Instr.canError 5 0
    { kind := CanErr.bit, place := CanErrAt.flag, edge := false } false true) (canS) = .next t :=
  ran (meet4 (h.1 5 0 .bit .flag false true canS) (by decide +kernel))

theorem test_canErrorsAndBusOff_3 (h : Obligations.CanErrorsAndBusOff) : ∃ t, exec (Instr.canError 5 0
    { kind := CanErr.bit, place := CanErrAt.message, edge := true } true false) ((txbS canF (some 2)).sf (Rg.CAN_STATUS 32) Fl.CAN_STATUS_TEC 250) =
    .next t :=
  ran ((meet7 (h.2.1 5 0 .bit .message true false 2 ((txbS canF (some 2)).sf (Rg.CAN_STATUS 32) Fl.CAN_STATUS_TEC 250)) (by decide +kernel))
      (by simp) (by decide +kernel))

theorem test_canErrorsAndBusOff_4 (h : Obligations.CanErrorsAndBusOff) : ∃ t, exec (Instr.canRecover 5 0 1) (canS.sf (Rg.CAN_STATUS 32)
    Fl.CAN_STATUS_STATE 2) = .next t :=
  ran (meet3 (h.2.2.1 5 0 1 (canS.sf (Rg.CAN_STATUS 32) Fl.CAN_STATUS_STATE 2)) (by decide +kernel))

theorem test_canErrorsAndBusOff_5 (h : Obligations.CanErrorsAndBusOff) : ∃ t, exec (Instr.canRecover 5 0 1) (canS) = .next t :=
  ran ((meet3 (h.2.2.2.1 5 0 1 canS) (by decide +kernel)) (by unfold Safety.evRoom; decide +kernel))

theorem test_canErrorsAndBusOff_6 (h : Obligations.CanErrorsAndBusOff) : ∃ t, exec (Instr.canBusRecovered 5 0) ((canS.sf (Rg.CAN_STATUS 32)
    Fl.CAN_STATUS_STATE 3).setCanP 32 { canInit with recov := 128 }) = .next t :=
  ran (h.2.2.2.2 5 0 ((canS.sf (Rg.CAN_STATUS 32) Fl.CAN_STATUS_STATE 3).setCanP 32 { canInit with recov := 128 }) (by decide +kernel)
      (by decide +kernel) (by unfold Safety.evRoom; decide +kernel))

/-! ### T1sPorts -/

theorem test_t1sPorts_1 (h : Obligations.T1sPorts) : ∃ t, exec (Instr.t1sFrameReceive 5 0
    { data := List.replicate 60 7, fcs := Fcs.good, symErr := false, corr := 0, uncorr := 0 }) ((t1S 0).wr64 (Rg.T1S_MEMBER 24 3) (0x070707070707 + 2
    ^ 48)) = .next t :=
  ran ((meet4 (h.1 5 0 ⟨List.replicate 60 7, .good, false, 0, 0⟩ ((t1S 0).wr64 (Rg.T1S_MEMBER 24 3) (0x070707070707 + 2 ^ 48)))
      (by decide +kernel)).1 (by decide +kernel))

theorem test_t1sPorts_2 (h : Obligations.T1sPorts) : ∃ t, exec (Instr.t1sFrameReceive 5 0
    { data := List.replicate 60 7, fcs := Fcs.good, symErr := false, corr := 0, uncorr := 0 }) (t1S 0) = .next t :=
  ran ((meet4 (h.1 5 0 ⟨List.replicate 60 7, .good, false, 0, 0⟩ (t1S 0)) (by decide +kernel)).2 (by decide +kernel) (by decide +kernel))

theorem test_t1sPorts_3 (h : Obligations.T1sPorts) : ∃ t, exec (Instr.t1sFrameReceive 5 0
    { data := List.replicate 59 7, fcs := Fcs.good, symErr := false, corr := 0, uncorr := 0 }) (t1S 0) = .next t :=
  ran (meet4 (h.2.1 5 0 ⟨List.replicate 59 7, .good, false, 0, 0⟩ 15 (t1S 0)) (by decide +kernel))

theorem test_t1sPorts_4 (h : Obligations.T1sPorts) : ∃ t, exec (Instr.t1sPlcaFallback 5 0) (t1S 0) = .next t :=
  ran ((meet3 (h.2.2.1 5 0 (t1S 0)) (by decide +kernel)) (by unfold Safety.evRoom; decide +kernel))

theorem test_t1sPorts_5 (h : Obligations.T1sPorts) : ∃ t, exec (Instr.t1sPlcaRestored 5 0) (t1S 1) = .next t :=
  ran (h.2.2.2.1 5 0 (t1S 1) (by decide +kernel) (by decide +kernel) (by unfold Safety.evRoom; decide +kernel))

theorem test_t1sPorts_6 (h : Obligations.T1sPorts) : ∃ t, exec (Instr.t1sPlcaCollision 5 0) (t1S 0) = .next t :=
  ran (h.2.2.2.2.1 5 0 (t1S 0) (by decide +kernel) (by decide +kernel) (by unfold Safety.evRoom; decide +kernel))

theorem test_t1sPorts_7 (h : Obligations.T1sPorts) : ∃ t, exec (Instr.csmaCollision 5 0) { t1S 1 with sending := [sendF 24 { data := [] } false] } =
    .next t :=
  ran ((h.2.2.2.2.2.1 5 0 (sendF 24 { data := [] } false) { t1S 1 with sending := [sendF 24 { data := [] } false] } (by decide +kernel)
      (by decide +kernel) rfl (by decide +kernel)).1 (by decide +kernel))

theorem test_t1sPorts_8 (h : Obligations.T1sPorts) : ∃ t, exec (Instr.csmaCollision 5 0)
    ({ t1S 1 with sending := [sendF 24 { data := [] } false] }.setT1sP 24 { t1sInit with attempts := 15 }) = .next t :=
  ran ((h.2.2.2.2.2.1 5 0 (sendF 24 { data := [] } false) ({ t1S 1 with sending := [sendF 24 { data := [] } false] }.setT1sP 24
      { t1sInit with attempts := 15 }) (by decide +kernel) (by decide +kernel) rfl (by decide +kernel)).2 (by decide +kernel))

theorem test_t1sPorts_9 (h : Obligations.T1sPorts) : ∃ t, exec (Instr.t1sTxOpportunity 5 0)
    { t1S 0 with outQ := [{ data := List.replicate 20 7, egress := 24, cls := 7 }] } = .next t :=
  ran (meet4 (meet8 ((meet6 (h.2.2.2.2.2.2.1 5 0 { data := List.replicate 20 7, egress := 24, cls := 7 }
      { t1S 0 with outQ := [{ data := List.replicate 20 7, egress := 24, cls := 7 }] }) (by decide +kernel)) rfl) (by decide +kernel))
      (by decide +kernel))

theorem test_t1sPorts_10 (h : Obligations.T1sPorts) : ∃ t, exec (Instr.t1sTxOpportunity 5 0) ((t1S 0).setT1sP 24
    { t1sInit with retry := some (sendF 24 { data := [] } false) }) = .next t :=
  ran (meet7 (h.2.2.2.2.2.2.2 5 0 (sendF 24 { data := [] } false) ((t1S 0).setT1sP 24
      { t1sInit with retry := some (sendF 24 { data := [] } false) })) (by decide +kernel))

/-! ### FramesAreParsed -/

theorem test_framesAreParsed_1 (h : Obligations.FramesAreParsed) : ∃ t, exec (Instr.frameParse) (oneFrame (parseS [128])) = .next t :=
  ran ((meet8 ((meet4 (h fr0 [] (oneFrame (parseS [0x80])) rfl) (by decide +kernel)) (by unfold Safety.sound; decide +kernel)).1 (by decide +kernel))
      (by decide +kernel) (by decide +kernel))

theorem test_framesAreParsed_2 (h : Obligations.FramesAreParsed) : ∃ t, exec (Instr.frameParse)
    { parseS [0x80, 4] with rxQ := [{ fr0 with data := zeros 60 }] } = .next t :=
  ran (((meet4 (h { fr0 with data := zeros 60 } [] { parseS [0x80, 4] with rxQ := [{ fr0 with data := zeros 60 }] } rfl) (by decide +kernel))
      (by unfold Safety.sound; decide +kernel)).2.1 (by decide +kernel) (by decide +kernel))

theorem test_framesAreParsed_3 (h : Obligations.FramesAreParsed) : ∃ t, exec (Instr.frameParse) (oneFrame ((parseS [192]).setRam (Mm.parse + 21)
    [2])) = .next t :=
  ran (meet6 (((meet4 (h fr0 [] (oneFrame ((parseS [0xC0]).setRam (Mm.parse + 0x15) [2])) rfl) (by decide +kernel))
      (by unfold Safety.sound; decide +kernel)).2.2 5) (by decide +kernel))

/-! ### ParseBankSwaps -/

theorem test_parseBankSwaps_1 (h : Obligations.ParseBankSwaps) : ∃ t, exec (Instr.parseStandbyWrite 8 16909060) (runS) = .next t :=
  ran (meet4 (h.1 8 0x01020304 runS) (by decide +kernel))

theorem test_parseBankSwaps_2 (h : Obligations.ParseBankSwaps) : ∃ t, exec (Instr.parseStandbyWrite 8 16909060) (runS.sf Rg.PARSE_BANK_STATUS
    Fl.PARSE_BANK_STATUS_STATE 1) = .next t :=
  ran (h.2.1 8 0x01020304 (runS.sf Rg.PARSE_BANK_STATUS Fl.PARSE_BANK_STATUS_STATE 1) (by decide +kernel) (by decide +kernel)
      (by unfold Safety.evRoom; decide +kernel))

theorem test_parseBankSwaps_3 (h : Obligations.ParseBankSwaps) : ∃ t, exec (Instr.parseValidate 5) (runS) = .next t :=
  ran (h.2.2.1 5 runS (by decide +kernel) (by decide +kernel))

/-- A store of one entry reads as empty where it does not hold it. -/
theorem sgetN_one {α : Type} (k : Nat) (v d : α) (n a : Nat) (h : k < a ∨ a + n ≤ k) : sgetN [(k, v)] a d n = List.replicate n d := by
  induction n generalizing a with
  | zero => rfl
  | succ n ih =>
    have h1 : ¬ k = a := by omega
    simp [sgetN, sget, h1, List.replicate_succ, ih (a + 1) (by omega)]

theorem nodeCause_zero (valid : Nat → Bool) : nodeCause valid (List.replicate 256 0) = 0 := rfl

theorem nodeCause_first (valid : Nat → Bool) : nodeCause valid (0x80 :: List.replicate 255 0) = 0 := rfl

/-- The standby bank with node 0 valid and nothing else. -/
def bankS : State := { runS.sf Rg.PARSE_BANK_STATUS Fl.PARSE_BANK_STATUS_VAL_BUSY 1 with sram := [(Mm.parse + 0x24000, 0x80)] }

theorem bankS_ram (a n : Nat) (h : Mm.parse + 0x24000 < a ∨ a + n ≤ Mm.parse + 0x24000) : bankS.ram a n = List.replicate n 0 :=
  sgetN_one _ _ _ n a h
theorem bankS_ram0 (n : Nat) : bankS.ram (Mm.parse + 0x24000) (n + 1) = 0x80 :: List.replicate n 0 :=
  congrArg (List.cons 0x80) (sgetN_one _ _ _ n (Mm.parse + 0x24001) (by omega))

/-- Every node but node 0 of it is empty and good. -/
theorem bankS_node (n : Nat) (h : n ≠ 0) : bankS.ram (Mm.parse + 0x20000 + 0x4000 + 256 * n) 256 = List.replicate 256 0 :=
  bankS_ram _ _ (by omega)

theorem bankS_good : (List.range 64).map (fun n => (nodeCause (fun m => nValid (bankS.ram (Mm.parse + 0x20000 + 0x4000 + 256 * m) 256))
    (bankS.ram (Mm.parse + 0x20000 + 0x4000 + 256 * n) 256), n)) = (List.range 64).map (fun n => (0, n)) := by
  refine List.map_congr_left fun n _ => ?_
  by_cases h : n = 0
  · subst h
    have e : bankS.ram (Mm.parse + 0x20000 + 0x4000 + 256 * 0) 256 = 0x80 :: List.replicate 255 0 :=
      bankS_ram0 255
    rw [e, nodeCause_first]
  · rw [bankS_node n h, nodeCause_zero]

theorem bankS_profiles : (List.range 16).map (fun i => profileCause (bankS.ram (Mm.parse + 0x20000 + 0x1000 + 128 * i) 128)) = List.replicate 16 0 := by
  have h : profileCause (List.replicate 128 0) = 0 := by decide +kernel
  refine (List.map_congr_left fun i hi => ?_).trans (b := (List.range 16).map fun _ => 0) rfl
  have hi := List.mem_range.1 hi
  have e : bankS.ram (Mm.parse + 0x20000 + 0x1000 + 128 * i) 128 = List.replicate 128 0 :=
    bankS_ram _ _ (by omega)
  rw [e, h]

theorem bankS_passes : bankS.bankCause (bankAt bankS.standbyBank) = (0, 0) := by
  have e : bankAt bankS.standbyBank = Mm.parse + 0x20000 := by decide +kernel
  have h : ∀ i, i < 22 → bankS.ram (Mm.parse + 0x20000 + i) 1 = [0] := fun i hi => bankS_ram _ 1 (by omega)
  have b : byteAt [0] 0 = 0 := rfl
  have f : List.find? (fun r : Nat × Nat => decide (r.1 ≠ 0)) ((List.range 64).map fun n => (0, n)) = none := by decide +kernel
  have g : (List.range 6).any (fun i => decide (byteAt (bankS.ram (Mm.parse + 0x20000 + (0x10 + i)) 1) 0 > 2)) = false := by decide +kernel
  rw [e, State.bankCause]
  simp only [bankS_good, bankS_profiles, h 0 (by decide), h 1 (by decide), b, f, g, bankS_ram0 255]
  simp
  decide +kernel

theorem test_parseBankSwaps_4 (h : Obligations.ParseBankSwaps) : ∃ t, exec (.parseValidateDone 5) bankS = .next t :=
  ran (h.2.2.2.1 5 bankS (by decide +kernel) bankS_passes)

theorem test_parseBankSwaps_5 (h : Obligations.ParseBankSwaps) : ∃ t, exec (Instr.parseValidateDone 5) ((runS.sf Rg.PARSE_BANK_STATUS
    Fl.PARSE_BANK_STATUS_VAL_BUSY 1).setRam (Mm.parse + 131074) [1]) = .next t :=
  ran ((meet3 (h.2.2.2.2.1 5 1 63 ((runS.sf Rg.PARSE_BANK_STATUS Fl.PARSE_BANK_STATUS_VAL_BUSY 1).setRam (Mm.parse + 0x20002) [1]))
      (by decide +kernel)) (by unfold Safety.evRoom; decide +kernel))

theorem test_parseBankSwaps_6 (h : Obligations.ParseBankSwaps) : ∃ t, exec (Instr.parseSwapRequest 5) (runS.sf Rg.PARSE_BANK_STATUS
    Fl.PARSE_BANK_STATUS_VALIDATED 1) = .next t :=
  ran (meet3 (h.2.2.2.2.2.1 5 (runS.sf Rg.PARSE_BANK_STATUS Fl.PARSE_BANK_STATUS_VALIDATED 1)) (by decide +kernel))

theorem test_parseBankSwaps_7 (h : Obligations.ParseBankSwaps) : ∃ t, exec (Instr.parseSwapRequest 5) (runS) = .next t :=
  ran (h.2.2.2.2.2.2.1 5 runS (by decide +kernel) (by decide +kernel) (by unfold Safety.evRoom; decide +kernel))

theorem test_parseBankSwaps_8 (h : Obligations.ParseBankSwaps) : ∃ t, exec (Instr.parseSwapPauseEnd)
    { runS with prs := { runS.prs with paused := true } } = .next t :=
  ran (h.2.2.2.2.2.2.2.1 { runS with prs := { runS.prs with paused := true } } (by decide +kernel) (by unfold Safety.evRoom; decide +kernel))

theorem test_parseBankSwaps_9 (h : Obligations.ParseBankSwaps) : ∃ t, exec (Instr.parseDrainEnd) (runS.sf Rg.PARSE_BANK_STATUS
    Fl.PARSE_BANK_STATUS_STATE 2) = .next t :=
  ran (meet5 (h.2.2.2.2.2.2.2.2 (runS.sf Rg.PARSE_BANK_STATUS Fl.PARSE_BANK_STATUS_STATE 2)) (by decide +kernel))

/-! ### TablesLearnAndAge -/

theorem test_tablesLearnAndAge_1 (h : Obligations.TablesLearnAndAge) : ∃ t, exec (Instr.learnRequestProcess) (learnT 128) = .next t :=
  ran (meet4 ((meet7 (h.1 lreq [] (learnT 0x80) rfl) (by decide +kernel)).1 lslot) (by decide +kernel))

theorem test_tablesLearnAndAge_2 (h : Obligations.TablesLearnAndAge) : ∃ t, exec (Instr.learnRequestProcess) ((learnT 0x80).setTbl (fun b =>
    { b with locks := (List.range 4).map fun k => ⟨1, k, 0⟩ })) = .next t :=
  ran (meet4 ((meet7 (h.1 lreq [] ((learnT 0x80).setTbl (fun b => { b with locks := (List.range 4).map fun k => ⟨1, k, 0⟩ })) rfl)
      (by decide +kernel)).2.1 lslot) (by decide +kernel))

theorem test_tablesLearnAndAge_3 (h : Obligations.TablesLearnAndAge) : ∃ t, exec (Instr.learnRequestProcess) (learnT 192) = .next t :=
  ran (meet3 ((meet7 (h.1 lreq [] (learnT 0xC0) rfl) (by decide +kernel)).2.2.1 lslot) (by decide +kernel))

theorem test_tablesLearnAndAge_4 (h : Obligations.TablesLearnAndAge) : ∃ t, exec (Instr.learnRequestProcess) (learnS) = .next t :=
  ran (meet3 ((meet7 (h.1 lreq [] learnS rfl) (by decide +kernel)).2.2.2 0) (by decide +kernel))

theorem test_tablesLearnAndAge_5 (h : Obligations.TablesLearnAndAge) : ∃ t, exec (Instr.ageingVisit) ((((runS.sf (Rg.HOOP_BUDGET 1)
    Fl.HOOP_BUDGET_CYCLES 100).sf (Rg.TBL_CFG 1) Fl.TBL_CFG_SIZE 4).setTbl (fun b => { b with scanPos := [(9, 1)] })).setRam (runS.slotAt 1 0 1)
    [0x80]) = .next t :=
  ran ((meet4 ((meet4 (h.2 1 ((((runS.sf (Rg.HOOP_BUDGET 1) Fl.HOOP_BUDGET_CYCLES 100).sf (Rg.TBL_CFG 1) Fl.TBL_CFG_SIZE 4).setTbl (fun b =>
      { b with scanPos := [(9, 1)] })).setRam (runS.slotAt 1 0 1) [0x80])) (by decide +kernel)) (fun m a b => by omega) (by decide +kernel)
      (by decide +kernel) rfl) (by decide +kernel)) rfl)

/-! ### TableDmaOperates -/

theorem test_tableDmaOperates_1 (h : Obligations.TableDmaOperates) : ∃ t, exec (Instr.dmaRead) (dmaS 1 1 0) = .next t :=
  ran (meet5 ((h 0x1000 ⟨1, 1, 0, true, 0, 0x2000⟩ (dmaS 1 1 0) (by unfold Safety.sound; decide +kernel)).1
      (by unfold Safety.dmaFront; decide +kernel)) (by decide +kernel))

theorem test_tableDmaOperates_2 (h : Obligations.TableDmaOperates) : ∃ t, exec (Instr.dmaLockedRead) (dmaS 2 1 0) = .next t :=
  ran (meet7 ((h 0x1000 ⟨2, 1, 0, true, 0, 0x2000⟩ (dmaS 2 1 0) (by unfold Safety.sound; decide +kernel)).2.1
      (by unfold Safety.dmaFront; decide +kernel)) (by decide +kernel))

theorem test_tableDmaOperates_3 (h : Obligations.TableDmaOperates) : ∃ t, exec (Instr.dmaLockedRead) (locked0 (dmaS 2 1 0)) = .next t :=
  ran (meet6 ((h 0x1000 ⟨2, 1, 0, true, 0, 0x2000⟩ (locked0 (dmaS 2 1 0)) (by unfold Safety.sound; decide +kernel)).2.2.1
      (by unfold Safety.dmaFront; decide +kernel)) (by decide +kernel))

theorem test_tableDmaOperates_4 (h : Obligations.TableDmaOperates) : ∃ t, exec (Instr.dmaWriteUnlock) (locked0 (dmaS 3 1 0)) = .next t :=
  ran (meet7 ((h 0x1000 ⟨3, 1, 0, true, 0, 0x2000⟩ (locked0 (dmaS 3 1 0)) (by unfold Safety.sound; decide +kernel)).2.2.2.1
      (by unfold Safety.dmaFront; decide +kernel)) (by decide +kernel))

theorem test_tableDmaOperates_5 (h : Obligations.TableDmaOperates) : ∃ t, exec (Instr.dmaUnlock) (locked0 (dmaS 4 1 0)) = .next t :=
  ran (meet4 ((h 0x1000 ⟨4, 1, 0, true, 0, 0x2000⟩ (locked0 (dmaS 4 1 0)) (by unfold Safety.sound; decide +kernel)).2.2.2.2.1
      (by unfold Safety.dmaFront; decide +kernel)) (by decide +kernel))

theorem test_tableDmaOperates_6 (h : Obligations.TableDmaOperates) : ∃ t, exec (Instr.dmaWrite) ((dmaS 5 1 1).sf (Rg.TBL_BANK_STATUS 1)
    Fl.TBL_BANK_STATUS_STATE 1) = .next t :=
  ran (meet6 ((h 0x1000 ⟨5, 1, 1, true, 0, 0x2000⟩ ((dmaS 5 1 1).sf (Rg.TBL_BANK_STATUS 1) Fl.TBL_BANK_STATUS_STATE 1)
      (by unfold Safety.sound; decide +kernel)).2.2.2.2.2.1 (by unfold Safety.dmaFront; decide +kernel)) (by decide +kernel))

theorem test_tableDmaOperates_7 (h : Obligations.TableDmaOperates) : ∃ t, exec (Instr.dmaWrite) (dmaS 5 4 0) = .next t :=
  ran (meet6 ((h 0x1000 ⟨5, 4, 0, true, 0, 0x2000⟩ (dmaS 5 4 0) (by unfold Safety.sound; decide +kernel)).2.2.2.2.2.2.1
      (by unfold Safety.dmaFront; decide +kernel)) (by decide +kernel))

theorem test_tableDmaOperates_8 (h : Obligations.TableDmaOperates) : ∃ t, exec (Instr.dmaActWrite) ((dmaS 6 5 0).setMem 8192 [160, 0, 0, 3]) = .next
    t :=
  ran (meet8 ((h 0x1000 ⟨6, 5, 0, true, 0, 0x2000⟩ ((dmaS 6 5 0).setMem 0x2000 [0xA0, 0, 0, 3])
      (by unfold Safety.sound; decide +kernel)).2.2.2.2.2.2.2.1 (by unfold Safety.dmaFront; decide +kernel)) (by decide +kernel))

theorem test_tableDmaOperates_9 (h : Obligations.TableDmaOperates) : ∃ t, exec (Instr.dmaActFree) ((dmaS 7 5 0).setTbl (fun b =>
    { b with live := [0] })) = .next t :=
  ran (meet5 ((h 0x1000 ⟨7, 5, 0, true, 0, 0x2000⟩ ((dmaS 7 5 0).setTbl (fun b => { b with live := [0] }))
      (by unfold Safety.sound; decide +kernel)).2.2.2.2.2.2.2.2.1 (by unfold Safety.dmaFront; decide +kernel)) (by decide +kernel))

theorem test_tableDmaOperates_10 (h : Obligations.TableDmaOperates) : ∃ t, exec (Instr.dmaActRead) (dmaS 8 5 0) = .next t :=
  ran (meet6 ((h 0x1000 ⟨8, 5, 0, true, 0, 0x2000⟩ (dmaS 8 5 0) (by unfold Safety.sound; decide +kernel)).2.2.2.2.2.2.2.2.2.1
      (by unfold Safety.dmaFront; decide +kernel)) (by decide +kernel))

theorem test_tableDmaOperates_11 (h : Obligations.TableDmaOperates) : ∃ t, exec (Instr.dmaInsert) (hasZero (dmaS 9 1 0)) = .next t :=
  ran (((meet8 ((h 0x1000 ⟨9, 1, 0, true, 0, 0x2000⟩ (hasZero (dmaS 9 1 0)) (by unfold Safety.sound; decide +kernel)).2.2.2.2.2.2.2.2.2.2.1
      (by unfold Safety.dmaFront; decide +kernel)) (by decide +kernel)) (by decide +kernel) (by decide +kernel)).1 zslot (by decide +kernel))

theorem test_tableDmaOperates_12 (h : Obligations.TableDmaOperates) : ∃ t, exec (Instr.dmaInsert) (dmaS 9 1 0) = .next t :=
  ran (((meet8 ((h 0x1000 ⟨9, 1, 0, true, 0, 0x2000⟩ (dmaS 9 1 0) (by unfold Safety.sound; decide +kernel)).2.2.2.2.2.2.2.2.2.2.1
      (by unfold Safety.dmaFront; decide +kernel)) (by decide +kernel)) (by decide +kernel) (by decide +kernel)).2 0 (by decide +kernel)
      (by decide +kernel))

theorem test_tableDmaOperates_13 (h : Obligations.TableDmaOperates) : ∃ t, exec (Instr.dmaDelete) (hasZero (dmaS 10 1 0)) = .next t :=
  ran ((meet8 ((h 0x1000 ⟨10, 1, 0, true, 0, 0x2000⟩ (hasZero (dmaS 10 1 0)) (by unfold Safety.sound; decide +kernel)).2.2.2.2.2.2.2.2.2.2.2
      (by unfold Safety.dmaFront; decide +kernel)) (by decide +kernel)) (by decide +kernel) zslot (by decide +kernel))

/-! ### TableBanksAndLocks -/

theorem test_tableBanksAndLocks_1 (h : Obligations.TableBanksAndLocks) : ∃ t, exec (Instr.actGraceEnd 9) (runS.setTbl (fun b =>
    { b with grace := [(9, 0), (7, 1)] })) = .next t :=
  ran (h.1 9 (runS.setTbl (fun b => { b with grace := [(9, 0), (7, 1)] })) (by decide +kernel))

theorem test_tableBanksAndLocks_2 (h : Obligations.TableBanksAndLocks) : ∃ t, exec (Instr.tblLockExpired 0) ((runS.setTbl (fun b =>
    { b with locks := [⟨1, 5, 0⟩] })).wr64 Rg.HOOP_COUNT 2) = .next t :=
  ran (h.2.1 0 ⟨1, 5, 0⟩ ((runS.setTbl (fun b => { b with locks := [⟨1, 5, 0⟩] })).wr64 Rg.HOOP_COUNT 2) (by decide +kernel) (by decide +kernel)
      (by unfold Safety.evRoom; decide +kernel))

theorem test_tableBanksAndLocks_3 (h : Obligations.TableBanksAndLocks) : ∃ t, exec (Instr.tblPrepare 1) (runS) = .next t :=
  ran (meet4 (h.2.2.1 1 runS) (by decide +kernel))

theorem test_tableBanksAndLocks_4 (h : Obligations.TableBanksAndLocks) : ∃ t, exec (Instr.tblCommit 5 1) (((runS.sf (Rg.TBL_BANK_STATUS 1)
    Fl.TBL_BANK_STATUS_STATE 1).sf (Rg.TBL_BANK_STATUS 1) Fl.TBL_BANK_STATUS_WRITTEN 4).sf (Rg.TBL_CFG 1) Fl.TBL_CFG_SIZE 4) = .next t :=
  ran (meet4 (h.2.2.2.1 5 1 (((runS.sf (Rg.TBL_BANK_STATUS 1) Fl.TBL_BANK_STATUS_STATE 1).sf (Rg.TBL_BANK_STATUS 1) Fl.TBL_BANK_STATUS_WRITTEN 4).sf
      (Rg.TBL_CFG 1) Fl.TBL_CFG_SIZE 4)) (by decide +kernel))

theorem test_tableBanksAndLocks_5 (h : Obligations.TableBanksAndLocks) : ∃ t, exec (Instr.tblAbort 1) (runS.sf (Rg.TBL_BANK_STATUS 1)
    Fl.TBL_BANK_STATUS_STATE 1) = .next t :=
  ran (meet3 (h.2.2.2.2.1 1 (runS.sf (Rg.TBL_BANK_STATUS 1) Fl.TBL_BANK_STATUS_STATE 1)) (by decide +kernel))

theorem test_tableBanksAndLocks_6 (h : Obligations.TableBanksAndLocks) : ∃ t, exec (Instr.tblPrepare 1) (runS.sf (Rg.TBL_BANK_STATUS 1)
    Fl.TBL_BANK_STATUS_STATE 1) = .next t :=
  ran ((h.2.2.2.2.2 5 1 (runS.sf (Rg.TBL_BANK_STATUS 1) Fl.TBL_BANK_STATUS_STATE 1) (by decide +kernel) (by decide +kernel)
      (by unfold Safety.evRoom; decide +kernel)).1 (by decide +kernel))

theorem test_tableBanksAndLocks_7 (h : Obligations.TableBanksAndLocks) : ∃ t, exec (Instr.tblCommit 5 1) (runS) = .next t :=
  ran ((h.2.2.2.2.2 5 1 runS (by decide +kernel) (by decide +kernel) (by unfold Safety.evRoom; decide +kernel)).2.1 (by decide +kernel))

theorem test_tableBanksAndLocks_8 (h : Obligations.TableBanksAndLocks) : ∃ t, exec (Instr.tblAbort 1) (runS) = .next t :=
  ran ((h.2.2.2.2.2 5 1 runS (by decide +kernel) (by decide +kernel) (by unfold Safety.evRoom; decide +kernel)).2.2 (by decide +kernel))

/-! ### FramesAreAdmitted -/

theorem test_framesAreAdmitted_1 (h : Obligations.FramesAreAdmitted) : ∃ t, exec (Instr.frameAdmission) (admS 100) = .next t :=
  ran (meet5 ((meet7 (meet8 (h.1 admF [] (admS 100) rfl) (by decide +kernel)) (by decide +kernel)) (by unfold Safety.sound; decide +kernel) rfl
      rfl).1 (by decide +kernel))

theorem test_framesAreAdmitted_2 (h : Obligations.FramesAreAdmitted) : ∃ t, exec (Instr.frameAdmission) (admS 0) = .next t :=
  ran (((meet7 (meet8 (h.1 admF [] (admS 0) rfl) (by decide +kernel)) (by decide +kernel)) (by unfold Safety.sound; decide +kernel) rfl rfl).2.1
      (by decide +kernel))

theorem test_framesAreAdmitted_3 (h : Obligations.FramesAreAdmitted) : ∃ t, exec (Instr.frameAdmission)
    { admS 1 with outQ := [{ data := [], egress := 9, charge := 1 }] } = .next t :=
  ran (meet3 ((meet7 (meet8 (h.1 admF [] { admS 1 with outQ := [{ data := [], egress := 9, charge := 1 }] } rfl) (by decide +kernel))
      (by decide +kernel)) (by unfold Safety.sound; decide +kernel) rfl rfl).2.2 (by decide +kernel))

theorem test_framesAreAdmitted_4 (h : Obligations.FramesAreAdmitted) : ∃ t, exec (Instr.spreadStall) (fullS false) = .next t :=
  ran ((h.2 ⟨1, [cpy 6], false⟩ (fullS false) rfl (by decide +kernel) rfl).1 (by decide +kernel))

theorem test_framesAreAdmitted_5 (h : Obligations.FramesAreAdmitted) : ∃ t, exec (Instr.spreadStall) (fullS true) = .next t :=
  ran ((h.2 ⟨1, [cpy 6], true⟩ (fullS true) rfl (by decide +kernel) rfl).1 (by decide +kernel))

theorem test_framesAreAdmitted_6 (h : Obligations.FramesAreAdmitted) : ∃ t, exec (Instr.spreadStall) (gndS [] []
    [{ group := 1, copies := [cpy 6], stalled := false }]) = .next t :=
  ran ((h.2 ⟨1, [cpy 6], false⟩ (gndS [] [] [⟨1, [cpy 6], false⟩]) rfl (by decide +kernel) rfl).2 (cpy 6) rfl rfl (by decide +kernel))

/-! ### ResequencerKeepsOrder -/

theorem test_resequencerKeepsOrder_1 (h : Obligations.ResequencerKeepsOrder) : ∃ t, exec (Instr.reseqRelease 2) (gndS [come 6] [] []) = .next t :=
  ran ((meet4 (h.1 2 (come 6) (gndS [come 6] [] [])) (by decide +kernel)).1 (by decide +kernel) (by decide +kernel))

theorem test_resequencerKeepsOrder_2 (h : Obligations.ResequencerKeepsOrder) : ∃ t, exec (Instr.reseqRelease 2) (gndS [come 7] [] []) = .next t :=
  ran ((meet4 (h.1 2 (come 7) (gndS [come 7] [] [])) (by decide +kernel)).2.1 (by decide +kernel) (by decide +kernel))

theorem test_resequencerKeepsOrder_3 (h : Obligations.ResequencerKeepsOrder) : ∃ t, exec (Instr.reseqRelease 2) (gndS [come 5] [] []) = .next t :=
  ran ((meet4 (h.1 2 (come 5) (gndS [come 5] [] [])) (by decide +kernel)).2.2 (by decide +kernel))

theorem test_resequencerKeepsOrder_4 (h : Obligations.ResequencerKeepsOrder) :
    (gndS [come 6] [] []).toArrival 2 = (gndS [come 6] [] []).gndRun := h.2.1 2 (come 6) (gndS [come 6] [] []) rfl (by decide +kernel)

theorem test_resequencerKeepsOrder_5 (h : Obligations.ResequencerKeepsOrder) : ∃ t, exec (Instr.reseqSkip 2) (gndS [] [{ copy := cpy 7, raw := 0 }]
    []) = .next t :=
  ran (((meet4 (h.2.2 2 ⟨cpy 7, 0⟩ (gndS [] [⟨cpy 7, 0⟩] []) rfl) (by decide +kernel)) rfl (by decide +kernel) (by decide +kernel)
      (by unfold Safety.evRoom; decide +kernel)).1 (by decide +kernel) (by decide +kernel))

theorem test_resequencerKeepsOrder_6 (h : Obligations.ResequencerKeepsOrder) : ∃ t, exec (Instr.reseqSkip 2) (gndS [come 6]
    [{ copy := cpy 7, raw := 0 }] []) = .next t :=
  ran ((meet5 (((meet4 (h.2.2 2 ⟨cpy 7, 0⟩ (gndS [come 6] [⟨cpy 7, 0⟩] []) rfl) (by decide +kernel)) rfl (by decide +kernel) (by decide +kernel)
      (by unfold Safety.evRoom; decide +kernel)).2 (come 6) 0 rfl) (by decide +kernel)) rfl (by decide +kernel))

/-! ### GroupsAndPolicers -/

theorem test_groupsAndPolicers_1 (h : Obligations.GroupsAndPolicers) : ∃ t, exec (Instr.mcGroupWrite 4095) (runS.wr64 Rg.BUF_MC_MASK 255) = .next t :=
  ran (meet4 (h.1 4095 (runS.wr64 Rg.BUF_MC_MASK 0xFF)) (by decide +kernel))

theorem test_groupsAndPolicers_2 (h : Obligations.GroupsAndPolicers) : ∃ t, exec (Instr.mcGroupWrite 4095) (runS.wr64 Rg.BUF_MC_MASK (2 ^ 49)) =
    .next t :=
  ran (h.2.1 4095 (runS.wr64 Rg.BUF_MC_MASK (2 ^ 49)) (by decide +kernel) (by decide +kernel) (by unfold Safety.evRoom; decide +kernel))

theorem test_groupsAndPolicers_3 (h : Obligations.GroupsAndPolicers) : ∃ t, exec (Instr.mcGroupRead 4095) (runS.setRam (Mm.mc + 8 * 4095)
    [0, 0, 0, 0, 0, 0, 1, 2]) = .next t :=
  ran (h.2.2.1 4095 (runS.setRam (Mm.mc + 8 * 4095) [0, 0, 0, 0, 0, 0, 1, 2]) (by decide +kernel) (by unfold Safety.sound; decide +kernel))

theorem test_groupsAndPolicers_4 (h : Obligations.GroupsAndPolicers) : ∃ t, exec (Instr.policerWrite 16383 true) (((runS.wr Rg.BUF_POL_CIR 1000).wr
    Rg.BUF_POL_CBS 2000).wr Rg.BUF_POL_PIR 1500) = .next t :=
  ran (meet5 (h.2.2.2.1 16383 true (((runS.wr Rg.BUF_POL_CIR 1000).wr Rg.BUF_POL_CBS 2000).wr Rg.BUF_POL_PIR 1500) (by decide +kernel) rfl).1
      (by decide +kernel))

theorem test_groupsAndPolicers_5 (h : Obligations.GroupsAndPolicers) : ∃ t, exec (Instr.policerWrite 16383 true) ((runS.wr Rg.BUF_POL_CIR 1000).wr
    Rg.BUF_POL_PIR 1) = .next t :=
  ran ((h.2.2.2.1 16383 true ((runS.wr Rg.BUF_POL_CIR 1000).wr Rg.BUF_POL_PIR 1) (by decide +kernel) rfl).2 (by decide +kernel)
      (by unfold Safety.evRoom; decide +kernel))

theorem test_groupsAndPolicers_6 (h : Obligations.GroupsAndPolicers) : ∃ t, exec (Instr.policerRead 16383) (runS) = .next t :=
  ran (h.2.2.2.2.1 16383 runS (by decide +kernel) (by unfold Safety.sound; decide +kernel) rfl)

theorem test_groupsAndPolicers_7 (h : Obligations.GroupsAndPolicers) : ∃ t, exec (Instr.policerRead 16383)
    { runS with dbe := [(2, Mm.pol + 32 * 16383)] } = .next t :=
  ran (h.2.2.2.2.2.1 16383 (Mm.pol + 32 * 16383) { runS with dbe := [(2, Mm.pol + 32 * 16383)] } (by decide +kernel) rfl (by decide +kernel)
      (by unfold Safety.evRoom; decide +kernel))

theorem test_groupsAndPolicers_8 (h : Obligations.GroupsAndPolicers) : ∃ t, exec (Instr.policerSweep 16383) (runS.setRam (Mm.pol + 32 * 16383)
    [128, 0, 0, 0, 0, 0, 0, 100, 0, 0, 0, 9]) = .next t :=
  ran (meet3 (h.2.2.2.2.2.2 16383 (runS.setRam (Mm.pol + 32 * 16383) [0x80, 0, 0, 0, 0, 0, 0, 100, 0, 0, 0, 9]) (by decide +kernel)
      (by unfold Safety.sound; decide +kernel) rfl) (by decide +kernel))

/-! ### TransmitServesStrictClasses -/

theorem test_transmitServesStrictClasses_1 (h : Obligations.TransmitServesStrictClasses) : ∃ t, exec (Instr.frameTransmitStart 5 5) (txS 1) = .next t
    :=
  ran (meet3 ((meet8 (meet8 (meet8 (h 5 5 (txF 6) (txF 4) (txS 1)) (by decide +kernel)) (by decide +kernel)) (by decide +kernel))
      (by decide +kernel)).1 (by decide +kernel))

theorem test_transmitServesStrictClasses_2 (h : Obligations.TransmitServesStrictClasses) : ∃ t, exec (Instr.frameTransmitStart 5 5) (txS 0) = .next t
    :=
  ran (((meet8 (meet8 (meet8 (h 5 5 (txF 6) (txF 4) (txS 0)) (by decide +kernel)) (by decide +kernel)) (by decide +kernel)) (by decide +kernel)).2
      (by decide +kernel))

/-! ### TransmissionEnds -/

theorem test_transmissionEnds_1 (h : Obligations.TransmissionEnds) : ∃ t, exec (Instr.frameTransmitEnd 5 5) (wireS 5) = .next t :=
  ran ((meet3 (h.1 5 5 (wireF 5) (wireS 5) rfl) (by decide +kernel)).1 (by decide +kernel))

theorem test_transmissionEnds_2 (h : Obligations.TransmissionEnds) : ∃ t, exec (Instr.frameTransmitEnd 5 48) (wireS 48) = .next t :=
  ran ((meet3 (h.1 5 48 (wireF 48) (wireS 48) rfl) (by decide +kernel)).2.1 (by decide +kernel) rfl)

theorem test_transmissionEnds_3 (h : Obligations.TransmissionEnds) : ∃ t, exec (Instr.frameTransmitEnd 5 50) (wireS 50) = .next t :=
  ran ((meet3 (h.1 5 50 (wireF 50) (wireS 50) rfl) (by decide +kernel)).2.2.1 (by decide +kernel) rfl)

theorem test_transmissionEnds_4 (h : Obligations.TransmissionEnds) : ∃ t, exec (Instr.frameTransmitEnd 5 51) (wireS 51) = .next t :=
  ran ((meet3 (h.1 5 51 (wireF 51) (wireS 51) rfl) (by decide +kernel)).2.2.2.1 (by decide +kernel) rfl)

theorem test_transmissionEnds_5 (h : Obligations.TransmissionEnds) : ∃ t, exec (Instr.frameTransmitEnd 5 5) ((wireS 5).wr (Rg.EGR_QSHAPE_BURST 5 2)
    (2 ^ 31 + 1000)) = .next t :=
  ran (meet4 (meet3 (h.1 5 5 (wireF 5) ((wireS 5).wr (Rg.EGR_QSHAPE_BURST 5 2) (2 ^ 31 + 1000)) rfl) (by decide +kernel)).2.2.2.2 (by decide +kernel))

theorem test_transmissionEnds_6 (h : Obligations.TransmissionEnds) : ∃ t, exec (Instr.launchTimeReached 5 6)
    { runS with outQ := [{ txF 6 with launchV := true, launch := 100000000 }] } = .next t :=
  ran (meet3 (h.2 5 6 { txF 6 with launchV := true, launch := 100000000 }
      { runS with outQ := [{ txF 6 with launchV := true, launch := 100000000 }] }) (by decide +kernel))

/-! ### ShapersAndGates -/

theorem test_shapersAndGates_1 (h : Obligations.ShapersAndGates) : ∃ t, exec (Instr.shaperWrite 0 (BitVec.ofNat 32 (shRate 5 8).addr) 1000) (runS) =
    .next t :=
  ran (((meet4 (h.1 0 5 8 1000 runS) (by decide +kernel)) (by unfold Safety.evRoom; decide +kernel)).1 (by decide +kernel))

theorem test_shapersAndGates_2 (h : Obligations.ShapersAndGates) : ∃ t, exec (Instr.shaperWrite 0 (BitVec.ofNat 32 (shRate 5 8).addr) 0) (runS.wr
    (Rg.EGR_PSHAPE_BURST 5) (2 ^ 31)) = .next t :=
  ran (((meet4 (h.1 0 5 8 0 (runS.wr (Rg.EGR_PSHAPE_BURST 5) (2 ^ 31))) (by decide +kernel)) (by unfold Safety.evRoom; decide +kernel)).2.1
      (by decide +kernel) (by decide +kernel))

theorem test_shapersAndGates_3 (h : Obligations.ShapersAndGates) : ∃ t, exec (Instr.shaperWrite 0 (BitVec.ofNat 32 (shBurst 5 2).addr) (2 ^ 31 +
    700)) (runS.wr (Rg.EGR_QSHAPE_RATE 5 2) 1000) = .next t :=
  ran (meet3 ((meet4 (h.1 0 5 2 (2 ^ 31 + 700) (runS.wr (Rg.EGR_QSHAPE_RATE 5 2) 1000)) (by decide +kernel))
      (by unfold Safety.evRoom; decide +kernel)).2.2.1 (by decide +kernel))

theorem test_shapersAndGates_4 (h : Obligations.ShapersAndGates) : ∃ t, exec (Instr.shaperWrite 0 (BitVec.ofNat 32 (shBurst 5 2).addr) 700) (runS) =
    .next t :=
  ran (((meet4 (h.1 0 5 2 700 runS) (by decide +kernel)) (by unfold Safety.evRoom; decide +kernel)).2.2.2 (by decide +kernel))

theorem test_shapersAndGates_5 (h : Obligations.ShapersAndGates) : ∃ t, exec (Instr.gateEntryChange 31) (runS.wr (Rg.EGR_GATE_STATUS 31) 5) = .next t
    :=
  ran (meet4 (h.2.1 31 (runS.wr (Rg.EGR_GATE_STATUS 31) 5)) (by decide +kernel))

theorem test_shapersAndGates_6 (h : Obligations.ShapersAndGates) : ∃ t, exec (Instr.gateEntryChange 31) (gateS) = .next t :=
  ran (meet6 (h.2.2.1 31 ⟨70, 2, 1⟩ gateS) (by decide +kernel))

theorem test_shapersAndGates_7 (h : Obligations.ShapersAndGates) : ∃ t, exec (Instr.gateEntryChange 31)
    { gateS.sf (Rg.EGR_GATE_CFG 31) Fl.EGR_GATE_CFG_LEN 1 with dbe := [(10, gateWord 31 0 0)] } = .next t :=
  ran ((meet6 (h.2.2.2.1 31 (gateWord 31 0 0) { gateS.sf (Rg.EGR_GATE_CFG 31) Fl.EGR_GATE_CFG_LEN 1 with dbe := [(10, gateWord 31 0 0)] })
      (by decide +kernel)) rfl (by unfold Safety.evRoom; decide +kernel))

theorem test_shapersAndGates_8 (h : Obligations.ShapersAndGates) : ∃ t, exec (Instr.gateTestWrite 0 31 1) (runS) = .next t :=
  ran ((h.2.2.2.2 0 31 1 runS (by decide +kernel)).1 (by decide +kernel) (by decide +kernel))

theorem test_shapersAndGates_9 (h : Obligations.ShapersAndGates) : ∃ t, exec (Instr.gateTestWrite 0 31 0) (runS) = .next t :=
  ran ((h.2.2.2.2 0 31 0 runS (by decide +kernel)).2.1 (by decide +kernel) (by decide +kernel))

theorem test_shapersAndGates_10 (h : Obligations.ShapersAndGates) : ∃ t, exec (Instr.gateTestWrite 0 32 0) (runS) = .next t :=
  ran ((h.2.2.2.2 0 32 0 runS (by decide +kernel)).2.2 (by decide +kernel) (by unfold Safety.evRoom; decide +kernel))

/-! ### FramesAreCaptured -/

theorem test_framesAreCaptured_1 (h : Obligations.FramesAreCaptured) : ∃ t, exec (Instr.frameCapture 0) (capS capF (2 ^ 63 + 9) 0) = .next t :=
  ran ((meet3 (h 0 { capF with ts := 0 } [] (capS capF (2 ^ 63 + 9) 0) (by decide +kernel) (by decide +kernel)
      (by unfold Safety.sound; decide +kernel) (by decide +kernel)).1 (by decide +kernel)).1 _ rfl (by decide +kernel))

theorem test_framesAreCaptured_2 (h : Obligations.FramesAreCaptured) : ∃ t, exec (Instr.frameCapture 0) (capS capF (2 ^ 63 + 9) (-30000000)) = .next
    t :=
  ran ((meet3 (h 0 { capF with ts := -30000000 } [] (capS capF (2 ^ 63 + 9) (-30000000)) (by decide +kernel) (by decide +kernel)
      (by unfold Safety.sound; decide +kernel) (by decide +kernel)).1 (by decide +kernel)).2.1 _ rfl (by decide +kernel))

theorem test_framesAreCaptured_3 (h : Obligations.FramesAreCaptured) : ∃ t, exec (Instr.frameCapture 0) (capS capF (2 ^ 63 + 9 + 100 * 2 ^ 16) 0) =
    .next t :=
  ran ((meet3 (h 0 { capF with ts := 0 } [] (capS capF (2 ^ 63 + 9 + 100 * 2 ^ 16) 0) (by decide +kernel) (by decide +kernel)
      (by unfold Safety.sound; decide +kernel) (by decide +kernel)).1 (by decide +kernel)).2.2 (by decide +kernel))

theorem test_framesAreCaptured_4 (h : Obligations.FramesAreCaptured) : ∃ t, exec (Instr.frameCapture 0) (capS { capF with lastAkz := 0 } (2 ^ 63 + 6
    * 2 ^ 32) 0) = .next t :=
  ran (((h 0 { { capF with lastAkz := 0 } with ts := 0 } [] (capS { capF with lastAkz := 0 } (2 ^ 63 + 6 * 2 ^ 32) 0) (by decide +kernel)
      (by decide +kernel) (by unfold Safety.sound; decide +kernel) (by decide +kernel)).2 (by decide +kernel) (by decide +kernel)).1
      (by decide +kernel) (by unfold Safety.evRoom; decide +kernel))

theorem test_framesAreCaptured_5 (h : Obligations.FramesAreCaptured) : ∃ t, exec (Instr.frameCapture 0) (capS capF (2 ^ 63 + 6 * 2 ^ 32) 0) = .next t
    :=
  ran (meet8 ((h 0 { capF with ts := 0 } [] (capS capF (2 ^ 63 + 6 * 2 ^ 32) 0) (by decide +kernel) (by decide +kernel)
      (by unfold Safety.sound; decide +kernel) (by decide +kernel)).2 (by decide +kernel) (by decide +kernel)).2 (by decide +kernel))

/-! ### FirmwareSignalsAndPrivateWords -/

theorem test_firmwareSignalsAndPrivateWords_1 (h : Obligations.FirmwareSignalsAndPrivateWords) : ∃ t, exec (Instr.signalWriteGo 0 1) (runS) = .next t
    :=
  ran ((h.1 0 1 runS (by decide +kernel) (by decide +kernel) rfl).1 (by decide +kernel))

theorem test_firmwareSignalsAndPrivateWords_2 (h : Obligations.FirmwareSignalsAndPrivateWords) : ∃ t, exec (Instr.signalWriteGo 0 1) (runS.sf
    Rg.BOB_SIGW_STATUS Fl.BOB_SIGW_STATUS_BUSY 1) = .next t :=
  ran ((h.1 0 1 (runS.sf Rg.BOB_SIGW_STATUS Fl.BOB_SIGW_STATUS_BUSY 1) (by decide +kernel) (by decide +kernel) rfl).2 (by decide +kernel)
      (by unfold Safety.evRoom; decide +kernel))

theorem test_firmwareSignalsAndPrivateWords_3 (h : Obligations.FirmwareSignalsAndPrivateWords) : ∃ t, exec (Instr.signalWriteDone) (State.reset) =
    .next t :=
  ran (h.2.1 State.reset (by decide +kernel))

theorem test_firmwareSignalsAndPrivateWords_4 (h : Obligations.FirmwareSignalsAndPrivateWords) : ∃ t, exec (Instr.signalWriteDone)
    { runS with sig := { runS.sig with wait := [(9, 7, 3, 5, 17)] } } = .next t :=
  ran (meet4 (h.2.2.1 9 7 17 3 5 { runS with sig := { runS.sig with wait := [(9, 7, 3, 5, 17)] } } rfl) (by decide +kernel))

theorem test_firmwareSignalsAndPrivateWords_5 (h : Obligations.FirmwareSignalsAndPrivateWords) : ∃ t, exec (Instr.privRead) (runS.wr64
    Rg.BOB_PRIV_DATA 77) = .next t :=
  ran ((h.2.2.2.1 (runS.wr64 Rg.BOB_PRIV_DATA 77) (by decide +kernel) (by decide +kernel)).1)

theorem test_firmwareSignalsAndPrivateWords_6 (h : Obligations.FirmwareSignalsAndPrivateWords) : ∃ t, exec (Instr.privWrite) (runS.wr64
    Rg.BOB_PRIV_DATA 77) = .next t :=
  ran ((h.2.2.2.1 (runS.wr64 Rg.BOB_PRIV_DATA 77) (by decide +kernel) (by decide +kernel)).2)

theorem test_firmwareSignalsAndPrivateWords_7 (h : Obligations.FirmwareSignalsAndPrivateWords) : ∃ t, exec (Instr.privWrite)
    { runS.wr64 Rg.BOB_PRIV_DATA 77 with cyc := { cycInit with stores := [(0, 0)] } } = .next t :=
  ran ((h.2.2.2.1 { runS.wr64 Rg.BOB_PRIV_DATA 77 with cyc := { cycInit with stores := [(0, 0)] } } (by decide +kernel) (by decide +kernel)).2)

theorem test_firmwareSignalsAndPrivateWords_8 (h : Obligations.FirmwareSignalsAndPrivateWords) : ∃ t, exec (Instr.privRead)
    { runS with dbe := [(6, 0)] } = .next t :=
  ran (h.2.2.2.2 { runS with dbe := [(6, 0)] } (by decide +kernel) (by decide +kernel))

/-! ### BobbinsComputeOnTwoRegisters -/

theorem test_bobbinsComputeOnTwoRegisters_1 (h : Obligations.BobbinsComputeOnTwoRegisters) : ∃ c s t, exec c s = .next t :=
  ranEx ((h 3 (w0 0) 5 1 2 7 0 (bobS 3 ln0) (by unfold Safety.issuesAt; decide +kernel)) _ (List.mem_cons_self ..))

theorem test_bobbinsComputeOnTwoRegisters_2 (h : Obligations.BobbinsComputeOnTwoRegisters) : ∃ c s t, exec c s = .next t :=
  ranEx ((h 3 (w0 1) 0 1 2 7 0 (bobS 3 ln0) (by unfold Safety.issuesAt; decide +kernel)) _ (List.mem_cons_self ..))

/-! ### BobbinsComputeOnOneRegister -/

theorem test_bobbinsComputeOnOneRegister_1 (h : Obligations.BobbinsComputeOnOneRegister) : ∃ c s t, exec c s = .next t :=
  ranEx (((h 3 (w0 0) 5 1 0xFFF 0x1FFFF 0xFFFF 7 5 58 0 (bobS 3 ln0) (by decide +kernel)).1 (by unfold Safety.issuesAt; decide +kernel)) _
      (List.mem_cons_self ..))

theorem test_bobbinsComputeOnOneRegister_2 (h : Obligations.BobbinsComputeOnOneRegister) : ∃ t, exec (Instr.bLi 3 (w0 0) 5 131071) (bobS 3 ln0) =
    .next t :=
  ran ((h 3 (w0 0) 5 1 0xFFF 0x1FFFF 0xFFFF 7 5 58 0 (bobS 3 ln0) (by decide +kernel)).2 (by unfold Safety.issuesAt; decide +kernel)).1

/-! ### BobbinsDecidePredicates -/

theorem test_bobbinsDecidePredicates_1 (h : Obligations.BobbinsDecidePredicates) : ∃ c s t, exec c s = .next t :=
  ranEx (((h 3 (w0 0) 5 1 2 1 2 0x7FF 0 (bobS 3 ln0)).1 (by unfold Safety.issuesAt; decide +kernel)) _ (List.mem_cons_self ..))

theorem test_bobbinsDecidePredicates_2 (h : Obligations.BobbinsDecidePredicates) : ∃ c s t, exec c s = .next t :=
  ranEx (((h 3 (w0 0) 5 1 2 1 2 0x7FF 0 (bobS 3 ln0)).2.1 (by unfold Safety.issuesAt; decide +kernel)) _ (List.mem_cons_self ..))

theorem test_bobbinsDecidePredicates_3 (h : Obligations.BobbinsDecidePredicates) : ∃ c s t, exec c s = .next t :=
  ranEx (((h 3 (w0 0) 5 1 2 1 2 0x7FF 0 (bobS 3 ln0)).2.2 (by unfold Safety.issuesAt; decide +kernel)) _ (List.mem_cons_self ..))

/-! ### BobbinControlFlow -/

theorem test_bobbinControlFlow_1 (h : Obligations.BobbinControlFlow) : ∃ t, exec (Instr.bNop 3 (w0 0)) (bobS 3 ln0) = .next t :=
  ran ((h.1 3 (w0 0) 7 3 9 0 (bobS 3 ln0) (by unfold Safety.issuesAt; decide +kernel)).1)

theorem test_bobbinControlFlow_2 (h : Obligations.BobbinControlFlow) : ∃ t, exec (Instr.bSkip 3 (w0 0) 7) (bobS 3 ln0) = .next t :=
  ran ((h.1 3 (w0 0) 7 3 9 0 (bobS 3 ln0) (by unfold Safety.issuesAt; decide +kernel)).2.1 (by decide +kernel) (by decide +kernel))

theorem test_bobbinControlFlow_3 (h : Obligations.BobbinControlFlow) : ∃ t, exec (Instr.bRep 3 (w0 0) 3 9) (bobS 3 ln0) = .next t :=
  ran ((h.1 3 (w0 0) 7 3 9 0 (bobS 3 ln0) (by unfold Safety.issuesAt; decide +kernel)).2.2.1 (by decide +kernel))

theorem test_bobbinControlFlow_4 (h : Obligations.BobbinControlFlow) : ∃ t, exec (Instr.bSkip 3 (w0 1) 7) (bobS 3 ln0) = .next t :=
  ran ((h.1 3 (w0 1) 7 3 9 0 (bobS 3 ln0) (by unfold Safety.issuesAt; decide +kernel)).2.2.2 (by decide +kernel)).1

theorem test_bobbinControlFlow_5 (h : Obligations.BobbinControlFlow) : ∃ t, exec (Instr.bEnd 3 (w0 0)) (bobS 3
    { ln0 with ready := [(4, 20)], records := [rec0] }) = .next t :=
  ran (meet5 (h.2 3 (w0 0) 20 (bobS 3 { ln0 with ready := [(4, 20)], records := [rec0] })) (by decide +kernel))

/-! ### BobbinMemoryAndEmission -/

theorem test_bobbinMemoryAndEmission_1 (h : Obligations.BobbinMemoryAndEmission) : ∃ t, exec (Instr.bLd 3 (w0 0) 5 1 2) (bobS 3 ln0) = .next t :=
  ran ((meet4 (h.1 3 (w0 0) 5 1 2 0 56 (bobS 3 ln0) (by unfold Safety.issuesAt; decide +kernel) (by decide +kernel) rfl) (by decide +kernel)).1)

theorem test_bobbinMemoryAndEmission_2 (h : Obligations.BobbinMemoryAndEmission) : ∃ t, exec (Instr.bSt 3 (w0 0) 5 1 2) (bobS 3 ln0) = .next t :=
  ran ((meet4 (h.1 3 (w0 0) 5 1 2 0 56 (bobS 3 ln0) (by unfold Safety.issuesAt; decide +kernel) (by decide +kernel) rfl) (by decide +kernel)).2)

theorem test_bobbinMemoryAndEmission_3 (h : Obligations.BobbinMemoryAndEmission) : ∃ t, exec (Instr.bSld 3 (w0 0) 6 1 2) (bobS 3 ln0) = .next t :=
  ran (meet6 (h.2.1 3 (w0 0) 6 1 2 0 (bobS 3 ln0) (by unfold Safety.issuesAt; decide +kernel)) (by decide +kernel))

theorem test_bobbinMemoryAndEmission_4 (h : Obligations.BobbinMemoryAndEmission) : ∃ t, exec (Instr.sldResult 3) (bobS 3
    { ln0 with sld := [⟨20, 5, 6, 7⟩] }) = .next t :=
  ran (h.2.2.1 3 ⟨20, 5, 6, 7⟩ (bobS 3 { ln0 with sld := [⟨20, 5, 6, 7⟩] }) (by decide +kernel) (by decide +kernel))

theorem test_bobbinMemoryAndEmission_5 (h : Obligations.BobbinMemoryAndEmission) : ∃ t, exec (Instr.bEmit 3 (w0 0) 1 0 0) (emitS 3 ln0 2) = .next t :=
  ran (meet4 (h.2.2.2 3 (w0 0) 1 0 0 0 (emitS 3 ln0 2) (by unfold Safety.issuesAt; decide +kernel)) (by decide +kernel))

/-! ### BobbinOverruns -/

theorem test_bobbinOverruns_1 (h : Obligations.BobbinOverruns) : ∃ t, exec (Instr.bobbinBudgetExpiry 3) (bobS 3 ln0) = .next t :=
  ran (h.1 3 (bobS 3 ln0) (by decide +kernel) (by unfold Safety.evRoom; decide +kernel) (by decide +kernel))

theorem test_bobbinOverruns_2 (h : Obligations.BobbinOverruns) : ∃ t, exec (Instr.bLd 3 (w0 0) 5 2 0) (bobS 3 ln0) = .next t :=
  ran ((h.2.1 3 (w0 0) 5 2 0 0 (bobS 3 ln0) (by unfold Safety.issuesAt; decide +kernel) (by unfold Safety.evRoom; decide +kernel) (by decide +kernel)
      (by decide +kernel)).1)

theorem test_bobbinOverruns_3 (h : Obligations.BobbinOverruns) : ∃ t, exec (Instr.bSt 3 (w0 0) 5 2 0) (bobS 3 ln0) = .next t :=
  ran ((h.2.1 3 (w0 0) 5 2 0 0 (bobS 3 ln0) (by unfold Safety.issuesAt; decide +kernel) (by unfold Safety.evRoom; decide +kernel) (by decide +kernel)
      (by decide +kernel)).2)

theorem test_bobbinOverruns_4 (h : Obligations.BobbinOverruns) : ∃ t, exec (Instr.bLd 3 (w0 0) 5 1 0) { bobS 3 ln0 with dbe := [(6, 24581)] } = .next
    t :=
  ran ((meet4 (h.2.2.1 3 (w0 0) 5 1 0 0 { bobS 3 ln0 with dbe := [(6, 24581)] } (by unfold Safety.issuesAt; decide +kernel)
      (by unfold Safety.evRoom; decide +kernel)) (by decide +kernel)) rfl)

theorem test_bobbinOverruns_5 (h : Obligations.BobbinOverruns) : ∃ t, exec (Instr.bSld 3 (w0 0) 6 2 4095) (bobS 3 { ln0 with wregs := [(2, 70000)] })
    = .next t :=
  ran (meet3 (h.2.2.2.1 3 (w0 0) 6 2 0xFFF 0 (bobS 3 { ln0 with wregs := [(2, 70000)] }) (by unfold Safety.issuesAt; decide +kernel)
      (by unfold Safety.evRoom; decide +kernel)) (by decide +kernel))

theorem test_bobbinOverruns_6 (h : Obligations.BobbinOverruns) : ∃ t, exec (Instr.bEmit 3 (w0 0) 1 0 0) (emitS 3 ln0 0) = .next t :=
  ran ((h.2.2.2.2 3 (w0 0) 1 0 0 0 (emitS 3 ln0 0) (by unfold Safety.issuesAt; decide +kernel) (by unfold Safety.evRoom; decide +kernel)
      (by decide +kernel)).1 (by decide +kernel))

theorem test_bobbinOverruns_7 (h : Obligations.BobbinOverruns) : ∃ t, exec (Instr.bEmit 3 (w0 0) 1 1 4095) (emitS 3 ln0 1) = .next t :=
  ran ((h.2.2.2.2 3 (w0 0) 1 1 4095 0 (emitS 3 ln0 1) (by unfold Safety.issuesAt; decide +kernel) (by unfold Safety.evRoom; decide +kernel)
      (by decide +kernel)).2 (by decide +kernel) (by decide +kernel))

theorem test_bobbinOverruns_8 (h : Obligations.BobbinOverruns) : ∃ t, exec (Instr.bEmit 3 (w0 0) 1 0 9) (emitS 3 ln0 1) = .next t :=
  ran ((h.2.2.2.2 3 (w0 0) 1 0 9 0 (emitS 3 ln0 1) (by unfold Safety.issuesAt; decide +kernel) (by unfold Safety.evRoom; decide +kernel)
      (by decide +kernel)).2 (by decide +kernel) (by decide +kernel))

/-! ### EmitUnitBuilds -/

theorem test_emitUnitBuilds_1 (h : Obligations.EmitUnitBuilds) : ∃ t, exec (Instr.emitBuildStart)
    { runS with clk := { clockInit with built := false } } = .next t :=
  ran (meet3 (h.1 { runS with clk := { clockInit with built := false } } (by decide +kernel) (by unfold Safety.sound; decide +kernel))
      (by decide +kernel))

theorem test_emitUnitBuilds_2 (h : Obligations.EmitUnitBuilds) : ∃ t, exec (Instr.emitBuildStart) (buildS) = .next t :=
  ran ((meet5 ((meet6 (h.2 rec0 _ _ buildS (by decide +kernel) (by unfold Safety.sound; decide +kernel)) (by decide +kernel)) rfl)
      (by decide +kernel)) rfl rfl (by decide +kernel) (by unfold Safety.noneDecided; decide +kernel) (by decide +kernel))

/-! ### SlowPathAndEvents -/

theorem test_slowPathAndEvents_1 (h : Obligations.SlowPathAndEvents) : ∃ t, exec (Instr.spRxWrite) (spS 1 0) = .next t :=
  ran (meet3 (h.1 spF [] (spS 1 0) rfl (by decide +kernel) (by decide +kernel)).1 (by decide +kernel))

theorem test_slowPathAndEvents_2 (h : Obligations.SlowPathAndEvents) : ∃ t, exec (Instr.spRxWrite) (spS 1 1) = .next t :=
  ran ((h.1 spF [] (spS 1 1) rfl (by decide +kernel) (by decide +kernel)).2 (by decide +kernel))

theorem test_slowPathAndEvents_3 (h : Obligations.SlowPathAndEvents) : ∃ t, exec (Instr.spRxWrite) (spS 0 0) = .next t :=
  ran ((h.1 spF [] (spS 0 0) rfl (by decide +kernel) (by decide +kernel)).2 (by decide +kernel))

theorem test_slowPathAndEvents_4 (h : Obligations.SlowPathAndEvents) : ∃ t, exec (Instr.spTxDirect) (txRing (60 + 9 * 2 ^ 16 + 3 * 2 ^ 22 + 2 ^ 26))
    = .next t :=
  ran ((meet4 ((meet3 (h.2.1 _ (txRing (60 + 9 * 2 ^ 16 + 3 * 2 ^ 22 + 2 ^ 26))) (by decide +kernel)) rfl).1 (by decide +kernel))
      (by unfold Safety.roomFor Safety.noneDecided; decide +kernel))

theorem test_slowPathAndEvents_5 (h : Obligations.SlowPathAndEvents) : ∃ t, exec (Instr.spTxLookup) (txRing (60 + 2 ^ 14 + 3 * 2 ^ 22)) = .next t :=
  ran ((meet3 ((meet3 (h.2.1 _ (txRing (60 + 2 ^ 14 + 3 * 2 ^ 22))) (by decide +kernel)) rfl).2.1 (by decide +kernel)) rfl)

theorem test_slowPathAndEvents_6 (h : Obligations.SlowPathAndEvents) : ∃ t, exec (Instr.spTxDirect) (txRing (13 + 9 * 2 ^ 16)) = .next t :=
  ran (((meet3 (h.2.1 _ (txRing (13 + 9 * 2 ^ 16))) (by decide +kernel)) rfl).2.2 (by decide +kernel) (by decide +kernel))

theorem test_slowPathAndEvents_7 (h : Obligations.SlowPathAndEvents) : ∃ t, exec (Instr.frameAdmission)
    { txRing (60 + 2 ^ 14 + 3 * 2 ^ 22) with admQ := [lookF 9] } = .next t :=
  ran (h.2.2.1 (lookF 9) 0x5000 { txRing (60 + 2 ^ 14 + 3 * 2 ^ 22) with admQ := [lookF 9] } (by decide +kernel)
      (by unfold Safety.sound; decide +kernel) rfl rfl rfl rfl (by decide +kernel) (by decide +kernel))

theorem test_slowPathAndEvents_8 (h : Obligations.SlowPathAndEvents) : ∃ t, exec (Instr.frameAdmission)
    { txRing (60 + 2 ^ 14 + 3 * 2 ^ 22) with admQ := [lookF 8] } = .next t :=
  ran (h.2.2.1 (lookF 8) 0x5000 { txRing (60 + 2 ^ 14 + 3 * 2 ^ 22) with admQ := [lookF 8] } (by decide +kernel)
      (by unfold Safety.sound; decide +kernel) rfl rfl rfl rfl (by decide +kernel) (by decide +kernel))

theorem test_slowPathAndEvents_9 (h : Obligations.SlowPathAndEvents) : ∃ t, exec (Instr.eventRecordWrite) (evS 1 0) = .next t :=
  ran (meet3 (meet4 (h.2.2.2.1 ev0 [] (evS 1 0)) (by decide +kernel)).1 (by decide +kernel))

theorem test_slowPathAndEvents_10 (h : Obligations.SlowPathAndEvents) : ∃ t, exec (Instr.eventRecordWrite) (evS 1 1) = .next t :=
  ran ((meet4 (h.2.2.2.1 ev0 [] (evS 1 1)) (by decide +kernel)).2 (by decide +kernel))

theorem test_slowPathAndEvents_11 (h : Obligations.SlowPathAndEvents) : ∃ t, exec (Instr.eventRecordWrite) (evS 0 0) = .next t :=
  ran (h.2.2.2.2.1 ev0 [] (evS 0 0) rfl (by decide +kernel) (by decide +kernel))

theorem test_slowPathAndEvents_12 (h : Obligations.SlowPathAndEvents) : ∃ t, exec (Instr.evtRingEnable 1) (runS) = .next t :=
  ran (h.2.2.2.2.2.1 1 runS (by decide +kernel))

theorem test_slowPathAndEvents_13 (h : Obligations.SlowPathAndEvents) : ∃ t, exec (Instr.gpioOutWrite 2147483649)
    { runS.wr Rg.GPIO_OE 0xFFFFFFFF with pins := { runS.pins with gpioDriven := true } } = .next t :=
  ran (h.2.2.2.2.2.2 0x80000001 { runS.wr Rg.GPIO_OE 0xFFFFFFFF with pins := { runS.pins with gpioDriven := true } } (by decide +kernel))

/-! ### EyeletServes -/

theorem test_eyeletServes_1 (h : Obligations.EyeletServes) : ∃ t, exec (Instr.eyeletStatus 5) (eyeS { kind := 1, seq := 7, body := [] }) = .next t :=
  ran (h.1 5 ⟨1, 7, []⟩ [] [1] (eyeS ⟨1, 7, []⟩) (by unfold Safety.eyeReady Safety.roomFor Safety.noneDecided; decide +kernel) rfl)

theorem test_eyeletServes_2 (h : Obligations.EyeletServes) : ∃ t, exec (Instr.eyeletExportRead 5)
    { (eyeS ⟨4, 7, [0, 1, 0, 0, 0, 0, 0, 0]⟩) with pins := { runS.pins with ospiBad1 := [0] } } = .next t :=
  ran (meet4 (h.2.1 5 ⟨4, 7, [0, 1, 0, 0, 0, 0, 0, 0]⟩ [] [1]
      { (eyeS ⟨4, 7, [0, 1, 0, 0, 0, 0, 0, 0]⟩) with pins := { runS.pins with ospiBad1 := [0] } }
      (by unfold Safety.eyeReady Safety.roomFor Safety.noneDecided; decide +kernel) rfl (by decide +kernel)).1 (by decide +kernel))

theorem test_eyeletServes_3 (h : Obligations.EyeletServes) : ∃ t, exec (Instr.eyeletExportRead 5) ((eyeS
    { kind := 4, seq := 7, body := [0, 1, 0, 0, 0, 0, 0, 0] }).setFlash1 0 [75, 82, 80, 71, 0, 0, 0, 0, 0, 0, 0, 0]) = .next t :=
  ran (meet5 (h.2.1 5 ⟨4, 7, [0, 1, 0, 0, 0, 0, 0, 0]⟩ [] [1] ((eyeS ⟨4, 7, [0, 1, 0, 0, 0, 0, 0, 0]⟩).setFlash1 0
      [0x4B, 0x52, 0x50, 0x47, 0, 0, 0, 0, 0, 0, 0, 0]) (by unfold Safety.eyeReady Safety.roomFor Safety.noneDecided; decide +kernel) rfl
      (by decide +kernel)).2.1 (by decide +kernel))

theorem test_eyeletServes_4 (h : Obligations.EyeletServes) : ∃ t, exec (Instr.eyeletExportRead 5) (eyeS
    { kind := 4, seq := 7, body := [0, 1, 0, 0, 0, 0, 0, 0] }) = .next t :=
  ran (meet5 (h.2.1 5 ⟨4, 7, [0, 1, 0, 0, 0, 0, 0, 0]⟩ [] [1] (eyeS ⟨4, 7, [0, 1, 0, 0, 0, 0, 0, 0]⟩)
      (by unfold Safety.eyeReady Safety.roomFor Safety.noneDecided; decide +kernel) rfl (by decide +kernel)).2.2.1 (by decide +kernel))

/-- Acknowledgements of page 0 with this device's identity and a digest `d`. -/
def ackHead : Bytes := beBytes 4 0x4541434B ++ [0, 1] ++ beBytes 2 runS.node ++ runS.deviceId ++ zeros 8
def ackBody (d : Bytes) : Bytes := [1, 0, 0, 0] ++ (ackHead ++ (d ++ (idSig ++ zeros 2)))

/-- The eyelet with such an acknowledgement; page 0 stands in flash, open, and the operator's key, usable where `u`, is the identity key. -/
def ackS (u : Bool) (d : Bytes) : State :=
  { ((eyeS ⟨4, 7, ackBody d⟩).setSlot 2 ⟨1, if u then attr 4 else [], ⟨[], [], idKey⟩, none⟩) with
    ospi1 := [(0, 0x4B), (1, 0x52), (2, 0x50), (3, 0x47), (4, 0), (5, 0), (6, 0), (7, 0), (8, 0), (9, 0), (10, 0), (11, 0)]
    chain := { (eyeS ⟨4, 7, []⟩).chain with opened := true } }
def pageDigest : Bytes := shake512 ((ackS true []).flash1 0 4032)

theorem slice_append (x y z : Bytes) : slice (x ++ (y ++ z)) x.length y.length = y := by simp [slice, zeros]
theorem slice_head (x y : Bytes) (o n : Nat) (h : o + n ≤ x.length) : slice (x ++ y) o n = slice x o n := by
  simp [slice, List.drop_append_of_le_length (show o ≤ x.length by omega), List.take_append_of_le_length (show n ≤ (x.drop o).length by simp; omega)]

theorem ackBody_drop (d : Bytes) : (ackBody d).drop 4 = ackHead ++ (d ++ (idSig ++ zeros 2)) := rfl

/-- A field of the fixed first part of the acknowledgement. -/
theorem ackField (d : Bytes) (o n v : Nat) (h : o + n ≤ 32) (e : be ackHead o n = v) : be ((ackBody d).drop 4) o n = v := by
  rw [ackBody_drop, be, slice_head _ _ _ _ (show o + n ≤ ackHead.length from h)]
  exact e

/-- The state does not depend on the digest but in the request. -/
theorem ackS_page (u : Bool) (d : Bytes) (h : d = pageDigest) : shake512 ((ackS u d).flash1 0 4032) = d := by
  have e : ∀ x, (ackS u x).ospi1 = (ackS true []).ospi1 := fun _ => rfl
  rw [h]
  exact congrArg (fun l => shake512 (sgetN l 0 erased 4032)) (e pageDigest)

theorem test_eyeletServes_ack (h : Obligations.EyeletServes) (u : Bool) : ∃ t, exec (.eyeletExportAck 5) (ackS u pageDigest) = .next t := by
  have hl : pageDigest.length = 64 := shake512_length _
  have page : be ((ackBody pageDigest).drop 4) 24 4 = 0 := ackField pageDigest 24 4 0 (by decide) (by decide +kernel)
  have hd1 : slice ((ackBody pageDigest).drop 4) 32 64 = pageDigest := by
    have := slice_append ackHead pageDigest (idSig ++ zeros 2)
    rw [hl] at this
    exact this
  have hd2 : slice ((ackBody pageDigest).drop 4) 96 114 = idSig := by
    have := slice_append (ackHead ++ pageDigest) idSig (zeros 2)
    rw [List.length_append, hl, List.append_assoc] at this
    exact this
  have hd3 : be ((ackBody pageDigest).drop 4) 210 2 = 0 := by
    have := slice_append (ackHead ++ pageDigest ++ idSig) (zeros 2) []
    rw [List.length_append, List.length_append, hl, List.append_assoc, List.append_assoc, List.append_nil] at this
    rw [be]
    exact congrArg ofBe this
  have both := (h.2.2.1 5 ⟨4, 7, ackBody pageDigest⟩ [] [1] (ackS u pageDigest) ⟨?_, ?_, ?_, ?_⟩ rfl rfl ?_ ?_).1 ?_ ?_ ?_ ?_ ?_ hd3 ?_ ?_ ?_ ?_
  · by_cases use : (ackS u pageDigest).useCause 2 Master.sealUnit KeyOp.verify [4] = 0
    · exact ran (both.1 use (by rw [hd2]; exact idVerify _ _))
    · exact ran (both.2 use)
  · rw [State.forwarding, State.advance_pwr]; rfl
  · rw [State.advance_eye]; rfl
  · cases u <;> decide +kernel
  · unfold Safety.roomFor Safety.noneDecided; cases u <;> decide +kernel
  · simp [ackBody, hl]; cases u <;> decide +kernel
  · rfl
  · exact ackField pageDigest 0 4 _ (by decide) (by cases u <;> decide +kernel)
  · exact ackField pageDigest 4 2 _ (by decide) (by cases u <;> decide +kernel)
  · exact ackField pageDigest 6 2 _ (by decide) (by cases u <;> decide +kernel)
  · rw [ackBody_drop, slice_head _ _ _ _ (by cases u <;> decide +kernel)]
    cases u <;> decide +kernel
  · exact ackField pageDigest 28 4 _ (by decide) (by cases u <;> decide +kernel)
  · rw [page]; exact Or.inr ⟨by cases u <;> decide +kernel, rfl⟩
  · rw [page]; cases u <;> decide +kernel
  · rw [page]; cases u <;> decide +kernel
  · rw [page, hd1]
    exact ackS_page _ _ rfl

/-- A key that the seal unit may verify with, and one that it may not. -/
theorem test_eyeletServes_ackUse : (ackS true pageDigest).useCause 2 Master.sealUnit KeyOp.verify [4] = 0 ∧
    (ackS false pageDigest).useCause 2 Master.sealUnit KeyOp.verify [4] ≠ 0 := by decide +kernel

theorem test_eyeletServes_5 (h : Obligations.EyeletServes) : ∃ t, exec (Instr.eyeletExportRead 5) (eyeS { kind := 4, seq := 7, body := [0, 1] }) =
    .next t :=
  ran ((h.2.1 5 ⟨4, 7, [0, 1]⟩ [] [1] (eyeS ⟨4, 7, [0, 1]⟩) (by unfold Safety.eyeReady Safety.roomFor Safety.noneDecided; decide +kernel) rfl
      (by decide +kernel)).2.2.2 (by decide +kernel))

theorem test_eyeletServes_6 (h : Obligations.EyeletServes) : ∃ t, exec (Instr.eyeletExportAck 5) (eyeS
    { kind := 4, seq := 7, body := 1 :: zeros 215 }) = .next t :=
  ran ((meet3 (h.2.2.1 5 ⟨4, 7, 1 :: zeros 215⟩ [] [1] (eyeS ⟨4, 7, 1 :: zeros 215⟩)
      (by unfold Safety.eyeReady Safety.roomFor Safety.noneDecided; decide +kernel) rfl) (by decide +kernel)).2 (by decide +kernel))

theorem test_eyeletServes_7 (h : Obligations.EyeletServes) : ∃ t, exec (Instr.eyeletAttest 5)
    { (eyeS ⟨5, 7, zeros 32⟩).sf Rg.KEY_CFG Fl.KEY_CFG_ATTEST_SIGN 1 with stg := some ⟨3, 1, 0, [], none, none⟩ } = .next t :=
  ran ((h.2.2.2.1 5 ⟨5, 7, zeros 32⟩ [] [1]
      { (eyeS ⟨5, 7, zeros 32⟩).sf Rg.KEY_CFG Fl.KEY_CFG_ATTEST_SIGN 1 with stg := some ⟨3, 1, 0, [], none, none⟩ }
      (by unfold Safety.eyeReady Safety.roomFor Safety.noneDecided; decide +kernel) rfl (by decide +kernel)).1 (by decide +kernel))

theorem test_eyeletServes_8 (h : Obligations.EyeletServes) : ∃ t, exec (Instr.eyeletAttest 5) (eyeS { kind := 5, seq := 7, body := zeros 32 }) =
    .next t :=
  ran (meet3 (h.2.2.2.1 5 ⟨5, 7, zeros 32⟩ [] [1] (eyeS ⟨5, 7, zeros 32⟩)
      (by unfold Safety.eyeReady Safety.roomFor Safety.noneDecided; decide +kernel) rfl (by decide +kernel)).2.1 (by decide +kernel))

theorem test_eyeletServes_9 (h : Obligations.EyeletServes) : ∃ t, exec (Instr.eyeletAttest 5) ((eyeS { kind := 5, seq := 7, body := zeros 32 }).sf
    Rg.KEY_CFG Fl.KEY_CFG_ATTEST_SLOT 8) = .next t :=
  ran ((h.2.2.2.1 5 ⟨5, 7, zeros 32⟩ [] [1] ((eyeS ⟨5, 7, zeros 32⟩).sf Rg.KEY_CFG Fl.KEY_CFG_ATTEST_SLOT 8)
      (by unfold Safety.eyeReady Safety.roomFor Safety.noneDecided; decide +kernel) rfl (by decide +kernel)).2.2 (by decide +kernel)
      (by decide +kernel))

theorem test_eyeletServes_10 (h : Obligations.EyeletServes) : ∃ t, exec (Instr.eyeletStageErase 5) (eyeS
    { kind := 6, seq := 7, body := [1, 0, 0, 0, 0, 1, 0, 0] }) = .next t :=
  ran (meet4 (meet3 (h.2.2.2.2.1 5 ⟨6, 7, [1, 0, 0, 0, 0, 1, 0, 0]⟩ [] (eyeS ⟨6, 7, [1, 0, 0, 0, 0, 1, 0, 0]⟩) (by decide +kernel) rfl rfl)
      (by decide +kernel)).1 (by decide +kernel))

theorem test_eyeletServes_11 (h : Obligations.EyeletServes) : ∃ t, exec (Instr.eyeletStageProgram 5) (eyeS
    { kind := 6, seq := 7, body := [2, 0, 0, 0, 0, 1, 0, 0] ++ List.replicate 256 7 }) = .next t :=
  ran (meet6 (meet3 (h.2.2.2.2.1 5 ⟨6, 7, [2, 0, 0, 0, 0, 1, 0, 0] ++ List.replicate 256 7⟩ [] (eyeS
      ⟨6, 7, [2, 0, 0, 0, 0, 1, 0, 0] ++ List.replicate 256 7⟩) (by decide +kernel) rfl rfl) (by decide +kernel)).2.1 (by decide +kernel))

theorem test_eyeletServes_12 (h : Obligations.EyeletServes) : ∃ t, exec (Instr.eyeletStageCheck 5) (eyeS
    { kind := 6, seq := 7, body := [3, 0, 0, 0, 0, 1, 0, 0] }) = .next t :=
  ran (meet3 (meet3 (h.2.2.2.2.1 5 ⟨6, 7, [3, 0, 0, 0, 0, 1, 0, 0]⟩ [] (eyeS ⟨6, 7, [3, 0, 0, 0, 0, 1, 0, 0]⟩) (by decide +kernel) rfl rfl)
      (by decide +kernel)).2.2 (by decide +kernel))

theorem test_eyeletServes_13 (h : Obligations.EyeletServes) : ∃ t, exec (Instr.eyeletStageCheck 5)
    { eyeS ⟨6, 7, [3, 0, 0, 0, 0, 1, 0, 0]⟩ with stg := some ⟨2, 1, 0, [], none, none⟩ } = .next t :=
  ran ((meet3 (h.2.2.2.2.2.1 5 ⟨6, 7, [3, 0, 0, 0, 0, 1, 0, 0]⟩ [] [1] ⟨2, 1, 0, [], none, none⟩
      { eyeS ⟨6, 7, [3, 0, 0, 0, 0, 1, 0, 0]⟩ with stg := some ⟨2, 1, 0, [], none, none⟩ }
      (by unfold Safety.eyeReady Safety.roomFor Safety.noneDecided; decide +kernel) rfl) (by decide +kernel)) rfl)

theorem test_eyeletServes_14 (h : Obligations.EyeletServes) : ∃ t, exec (Instr.eyeletWarmReset 5) (eyeS
    { kind := 7, seq := 7, body := beBytes 4 1465013076 }) = .next t :=
  ran ((h.2.2.2.2.2.2.1 5 ⟨7, 7, beBytes 4 0x57525354⟩ [] [1] (eyeS ⟨7, 7, beBytes 4 0x57525354⟩)
      (by unfold Safety.eyeReady Safety.roomFor Safety.noneDecided; decide +kernel) rfl).1 (by decide +kernel) (by decide +kernel))

theorem test_eyeletServes_15 (h : Obligations.EyeletServes) : ∃ t, exec (Instr.eyeletWarmReset 5) (eyeS { kind := 7, seq := 7, body := [] }) = .next
    t :=
  ran ((h.2.2.2.2.2.2.1 5 ⟨7, 7, []⟩ [] [1] (eyeS ⟨7, 7, []⟩) (by unfold Safety.eyeReady Safety.roomFor Safety.noneDecided; decide +kernel) rfl).2
      (by decide +kernel))

theorem test_eyeletServes_16 (h : Obligations.EyeletServes) : ∃ t, exec (Instr.eyeletResetDelay)
    { runS with pwr := { runS.pwr with eyeReset := some 77 } } = .next t :=
  ran (h.2.2.2.2.2.2.2 77 { runS with pwr := { runS.pwr with eyeReset := some 77 } } rfl rfl)

/-! ### BridgeServes -/

theorem test_bridgeServes_1 (h : Obligations.BridgeServes) : ∃ t, exec (Instr.copReadRequest 5) { rtS with brgQ := [copF (copBody 1 [])] } = .next t
    :=
  ran (meet4 (h.1 5 (copF (copBody 1 [])) [] (copC 1 []) [1] rt0 0 { rtS with brgQ := [copF (copBody 1 [])] }
      (by unfold Safety.brgHas Safety.brgClear Safety.noneDecided Safety.sound; decide +kernel) (by unfold Safety.copGood; decide +kernel))
      (by decide +kernel))

theorem test_bridgeServes_2 (h : Obligations.BridgeServes) : ∃ t, exec (Instr.copWriteRequest 5) { rtS with brgQ := [copF (copBody 4 [1, 2, 3, 4])] }
    = .next t :=
  ran (meet4 (h.2.1 5 (copF (copBody 4 [1, 2, 3, 4])) [] (copC 4 [1, 2, 3, 4]) [1] rt0 0 { rtS with brgQ := [copF (copBody 4 [1, 2, 3, 4])] }
      (by unfold Safety.brgHas Safety.brgClear Safety.noneDecided Safety.sound; decide +kernel) (by unfold Safety.copGood; decide +kernel))
      (by decide +kernel))

theorem test_bridgeServes_3 (h : Obligations.BridgeServes) : ∃ t, exec (Instr.brgDispatch 5) ((((slotS 5 (slotX 1 false rt0)).sf (Rg.BUF_LIMIT 24
    (brgS.fd Rg.BRG_CFG Fl.BRG_CFG_REQ_CLASS)) Fl.BUF_LIMIT_LIMIT 100).sf Rg.BUF_RESERVE Fl.BUF_RESERVE_MGMT 60).sf Rg.BRG_STATUS Fl.BRG_STATUS_STALL
    0) = .next t :=
  ran ((meet6 (h.2.2.1 5 (slotX 1 false rt0) ((((slotS 5 (slotX 1 false rt0)).sf (Rg.BUF_LIMIT 24 (brgS.fd Rg.BRG_CFG Fl.BRG_CFG_REQ_CLASS))
      Fl.BUF_LIMIT_LIMIT 100).sf Rg.BUF_RESERVE Fl.BUF_RESERVE_MGMT 60).sf Rg.BRG_STATUS Fl.BRG_STATUS_STALL 0)
      (by unfold Safety.brgClear Safety.noneDecided Safety.sound; decide +kernel)) (by decide +kernel)).1 (by decide +kernel) (by decide +kernel)
      (by unfold Safety.roomFor Safety.noneDecided; decide +kernel) (by decide +kernel))

theorem test_bridgeServes_4 (h : Obligations.BridgeServes) : ∃ t, exec (Instr.brgDispatch 5) (((slotS 5 (slotX 1 false (0x20 :: rt0.drop 1))).sf
    (Rg.CAN_STATUS 32) Fl.CAN_STATUS_STATE 2).sf Rg.BRG_STATUS Fl.BRG_STATUS_STALL 0) = .next t :=
  ran ((meet6 (h.2.2.1 5 (slotX 1 false (0x20 :: rt0.drop 1)) (((slotS 5 (slotX 1 false (0x20 :: rt0.drop 1))).sf (Rg.CAN_STATUS 32)
      Fl.CAN_STATUS_STATE 2).sf Rg.BRG_STATUS Fl.BRG_STATUS_STALL 0) (by unfold Safety.brgClear Safety.noneDecided Safety.sound; decide +kernel))
      (by decide +kernel)).2 (by decide +kernel) (by decide +kernel))

theorem test_bridgeServes_5 (h : Obligations.BridgeServes) : ∃ t, exec (Instr.farReadRsp 5) (farS
    { type := 2, gen := 0, tag := 3, last := true, seg := 0, total := 4, data := [1, 2, 3, 4] } (slotX 2 false rt0)) = .next t :=
  ran (meet7 (meet4 (h.2.2.2.1 5 (farF ⟨2, 0, 3, true, 0, 4, [1, 2, 3, 4]⟩) [] ⟨2, 0, 3, true, 0, 4, [1, 2, 3, 4]⟩ (slotX 2 false rt0) (farS
      ⟨2, 0, 3, true, 0, 4, [1, 2, 3, 4]⟩ (slotX 2 false rt0))
      (by unfold Safety.brgHas Safety.brgClear Safety.noneDecided Safety.sound; decide +kernel)) (by decide +kernel)).1 (by decide +kernel))

theorem test_bridgeServes_6 (h : Obligations.BridgeServes) : ∃ t, exec (Instr.farWriteAck 5) (farS
    { type := 4, gen := 0, tag := 3, last := true, seg := 0, total := 4, data := [] } (slotX 2 true rt0)) = .next t :=
  ran (meet5 (meet4 (h.2.2.2.1 5 (farF ⟨4, 0, 3, true, 0, 4, []⟩) [] ⟨4, 0, 3, true, 0, 4, []⟩ (slotX 2 true rt0) (farS ⟨4, 0, 3, true, 0, 4, []⟩
      (slotX 2 true rt0)) (by unfold Safety.brgHas Safety.brgClear Safety.noneDecided Safety.sound; decide +kernel)) (by decide +kernel)).2.1
      (by decide +kernel))

theorem test_bridgeServes_7 (h : Obligations.BridgeServes) : ∃ t, exec (Instr.farNegRsp 5) (farS
    { type := 5, gen := 0, tag := 3, last := true, seg := 0, total := 9, data := [] } (slotX 2 false rt0)) = .next t :=
  ran (meet4 (meet4 (h.2.2.2.1 5 (farF ⟨5, 0, 3, true, 0, 9, []⟩) [] ⟨5, 0, 3, true, 0, 9, []⟩ (slotX 2 false rt0) (farS ⟨5, 0, 3, true, 0, 9, []⟩
      (slotX 2 false rt0)) (by unfold Safety.brgHas Safety.brgClear Safety.noneDecided Safety.sound; decide +kernel)) (by decide +kernel)).2.2
      (by decide +kernel))

theorem test_bridgeServes_8 (h : Obligations.BridgeServes) : ∃ t, exec (Instr.farReadRsp 5) (farS
    { type := 2, gen := 0, tag := 4, last := true, seg := 0, total := 4, data := [] } (slotX 2 true rt0)) = .next t :=
  ran (h.2.2.2.2.1 5 (farF ⟨2, 0, 4, true, 0, 4, []⟩) [] ⟨2, 0, 4, true, 0, 4, []⟩ (farS ⟨2, 0, 4, true, 0, 4, []⟩ (slotX 2 true rt0))
      (by unfold Safety.brgHas Safety.brgClear Safety.noneDecided Safety.sound; decide +kernel) (by decide +kernel) (by decide +kernel))

theorem test_bridgeServes_9 (h : Obligations.BridgeServes) : ∃ t, exec (Instr.brgTransactionTimeout 5) (slotS 5 (slotX 2 false rt0)) = .next t :=
  ran ((meet3 (h.2.2.2.2.2.1 5 (slotX 2 false rt0) (slotS 5 (slotX 2 false rt0))
      (by unfold Safety.brgClear Safety.noneDecided Safety.sound; decide +kernel)) (by decide +kernel)).1 (by decide +kernel) (by decide +kernel))

theorem test_bridgeServes_10 (h : Obligations.BridgeServes) : ∃ t, exec (Instr.brgTransactionTimeout 5) (slotS 5 (slotX 2 true rt0)) = .next t :=
  ran ((meet3 (h.2.2.2.2.2.1 5 (slotX 2 true rt0) (slotS 5 (slotX 2 true rt0))
      (by unfold Safety.brgClear Safety.noneDecided Safety.sound; decide +kernel)) (by decide +kernel)).2.1 (by decide +kernel) (by decide +kernel)
      (by unfold Safety.evRoom; decide +kernel))

theorem test_bridgeServes_11 (h : Obligations.BridgeServes) : ∃ t, exec (Instr.brgTransactionTimeout 5) (slotS 5 (slotX 6 true rt0)) = .next t :=
  ran ((meet3 (h.2.2.2.2.2.1 5 (slotX 6 true rt0) (slotS 5 (slotX 6 true rt0))
      (by unfold Safety.brgClear Safety.noneDecided Safety.sound; decide +kernel)) (by decide +kernel)).2.2 (by decide +kernel))

theorem test_bridgeServes_12 (h : Obligations.BridgeServes) : ∃ t, exec (Instr.brgCollectExpiry 5) (slotS 5 (slotX 4 false rt0)) = .next t :=
  ran ((h.2.2.2.2.2.2.1 5 (slotX 4 false rt0) (slotS 5 (slotX 4 false rt0))
      (by unfold Safety.brgClear Safety.noneDecided Safety.sound; decide +kernel) (by decide +kernel) (by decide +kernel)).1 (by decide +kernel))

theorem test_bridgeServes_13 (h : Obligations.BridgeServes) : ∃ t, exec (Instr.brgCollectExpiry 5) (slotS 5 (slotX 3 false (152 :: 128 :: List.drop 2
    rt0))) = .next t :=
  ran ((meet4 (h.2.2.2.2.2.2.1 5 (slotX 3 false (0x98 :: 0x80 :: rt0.drop 2)) (slotS 5 (slotX 3 false (0x98 :: 0x80 :: rt0.drop 2)))
      (by unfold Safety.brgClear Safety.noneDecided Safety.sound; decide +kernel) (by decide +kernel) (by decide +kernel)).2 (by decide +kernel))
      (by unfold Safety.evRoom; decide +kernel))

theorem test_bridgeServes_14 (h : Obligations.BridgeServes) : ∃ t, exec (Instr.brgStartStallEnd) (brgS.sf Rg.BRG_STATUS Fl.BRG_STATUS_STALL 1) =
    .next t :=
  ran ((h.2.2.2.2.2.2.2 ((brgS.sf Rg.BRG_STATUS Fl.BRG_STATUS_STALL 1)) (by decide +kernel)).1 (by decide +kernel))

theorem test_bridgeServes_15 (h : Obligations.BridgeServes) : ∃ t, exec (Instr.brgStartStallEnd)
    { brgS.sf Rg.BRG_STATUS Fl.BRG_STATUS_STALL 1 with brg := { brgS.brg with stall := 3 } } = .next t :=
  ran ((h.2.2.2.2.2.2.2 { brgS.sf Rg.BRG_STATUS Fl.BRG_STATUS_STALL 1 with brg := { brgS.brg with stall := 3 } } (by decide +kernel)).2
      (by decide +kernel))

/-! ### KeysAndServices -/

theorem test_keysAndServices_1 (h : Obligations.KeysAndServices) : ∃ t, exec (Instr.keyReplace 9) ((runS.setSlot 9
    ⟨1, attrR, ⟨zeros 32, zeros 8, idKey⟩, none⟩).wrBytes Rg.KEY_REPL_BUF attrR) = .next t :=
  ran ((h.1 9 ((runS.setSlot 9 ⟨1, attrR, ⟨zeros 32, zeros 8, idKey⟩, none⟩).wrBytes Rg.KEY_REPL_BUF attrR) (by decide +kernel)).1
      (by decide +kernel))

theorem test_keysAndServices_2 (h : Obligations.KeysAndServices) : ∃ t, exec (Instr.keyReplace 9)
    { keyS 1 2 runS with keys := { (keyS 1 2 runS).keys with job := some ⟨9, [], 0⟩ } } = .next t :=
  ran ((h.1 9 { keyS 1 2 runS with keys := { (keyS 1 2 runS).keys with job := some ⟨9, [], 0⟩ } } (by decide +kernel)).2 (by decide +kernel))

theorem test_keysAndServices_3 (h : Obligations.KeysAndServices) : ∃ t, exec (Instr.keyReplaceVerified)
    { (keyS 1 2 runS).sf Rg.SEAL_STATUS Fl.SEAL_STATUS_SIGNING 1 with keys := { (keyS 1 2 runS).keys with job := some ⟨9, [9, 83], 0⟩ } } = .next t :=
  ran (h.2.1 ⟨9, [9, 83], 0⟩
      { (keyS 1 2 runS).sf Rg.SEAL_STATUS Fl.SEAL_STATUS_SIGNING 1 with keys := { (keyS 1 2 runS).keys with job := some ⟨9, [9, 83], 0⟩ } } rfl
      (by decide +kernel) (by decide +kernel))

theorem test_keysAndServices_4 (h : Obligations.KeysAndServices) : ∃ t, exec (Instr.keyReplaceVerified)
    { keyS 1 2 runS with keys := { (keyS 1 2 runS).keys with job := some ⟨9, payL 0, 0⟩, bad := [3] } } = .next t :=
  ran ((meet5 (h.2.2.1 ⟨9, payL 0, 0⟩ { keyS 1 2 runS with keys := { (keyS 1 2 runS).keys with job := some ⟨9, payL 0, 0⟩, bad := [3] } } rfl)
      (by decide +kernel)) (by unfold Safety.evRoom; decide +kernel))

theorem test_keysAndServices_5 (h : Obligations.KeysAndServices) : ∃ t, exec (Instr.keyReplaceVerified)
    { keyS 1 2 runS with keys := { (keyS 1 2 runS).keys with job := some ⟨9, payL 1, 0⟩ } } = .next t :=
  ran ((meet4 (h.2.2.2.1 ⟨9, payL 1, 0⟩ { keyS 1 2 runS with keys := { (keyS 1 2 runS).keys with job := some ⟨9, payL 1, 0⟩ } } rfl)
      (by decide +kernel)).1 _ rfl)

theorem test_keysAndServices_6 (h : Obligations.KeysAndServices) : ∃ t, exec (Instr.keyReplaceVerified)
    { keyS 1 2 runS with keys := { (keyS 1 2 runS).keys with job := some ⟨9, payL 2, 0⟩ } } = .next t :=
  ran ((meet4 (h.2.2.2.1 ⟨9, payL 2, 0⟩ { keyS 1 2 runS with keys := { (keyS 1 2 runS).keys with job := some ⟨9, payL 2, 0⟩ } } rfl)
      (by decide +kernel)).2 4 rfl (by unfold Safety.evRoom; decide +kernel))

theorem test_keysAndServices_7 (h : Obligations.KeysAndServices) : ∃ t, exec (Instr.keyDestroy 9) (keyS 1 2 runS) = .next t :=
  ran ((meet4 (h.2.2.2.2.1 9 (keyS 1 2 runS)) (by decide +kernel)).1 (by decide +kernel) (by decide +kernel))

theorem test_keysAndServices_8 (h : Obligations.KeysAndServices) : ∃ t, exec (Instr.keyDestroy 9) (runS.setSlot 9
    { st := 1, attr := List.take 7 (attr 2), act := { mat := [], kcv := [], pub := [] }, pend := none }) = .next t :=
  ran ((meet4 (h.2.2.2.2.1 9 (runS.setSlot 9 ⟨1, (attr 2).take 7, ⟨[], [], []⟩, none⟩)) (by decide +kernel)).2 (by decide +kernel))

theorem test_keysAndServices_9 (h : Obligations.KeysAndServices) : ∃ t, exec (Instr.keyZeroise 9) ((keyS 2 2 runS).sf (Rg.HOOP_BUDGET 3)
    Fl.HOOP_BUDGET_CYCLES 200) = .next t :=
  ran (meet3 (h.2.2.2.2.2.1 9 ((keyS 2 2 runS).sf (Rg.HOOP_BUDGET 3) Fl.HOOP_BUDGET_CYCLES 200) (by decide +kernel)).1 (by decide +kernel))

theorem test_keysAndServices_10 (h : Obligations.KeysAndServices) : ∃ t, exec (Instr.keyZeroise 9) (keyS 1 2 runS) = .next t :=
  ran ((h.2.2.2.2.2.1 9 (keyS 1 2 runS) (by decide +kernel)).2 (by decide +kernel))

theorem test_keysAndServices_11 (h : Obligations.KeysAndServices) : ∃ t, exec (Instr.macsecKeyDerive 5) ((((keyS 1 2 runS).sf (Rg.HOOP_BUDGET 3)
    Fl.HOOP_BUDGET_CYCLES 200).sf (Rg.KEY_MSEC_CFG 5) Fl.KEY_MSEC_CFG_ENABLE 1).sf (Rg.KEY_MSEC_CFG 5) Fl.KEY_MSEC_CFG_ROOT_SLOT 9) = .next t :=
  ran ((h.2.2.2.2.2.2.1 5 _ ((((keyS 1 2 runS).sf (Rg.HOOP_BUDGET 3) Fl.HOOP_BUDGET_CYCLES 200).sf (Rg.KEY_MSEC_CFG 5) Fl.KEY_MSEC_CFG_ENABLE 1).sf
      (Rg.KEY_MSEC_CFG 5) Fl.KEY_MSEC_CFG_ROOT_SLOT 9) (by decide +kernel) (by decide +kernel) rfl (by decide +kernel) (by decide +kernel)).1
      (by decide +kernel))

theorem test_keysAndServices_12 (h : Obligations.KeysAndServices) : ∃ t, exec (Instr.macsecKeyDerive 5) ((((keyS 0 2 runS).sf (Rg.HOOP_BUDGET 3)
    Fl.HOOP_BUDGET_CYCLES 200).sf (Rg.KEY_MSEC_CFG 5) Fl.KEY_MSEC_CFG_ENABLE 1).sf (Rg.KEY_MSEC_CFG 5) Fl.KEY_MSEC_CFG_ROOT_SLOT 9) = .next t :=
  ran ((h.2.2.2.2.2.2.1 5 _ ((((keyS 0 2 runS).sf (Rg.HOOP_BUDGET 3) Fl.HOOP_BUDGET_CYCLES 200).sf (Rg.KEY_MSEC_CFG 5) Fl.KEY_MSEC_CFG_ENABLE 1).sf
      (Rg.KEY_MSEC_CFG 5) Fl.KEY_MSEC_CFG_ROOT_SLOT 9) (by decide +kernel) (by decide +kernel) rfl (by decide +kernel) (by decide +kernel)).2
      (by decide +kernel))

theorem test_keysAndServices_13 (h : Obligations.KeysAndServices) : ∃ t, exec (Instr.svcGcmEncrypt) (svcS 1 1 []) = .next t :=
  ran (h.2.2.2.2.2.2.2.1 ((svcS 1 1 []).svcDesc 0) (zeros 32) (svcS 1 1 []) (by unfold Safety.svcReady; decide +kernel) (by decide +kernel)
      (by decide +kernel))

theorem test_keysAndServices_14 (h : Obligations.KeysAndServices) : ∃ t, exec (Instr.svcGcmDecrypt) (svcS 2 1 gTag) = .next t :=
  ran ((h.2.2.2.2.2.2.2.2.1 ((svcS 2 1 gTag).svcDesc 0) (zeros 32) (svcS 2 1 gTag) (by unfold Safety.svcReady; decide +kernel) (by decide +kernel)
      (by decide +kernel)).1 (by decide +kernel))

theorem test_keysAndServices_15 (h : Obligations.KeysAndServices) : ∃ t, exec (Instr.svcGcmDecrypt) (svcS 2 1 []) = .next t :=
  ran ((h.2.2.2.2.2.2.2.2.1 ((svcS 2 1 []).svcDesc 0) (zeros 32) (svcS 2 1 []) (by unfold Safety.svcReady; decide +kernel) (by decide +kernel)
      (by decide +kernel)).2 (by decide +kernel))

theorem test_keysAndServices_16 (h : Obligations.KeysAndServices) : ∃ t, exec (Instr.svcKmac) (svcS 3 2 []) = .next t :=
  ran (h.2.2.2.2.2.2.2.2.2.1 ((svcS 3 2 []).svcDesc 0) (svcS 3 2 []) (by unfold Safety.svcReady; decide +kernel) (by decide +kernel))

theorem test_keysAndServices_17 (h : Obligations.KeysAndServices) : ∃ t, exec (Instr.svcEd448Verify) (svcS 4 4 []) = .next t :=
  ran (h.2.2.2.2.2.2.2.2.2.2.1 ((svcS 4 4 []).svcDesc 0) (svcS 4 4 []) (by unfold Safety.svcReady; decide +kernel) (by decide +kernel))

theorem test_keysAndServices_18 (h : Obligations.KeysAndServices) : ∃ t, exec (Instr.svcDone)
    { runS with keys := { runS.keys with svc := some ⟨0x80, 1, 0x200, [1, 2], List.replicate 16 3, true⟩ } } = .next t :=
  ran (meet5 (h.2.2.2.2.2.2.2.2.2.2.2.1 ⟨0x80, 1, 0x200, [1, 2], List.replicate 16 3, true⟩
      { runS with keys := { runS.keys with svc := some ⟨0x80, 1, 0x200, [1, 2], List.replicate 16 3, true⟩ } } rfl) (by decide +kernel))

theorem test_keysAndServices_19 (h : Obligations.KeysAndServices) : ∃ t, exec (Instr.svcDone)
    { runS.sf Rg.SEAL_STATUS Fl.SEAL_STATUS_SIGNING 1 with keys := { runS.keys with svc := some ⟨0x80, 1, 0x200, [], [], true⟩ } } = .next t :=
  ran (h.2.2.2.2.2.2.2.2.2.2.2.2 ⟨0x80, 1, 0x200, [], [], true⟩
      { runS.sf Rg.SEAL_STATUS Fl.SEAL_STATUS_SIGNING 1 with keys := { runS.keys with svc := some ⟨0x80, 1, 0x200, [], [], true⟩ } } rfl
      (by decide +kernel) (by decide +kernel))

/-! ### SealUnit -/

theorem test_sealUnit_1 (h : Obligations.SealUnit) : ∃ t, exec (Instr.evidenceForm) { sealS with evQ := [evF] } = .next t :=
  ran (meet4 (h.1 evF [] { sealS with evQ := [evF] } rfl (by decide +kernel) (by unfold Safety.sound; decide +kernel)).1 (by decide +kernel))

theorem test_sealUnit_2 (h : Obligations.SealUnit) : ∃ t, exec (Instr.evidenceForm)
    { bufS (List.replicate 8191 (item true true 256)) with evQ := [evF] } = .next t :=
  ran (meet3 (h.1 evF [] { bufS (List.replicate 8191 (item true true 256)) with evQ := [evF] } rfl (by decide +kernel)
      (by unfold Safety.sound; decide +kernel)).2.1 (by decide +kernel))

theorem test_sealUnit_3 (h : Obligations.SealUnit) : ∃ t, exec (Instr.evidenceForm)
    { sealS.sf Rg.SEAL_STATUS Fl.SEAL_STATUS_HALT_CAUSE 2 with evQ := [evF] } = .next t :=
  ran ((h.1 evF [] { sealS.sf Rg.SEAL_STATUS Fl.SEAL_STATUS_HALT_CAUSE 2 with evQ := [evF] } rfl (by decide +kernel)
      (by unfold Safety.sound; decide +kernel)).2.2 (by decide +kernel))

theorem test_sealUnit_4 (h : Obligations.SealUnit) : ∃ t, exec (Instr.sealSigned) ((bufS [item false true 128, item true false 128]).sf
    Rg.SEAL_STATUS Fl.SEAL_STATUS_SIGNING 1) = .next t :=
  ran (meet3 (h.2.1 [item false true 128] (item true false 128) ((bufS [item false true 128, item true false 128]).sf Rg.SEAL_STATUS
      Fl.SEAL_STATUS_SIGNING 1) (by decide +kernel) (by decide +kernel) rfl rfl) (by decide +kernel))

theorem test_sealUnit_5 (h : Obligations.SealUnit) : ∃ t, exec (Instr.sealSigned) (sealS) = .next t :=
  ran (h.2.2.1 sealS (by decide +kernel))

theorem test_sealUnit_6 (h : Obligations.SealUnit) : ∃ t, exec (Instr.flashProgramComplete true) (openS 1 true) = .next t :=
  ran ((h.2.2.2.1 (item false true 128) [] (openS 1 true) (by unfold Safety.storeTakes; decide +kernel)).1 (by decide +kernel))

theorem test_sealUnit_7 (h : Obligations.SealUnit) : ∃ t, exec (Instr.flashProgramComplete true) (openS 1 false) = .next t :=
  ran ((h.2.2.2.1 (item false true 128) [] (openS 1 false) (by unfold Safety.storeTakes; decide +kernel)).2.1 (by decide +kernel) (by decide +kernel))

theorem test_sealUnit_8 (h : Obligations.SealUnit) : ∃ t, exec (Instr.flashProgramComplete false) (openS 1 true) = .next t :=
  ran ((h.2.2.2.1 (item false true 128) [] (openS 1 true) (by unfold Safety.storeTakes; decide +kernel)).2.2 (by decide +kernel)
      (by unfold Safety.evRoom; decide +kernel))

theorem test_sealUnit_9 (h : Obligations.SealUnit) : ∃ t, exec (Instr.blockEraseComplete 9 true)
    { sealS with chain := { sealS.chain with again := [9] } } = .next t :=
  ran ((meet4 (h.2.2.2.2.1 9 { sealS with chain := { sealS.chain with again := [9] } }) (by decide +kernel)).1)

theorem test_sealUnit_10 (h : Obligations.SealUnit) : ∃ t, exec (Instr.blockEraseComplete 9 false)
    { sealS with chain := { sealS.chain with again := [9] } } = .next t :=
  ran ((meet4 (h.2.2.2.2.1 9 { sealS with chain := { sealS.chain with again := [9] } }) (by decide +kernel)).2
      (by unfold Safety.evRoom; decide +kernel))

theorem test_sealUnit_11 (h : Obligations.SealUnit) : ∃ t, exec (Instr.restartRecordForm) (sealS.sf Rg.SEAL_STATUS Fl.SEAL_STATUS_READY 0) = .next t
    :=
  ran ((meet7 (h.2.2.2.2.2.1 (sealS.sf Rg.SEAL_STATUS Fl.SEAL_STATUS_READY 0)) (by decide +kernel)) (by unfold Safety.evRoom; decide +kernel)
      (by decide +kernel) (by decide +kernel))

theorem test_sealUnit_12 (h : Obligations.SealUnit) : ∃ t, exec (Instr.tailSeal)
    ({ sealS with pwr := { sealS.pwr with phase := .flush }, chain := { sealS.chain with prog := 4, progHead := zeros 64 } }.sf Rg.SEAL_STATUS
    Fl.SEAL_STATUS_READY 1) = .next t :=
  ran (meet6 (meet6 (h.2.2.2.2.2.2
      ({ sealS with pwr := { sealS.pwr with phase := .flush }, chain := { sealS.chain with prog := 4, progHead := zeros 64 } }.sf Rg.SEAL_STATUS
      Fl.SEAL_STATUS_READY 1)) (by decide +kernel)).1 (by decide +kernel))

theorem test_sealUnit_13 (h : Obligations.SealUnit) : ∃ t, exec (Instr.tailSeal) { inPhase .flush with chain := { chainInit with prog := 4 } } =
    .next t :=
  ran (meet3 (meet6 (h.2.2.2.2.2.2 { inPhase .flush with chain := { chainInit with prog := 4 } }) (by decide +kernel)).2.1 (by decide +kernel))

theorem test_sealUnit_14 (h : Obligations.SealUnit) : ∃ t, exec (Instr.tailSeal) { sealS with pwr := { sealS.pwr with phase := .flush } } = .next t :=
  ran ((meet6 (h.2.2.2.2.2.2 { sealS with pwr := { sealS.pwr with phase := .flush } }) (by decide +kernel)).2.2 (by decide +kernel))

/-! ### EveryStepKeeps -/

theorem test_everyStepKeeps (h : Obligations.EveryStepKeeps) (e : step runS = .next (runS.advance 1).injectDue) :
    Memory.wf (runS.advance 1).injectDue = true := (h runS (runS.advance 1).injectDue e).1 (by decide +kernel)

theorem test_everyStepKeeps_meets : step State.reset = .next State.reset ∧ Memory.wf State.reset = true := ⟨rfl, by decide +kernel⟩

/-! ### BobbinWordsAgree -/

theorem test_bobbinWordsAgree_1 (h : Obligations.BobbinWordsAgree) : bobWord 3 17436928 = some (.bAdd 3 ⟨0, false⟩ 5 1 2) :=
  (h.1 _ 3 17436928 (by decide +kernel) (by decide +kernel)).2

theorem test_bobbinWordsAgree_2 (h : Obligations.BobbinWordsAgree) : bobEnc (.bAdd 3 ⟨0, false⟩ 5 1 2) = some (3, 17436928) :=
  (h.2 3 17436928 _ (by decide +kernel) (by decide +kernel)).2

end Sys2Proof.Tests
end

section
namespace Sys2Proof.Machine
open Sys2Proof.Safety

/-! # What the proofs of the obligations share: the passing of time and the end of the cycle, word by word; how many events they report;
what a command that completes leaves -/

/-! ## Bits and bytes -/

theorem bitOf_eq_testBit (v i : Nat) : bitOf v i = v.testBit i := by
  rw [Nat.testBit_eq_decide_div_mod_eq]; rfl

theorem ofLe_leBytes (n v : Nat) : ofLe (leBytes n v) = v % 2 ^ (8 * n) := by
  induction n generalizing v with
  | zero => simp [leBytes, ofLe, Nat.mod_one]
  | succ n ih =>
    have h : ofLe (leBytes (n + 1) v) = v % 256 + 256 * ofLe (leBytes n (v / 256)) := by
      simp [leBytes, ofLe]
    rw [h, ih, Nat.mul_succ, Nat.pow_add, Nat.mul_comm (2 ^ (8 * n)), Nat.mod_mul]

/-! ## Frames -/

theorem OnlyTime.mono {c c' : Nat → Prop} {s t : State} (h : OnlyTime c s t) (hc : ∀ a, c a → c' a) : OnlyTime c' s t := by
  obtain ⟨r, e, k, n, l, m, q, rfl, h⟩ := h
  exact ⟨r, e, k, n, l, m, q, rfl, fun a d x => h a d (fun y => x (hc a y))⟩

theorem OnlyTime.sget {c : Nat → Prop} {s t : State} (h : OnlyTime c s t) {a : Nat} (n : ¬ c a) (d : Word) :
    Machine.sget t.regs a d = Machine.sget s.regs a d := by
  obtain ⟨r, e, k, _, _, _, _, rfl, h⟩ := h
  exact h a d n

theorem OnlyTime.fd {c : Nat → Prop} {s t : State} (h : OnlyTime c s t) {q : Reg} {f : Fld} (n : ¬ c (q.addr + 4 * (f.lo / 32))) :
    t.fd q f = s.fd q f := by
  unfold State.fd
  rw [h.rd (by simpa using n)]

/-- The words that counting by `k` may change: the counter, its HALF and OVER words, its interrupt status, and those of event reporting. -/
def cntReg (k : CntAt) (a : Nat) : Prop :=
  evtReg a ∨ a = k.cnt.addr ∨ a = k.half.addr + 4 * (k.bit / 32) ∨ a = k.ovf.addr + 4 * (k.bit / 32) ∨
    a = k.ist.addr + 4 * (k.istBit / 32)

theorem onlyRegsEv_cntReg (s : State) (k : CntAt) (n : Nat) : OnlyRegsEv (cntReg k) s (s.count k n) :=
  onlyRegsEv_count s k n (fun _ => .inl) (.inr (.inl rfl)) (.inr (.inr (.inl rfl))) (.inr (.inr (.inr (.inl rfl))))
    (.inr (.inr (.inr (.inr rfl))))

/-- The words of the CAN ports that a happening counted by counter `i` may change: the counter, HALF and OVER, INT_STATUS and PRIO_CTRL. -/
def canLossReg (i a : Nat) : Prop :=
  evtReg a ∨ a / 0x10000 = 0x1012 ∧ (a % 0x1000 = 0x100 + 4 * i ∨ 0x24 ≤ a % 0x1000 ∧ a % 0x1000 < 0x40)

/-- The words that the loss of a capture record may change: TIME_TSQ_OVF. -/
def tsLossReg (a : Nat) : Prop := evtReg a ∨ 0x10010400 ≤ a ∧ a < 0x100104C0

/-- The words that the losses of capture records and of messages for the management FIFOs may change. -/
def dropReg (a : Nat) : Prop := tsLossReg a ∨ canLossReg 7 a

/-- The words that the end of the cycle may change (R44, R112, R113, R117, R166). -/
def settleReg (a : Nat) : Prop := dropReg a ∨ canLossReg 8 a ∨ canLossReg 11 a ∨ cntReg (tblC 5) a

/-- The words of the time base that move with TIME_RAW and the slew: TIME_STATUS, TIME_RAW, TIME_OFFSET with its fraction, TIME_ADJ_REMAIN. -/
def slewReg (a : Nat) : Prop := evtReg a ∨ 0x10010004 ≤ a ∧ a ≤ 0x10010018 ∨ a = 0x1001003C

/-- The words that the passing of time may change. -/
def lapseReg (a : Nat) : Prop := settleReg a ∨ slewReg a

theorem onlyTime_tsLossReg (s : State) (p : Fin 48) : OnlyTime tsLossReg s (s.tsLose p.val) := by
  have hp := p.isLt
  have h1 : OnlyRegsEv tsLossReg s (s.incr (Rg.TIME_TSQ_OVF p.val)) :=
    onlyRegsEv_wr s _ _ (.inr (by simp only [Rg.TIME_TSQ_OVF]; omega))
  exact (h1.time.trans (onlyTime_tsqLost _ _ _)).trans ((onlyRegsEv_raiseFirst _ _ _ _ _).mono (fun _ => .inl)).time

theorem onlyRegsEv_canCount (s : State) (n : Fin 16) (i : Nat) (hi : i < 32) :
    OnlyRegsEv (canLossReg i) s (s.count (canC (32 + n.val) i)) := by
  have hn := n.isLt
  refine (onlyRegsEv_cntReg s _ 1).mono (fun a ha => ?_)
  simp only [cntReg, canC, Rg.CAN_CNT, Rg.CAN_CNT_HALF, Rg.CAN_CNT_OVER, Rg.CAN_INT_STATUS] at ha
  exact ha.imp_right (fun ha => by omega)

theorem onlyRegsEv_canStatusBit (s : State) (n : Fin 16) (i b : Nat) (hb : b < 32) :
    OnlyRegsEv (canLossReg i) s (s.setBit (Rg.CAN_INT_STATUS (32 + n.val)) b) := by
  have hn := n.isLt
  refine onlyRegsEv_setBit s _ _ (.inr ?_)
  simp only [Rg.CAN_INT_STATUS]
  omega

theorem onlyRegsEv_mfDrop (s : State) (n : Fin 16) (f : Nat) : OnlyRegsEv (canLossReg 7) s (s.mfDrop (32 + n.val) f) :=
  ((onlyRegsEv_canCount s n 7 (by decide)).trans (onlyRegsEv_canStatusBit _ n 7 4 (by decide))).trans
    ((onlyRegsEv_raiseFirst _ _ _ _ _).mono (fun _ => .inl))

theorem onlyRegsEv_mtxCancelled (s : State) (n : Fin 16) : OnlyRegsEv (canLossReg 11) s (s.mtxCancelled (32 + n.val)) :=
  (onlyRegsEv_canCount s n 11 (by decide)).trans (onlyRegsEv_canStatusBit _ n 11 5 (by decide))

theorem onlyRegsEv_prioOverrun (s : State) (n : Fin 16) (k : Fin 4) : OnlyRegsEv (canLossReg 8) s (s.prioOverrun (32 + n.val) k.val) := by
  have hn := n.isLt
  have hk := k.isLt
  refine ((onlyRegsEv_canCount s n 8 (by decide)).trans (onlyRegsEv_sf (c := canLossReg 8) _ _ _ _ (.inr ?_))).trans
    ((onlyRegsEv_raiseFirst _ _ _ _ _).mono (fun _ => .inl))
  simp only [Rg.CAN_PRIO_CTRL, Fl.CAN_PRIO_CTRL_OVR]
  omega

theorem onlyTime_ageSettleReg (s : State) (w : Nat × Nat × Bytes) : OnlyTime (cntReg (tblC 5)) s (s.ageSettle w) := by
  unfold State.ageSettle
  split
  · exact .refl _ _
  · split
    · exact onlyTime_setRam _ _ _ _
    · exact (onlyTime_setRam _ _ _ _).trans (onlyRegsEv_cntReg _ (tblC 5) 1).time

/-- The losses of capture records and of CAN messages: the part of the end of the cycle before its ageing visits. -/
def State.dropLosses (s : State) : State :=
  s.cyc.mfWait.foldl (fun t w => t.mfDrop (32 + w.1.val) w.2.1) (s.cyc.tsWait.foldl (fun t w => t.tsLose w.1.val) s)

/-- The part of the end of the cycle after its ageing visits, on the state `u` those leave. -/
def State.cancelLosses (s u : State) : State :=
  s.cyc.cancels.foldl (fun t w => t.mtxCancelled (32 + w.1.val)) u

def State.overrunLosses (s u : State) : State :=
  s.cyc.prioOver.foldl (fun t w => t.prioOverrun (32 + w.1.val) w.2.val) u

theorem cycleEnd_eq (s : State) : s.cycleEnd =
    { s.overrunLosses (s.cancelLosses (s.cyc.ages.foldl State.ageSettle s.dropLosses)) with cyc := cycInit } := rfl

theorem onlyTime_dropLosses (s : State) : OnlyTime dropReg s s.dropLosses := by
  have h1 : OnlyTime dropReg s (s.cyc.tsWait.foldl (fun t w => t.tsLose w.1.val) s) :=
    onlyTime_foldl _ (fun t (w : Fin 48 × Nat × Int) => (onlyTime_tsLossReg t w.1).mono (fun _ => .inl)) _ _
  exact h1.trans (onlyTime_foldl _ (fun t (w : Fin 16 × Nat × Bytes) => (onlyRegsEv_mfDrop t w.1 w.2.1).time.mono (fun _ => .inr)) _ _)

theorem onlyTime_ages (l : List (Nat × Nat × Bytes)) (u : State) : OnlyTime (cntReg (tblC 5)) u (l.foldl State.ageSettle u) :=
  onlyTime_foldl _ onlyTime_ageSettleReg _ _

theorem onlyTime_cancelLosses (s u : State) : OnlyTime (canLossReg 11) u (s.cancelLosses u) :=
  onlyTime_foldl _ (fun t (w : Fin 16 × Fin 16) => (onlyRegsEv_mtxCancelled t w.1).time) _ _

theorem onlyTime_overrunLosses (s u : State) : OnlyTime (canLossReg 8) u (s.overrunLosses u) :=
  onlyTime_foldl _ (fun t (w : Fin 16 × Fin 4) => (onlyRegsEv_prioOverrun t w.1 w.2).time) _ _

/-- The end of the cycle changes no register word outside those where losses are counted. -/
theorem onlyTime_settle (s : State) : OnlyTime settleReg s s.cycleEnd := by
  rw [cycleEnd_eq]
  have h1 : OnlyTime settleReg s s.dropLosses := (onlyTime_dropLosses s).mono fun _ => .inl
  have h2 := h1.trans ((onlyTime_ages s.cyc.ages _).mono fun _ h => .inr (.inr (.inr h)))
  have h3 := h2.trans ((onlyTime_cancelLosses s _).mono fun _ h => .inr (.inr (.inl h)))
  have h4 := h3.trans ((onlyTime_overrunLosses s _).mono fun _ h => .inr (.inl h))
  exact h4.trans (onlyRegsEv_cyc _ _ _).time

/-! ## The passing of time, word by word -/

theorem onlyTime_slewWr (s : State) (r : Reg) (v : Nat) (h : slewReg r.addr) : OnlyTime slewReg s (s.wr r v) := (onlyRegsEv_wr s r v h).time

theorem onlyTime_slewReg (s : State) (n : Nat) : OnlyTime slewReg s (s.slew n) := by
  have hoff (u : State) (v : Int) : OnlyTime slewReg u (u.setOffset v) :=
    ((onlyTime_slewWr u _ _ (.inr (by decide))).trans (onlyTime_slewWr _ _ _ (.inr (by decide)))).trans (onlyTime_slewWr _ _ _ (.inr (by decide)))
  have hshow (u : State) : OnlyTime slewReg u u.showSlew :=
    (onlyTime_slewWr u _ _ (.inr (by decide))).trans (onlyTime_slewWr _ _ _ (.inr (by decide)))
  unfold State.slew
  split
  · exact .refl _ _
  · simp only
    split
    · exact (((hoff s _).trans (onlyTime_clk _ _ _)).trans (hshow _)).trans ((onlyRegsEv_raise _ _ _ _).mono (fun _ => .inl)).time
    · exact ((hoff s _).trans (onlyTime_clk _ _ _)).trans (hshow _)

theorem onlyTime_noteDueAny (c : Nat → Prop) (t s : State) : OnlyTime c t (t.noteDue s) := by
  unfold State.noteDue
  split
  · exact .refl _ _
  · exact (onlyRegsEv_late c t _).time

/-- Beside the end of the cycle, the passing of time changes the words of the time base alone. -/
theorem onlyTime_afterCycle (s : State) (n : Nat) (h : s.rawSteps n ≠ 0) : OnlyTime slewReg s.cycleEnd (s.advance n) := by
  rw [State.advance, if_neg h]
  exact (((onlyTime_slewWr _ _ _ (.inr (by decide))).trans (onlyTime_slewWr _ _ _ (.inr (by decide)))).trans
    (onlyTime_slewReg _ _)).trans (onlyTime_noteDueAny _ _ _)

/-- The passing of time changes no register word outside `lapseReg`. -/
theorem onlyTime_lapse (s : State) (n : Nat) : OnlyTime lapseReg s (s.advance n) := by
  by_cases h : s.rawSteps n = 0
  · rw [State.advance, if_pos h]
    exact .refl _ _
  · exact ((onlyTime_settle s).mono fun _ => .inl).trans ((onlyTime_afterCycle s n h).mono fun _ => .inr)

theorem rd_lapse (s : State) (n : Nat) {q : Reg} (h : ¬ lapseReg q.addr) : (s.advance n).rd q = s.rd q := (onlyTime_lapse s n).rd h

theorem fd_lapse (s : State) (n : Nat) {q : Reg} {f : Fld} (h : ¬ lapseReg (q.addr + 4 * (f.lo / 32))) :
    (s.advance n).fd q f = s.fd q f := (onlyTime_lapse s n).fd h

/-- The words that the passing of time may change, as addresses: a goal about one register is then left to `omega`. -/
theorem lapseReg_iff (a : Nat) : lapseReg a ↔
    a = 0x10000020 ∨ a / 0x10000 = 0x10A0 ∨ 0x10010400 ≤ a ∧ a < 0x100104C0 ∨
    a / 0x10000 = 0x1012 ∧ (a % 0x1000 = 0x11C ∨ a % 0x1000 = 0x120 ∨ a % 0x1000 = 0x12C ∨ 0x24 ≤ a % 0x1000 ∧ a % 0x1000 < 0x40) ∨
    a = 0x10300514 ∨ a = 0x10300540 ∨ a = 0x10300544 ∨ a = 0x10300018 ∨ 0x10010004 ≤ a ∧ a ≤ 0x10010018 ∨ a = 0x1001003C := by
  simp only [lapseReg, settleReg, dropReg, tsLossReg, canLossReg, cntReg, slewReg, evtReg, tblC, Rg.SYS_EVT_LOST, Rg.TBL_CNT, Rg.TBL_CNT_HALF,
    Rg.TBL_CNT_OVER, Rg.TBL_INT_STATUS]
  omega

theorem sram_slew (s : State) (n : Nat) : (s.slew n).sram = s.sram := by
  unfold State.slew State.showSlew
  split
  · rfl
  · simp only
    split <;> simp

theorem sram_noteDue (t s : State) : (t.noteDue s).sram = t.sram := by
  unfold State.noteDue
  split <;> rfl

theorem sameRam_advance (s : State) (n : Nat) : sameRam s (s.advance n) := by
  unfold State.advance
  split
  · exact .inl rfl
  · exact .inr (by rw [sram_noteDue, sram_slew, State.wr64_sram])

theorem sameMemories_advance (s : State) (n : Nat) : sameMemories s (s.advance n) :=
  ⟨sameRam_advance s n, by simp, by simp, by simp⟩

theorem clockWord_of_slewReg {a : Nat} (h : slewReg a) : clockWord a := by
  simp only [slewReg, evtReg, Rg.SYS_EVT_LOST] at h
  simp only [clockWord, Rg.SYS_EVT_LOST]
  omega

theorem clockWord_of_evtReg {a : Nat} (h : evtReg a) : clockWord a := clockWord_of_slewReg (.inl h)

theorem sameRegs_advance (s : State) (n : Nat) : sameRegs clockWord s (s.advance n) := by
  intro a ha d
  by_cases h : s.rawSteps n = 0
  · rw [State.advance, if_pos h]
    exact .inl rfl
  · exact .inr ((onlyTime_afterCycle s n h).sget (fun k => ha (clockWord_of_slewReg k)) d)

/-! ## How many events a report adds -/

/-- At most `k` more events wait in `t` than in `s`, and the hits of the cycle are the same. -/
def Notes (k : Nat) (s t : State) : Prop := t.ev.queue.length ≤ s.ev.queue.length + k ∧ t.cyc.hits = s.cyc.hits

theorem Notes.refl (k : Nat) (s : State) : Notes k s s := ⟨Nat.le_add_right _ _, rfl⟩

theorem Notes.trans {j k : Nat} {s t u : State} (h : Notes j s t) (g : Notes k t u) : Notes (j + k) s u := by
  obtain ⟨h1, h2⟩ := h
  obtain ⟨g1, g2⟩ := g
  exact ⟨by omega, g2.trans h2⟩

theorem Notes.mono {j k : Nat} {s t : State} (h : Notes j s t) (hjk : j ≤ k) : Notes k s t := ⟨by have := h.1; omega, h.2⟩

theorem notes_foldl {α : Type} {k : Nat} (f : State → α → State) (h : ∀ s x, Notes k s (f s x)) (l : List α) (s : State) :
    Notes (k * l.length) s (l.foldl f s) := by
  induction l generalizing s with
  | nil => exact .refl _ _
  | cons x l ih => exact ((h s x).trans (ih _)).mono (by rw [List.length_cons, Nat.mul_succ]; omega)

theorem notes_of_eq {s t : State} (he : t.ev = s.ev) (hh : t.cyc.hits = s.cyc.hits) : Notes 0 s t := ⟨by rw [he]; simp, hh⟩

theorem notes_wr (s : State) (r : Reg) (v : Nat) : Notes 0 s (s.wr r v) := notes_of_eq rfl rfl

theorem notes_sf (s : State) (r : Reg) (f : Fld) (x : Nat) : Notes 0 s (s.sf r f x) := notes_of_eq rfl rfl

theorem notes_setBit (s : State) (r : Reg) (i : Nat) : Notes 0 s (s.setBit r i) := notes_of_eq rfl rfl

theorem notes_setRam (s : State) (a : Nat) (b : Bytes) : Notes 0 s (s.setRam a b) := notes_of_eq rfl rfl

theorem notes_queueEv (s : State) (e : Ev) : Notes 1 s (s.queueEv e) := by
  unfold State.queueEv
  split
  · exact ⟨by simp, rfl⟩
  · exact .refl _ _

theorem notes_eyeLoseOne (s : State) : Notes 0 s s.eyeLoseOne.1 := by
  refine ⟨by simp [queue_eyeLoseOne], ?_⟩
  unfold State.eyeLoseOne
  simp only
  split
  · rfl
  · split <;> rfl

theorem notes_eyeCopy (s : State) (e : Ev) : Notes 1 s (s.eyeCopy e) := by
  unfold State.eyeCopy
  split
  · split
    · exact .refl _ _
    · have h := notes_eyeLoseOne s
      unfold State.eyeLose
      simp only
      split
      · exact h.mono (by decide)
      · split
        · exact (h.trans (notes_queueEv _ _)).trans (notes_eyeLoseOne _)
        · exact h.trans (notes_queueEv _ _)
  · exact .refl _ _

theorem notes_raise (s : State) (c p d : Nat) : Notes 2 s (s.raise c p d) := (notes_queueEv s _).trans (notes_eyeCopy _ _)

theorem notes_raiseFirst (s : State) (c b p d : Nat) : Notes 2 s (s.raiseFirst c b p d) := by
  unfold State.raiseFirst State.mark
  simp only
  split
  · exact (Notes.refl 0 _).trans (notes_raise _ _ _ _)
  · exact .refl _ _

theorem notes_noteCount (s : State) (a n : Nat) : Notes 0 s (s.noteCount a n) := by
  unfold State.noteCount
  split <;> exact .refl _ _

theorem notes_count (s : State) (k : CntAt) (n : Nat) : Notes 2 s (s.count k n) := by
  have h := (notes_wr s k.cnt (s.rd k.cnt + n)).trans (notes_noteCount _ k.cnt.addr n)
  unfold State.count
  simp only
  split
  · exact h.mono (by decide)
  · split
    · exact ((h.trans (notes_setBit _ _ _)).trans (notes_setBit _ _ _)).trans (notes_raise _ _ _ _)
    · exact (h.trans (notes_setBit _ _ _)).mono (by decide)

theorem notes_tsLose (s : State) (p : Nat) : Notes 2 s (s.tsLose p) := by
  have hlost (u : State) (q : List (Nat × Nat)) : Notes 0 u { u with tsqLost := q } := notes_of_eq rfl rfl
  exact ((notes_wr s (Rg.TIME_TSQ_OVF p) _).trans (hlost _ _)).trans (notes_raiseFirst _ _ _ _ _)

theorem notes_mfDrop (s : State) (p f : Nat) : Notes 4 s (s.mfDrop p f) :=
  ((notes_count s _ 1).trans (notes_setBit _ _ _)).trans (notes_raiseFirst _ _ _ _ _)

theorem notes_mtxCancelled (s : State) (p : Nat) : Notes 4 s (s.mtxCancelled p) :=
  ((notes_count s _ 1).trans (notes_setBit _ _ _)).mono (by decide)

theorem notes_prioOverrun (s : State) (p k : Nat) : Notes 4 s (s.prioOverrun p k) :=
  ((notes_count s _ 1).trans (notes_sf _ _ _ _)).trans (notes_raiseFirst _ _ _ _ _)

theorem notes_ageSettle (s : State) (w : Nat × Nat × Bytes) : Notes 4 s (s.ageSettle w) := by
  unfold State.ageSettle
  split
  · exact .refl _ _
  · split
    · exact (notes_setRam _ _ _).mono (by decide)
    · exact ((notes_setRam _ _ _).trans (notes_count _ _ 1)).mono (by decide)

theorem notes_dropLosses (s : State) : Notes (4 * s.cyc.tsWait.length + 4 * s.cyc.mfWait.length) s s.dropLosses :=
  (notes_foldl _ (fun t (w : Fin 48 × Nat × Int) => (notes_tsLose t w.1.val).mono (by decide)) _ _).trans
    (notes_foldl _ (fun t (w : Fin 16 × Nat × Bytes) => notes_mfDrop t _ _) _ _)

/-- The end of the cycle reports at most four events for each thing it settles. -/
theorem queue_cycleEnd (s : State) : s.cycleEnd.ev.queue.length ≤ s.ev.queue.length + 4 * heldBack s := by
  have h2 := notes_dropLosses s
  have h3 := notes_foldl _ notes_ageSettle s.cyc.ages s.dropLosses
  have h4 := notes_foldl _ (fun t (w : Fin 16 × Fin 16) => notes_mtxCancelled t (32 + w.1.val)) s.cyc.cancels
    (s.cyc.ages.foldl State.ageSettle s.dropLosses)
  have h5 := notes_foldl _ (fun t (w : Fin 16 × Fin 4) => notes_prioOverrun t (32 + w.1.val) w.2.val) s.cyc.prioOver
    (s.cancelLosses (s.cyc.ages.foldl State.ageSettle s.dropLosses))
  have h := ((h2.trans h3).trans h4).trans h5
  rw [cycleEnd_eq]
  refine Nat.le_trans h.1 ?_
  unfold heldBack
  omega

theorem notes_slew (s : State) (n : Nat) : Notes 2 s (s.slew n) := by
  have hoff (u : State) (v : Int) : Notes 0 u (u.setOffset v) := notes_of_eq rfl rfl
  have hclk (u : State) (k : Clock) : Notes 0 u { u with clk := k } := notes_of_eq rfl rfl
  have hshow (u : State) : Notes 0 u u.showSlew := (notes_wr u _ _).trans (notes_sf _ _ _ _)
  unfold State.slew
  split
  · exact .refl _ _
  · simp only
    split
    · exact (((hoff s _).trans (hclk _ _)).trans (hshow _)).trans (notes_raise _ _ _ _)
    · exact (((hoff s _).trans (hclk _ _)).trans (hshow _)).mono (by decide)

theorem queue_noteDue (t s : State) : (t.noteDue s).ev.queue = t.ev.queue := by
  unfold State.noteDue
  split <;> rfl

/-- The passing of time reports what the end of the cycle settles, and the end of a slew. -/
theorem queue_advance (s : State) (n : Nat) : (s.advance n).ev.queue.length ≤ s.ev.queue.length + 4 * heldBack s + 2 := by
  unfold State.advance
  split
  · omega
  · have h1 := queue_cycleEnd s
    have h2 := (notes_slew (s.cycleEnd.wr64 Rg.TIME_RAW (s.raw + s.rawSteps n)) (s.rawSteps n)).1
    rw [queue_noteDue]
    rw [State.wr64_ev] at h2
    omega

/-- An event raised after time has passed waits in the queue, where that had room before. -/
theorem raised_after_advance {s t : State} {c p d n : Nat} (hr : evRoom s 8) (ht : t.ev.queue.length ≤ (s.advance n).ev.queue.length) :
    raised (t.raise c p d) c p d := by
  have h := queue_advance s n
  unfold evRoom at hr
  exact ⟨_, raise_mem t c p d (by omega), rfl, rfl, rfl⟩

/-! ## Running commands -/

theorem completes_of_next {c : Instr} {s t : State} {P : State → Prop} (h : exec c s = .next t) (hP : P t) : completes c s P := ⟨t, h, hP⟩

theorem fw_of_coresRun {s : State} (h : s.coresRun = true) (f : State → State) : s.fw f = f s := by
  unfold State.fw
  rw [if_pos h]

@[simp] theorem coresRun_advance (s : State) (n : Nat) : (s.advance n).coresRun = s.coresRun := by simp [State.coresRun]

theorem fatalAct_of_not_fatal {s : State} (h : s.pwr.fatal = false) : s.fatalAct = s := by simp [State.fatalAct, h]

theorem completes_registerWrite {l : Nat} {a : Word} {x : CoreStore} {s : State} {P : State → Prop} (hr : s.coresRun = true)
    (hf : ((s.advance l).coreStore a.toNat x).pwr.fatal = false) (hP : P ((s.advance l).coreStore a.toNat x)) :
    completes (.registerWrite l a x) s P := by
  refine completes_of_next (t := (s.advance l).coreStore a.toNat x) ?_ hP
  show Host.Outcome.next ((s.advance l).fw (·.coreStore a.toNat x)).fatalAct = _
  rw [fw_of_coresRun (by simpa using hr), fatalAct_of_not_fatal hf]

theorem completes_reg64LowRead {l : Nat} {x : CoreLoad} {s : State} {P : State → Prop} (hr : s.coresRun = true)
    (hf : ((s.advance l).coreLoad x).pwr.fatal = false) (hP : P ((s.advance l).coreLoad x)) :
    completes (.reg64LowRead l x) s P := by
  refine completes_of_next (t := (s.advance l).coreLoad x) ?_ hP
  show Host.Outcome.next ((s.advance l).fw (·.coreLoad x)).fatalAct = _
  rw [fw_of_coresRun (by simpa using hr), fatalAct_of_not_fatal hf]

end Sys2Proof.Machine

namespace Sys2Proof.Safety
open Sys2Proof.Machine

/-- An operation after the passing of time that changes no further words. -/
theorem sameRegs.then {c : Nat → Prop} {s t u : State} (h : sameRegs c s t) (k : ∀ a, ¬ c a → ∀ d, sget u.regs a d = sget t.regs a d) :
    sameRegs c s u := fun a ha d => by rw [k a ha d]; exact h a ha d

theorem sameMemories.then {s t u : State} (h : sameMemories s t) (h1 : u.sram = t.sram) (h2 : u.mgmt = t.mgmt) (h3 : u.ospi0 = t.ospi0)
    (h4 : u.ospi1 = t.ospi1) : sameMemories s u := by
  obtain ⟨hr, hm, h0, h1'⟩ := h
  exact ⟨by unfold sameRam; rw [h1]; exact hr, h2.trans hm, h3.trans h0, h4.trans h1'⟩

end Sys2Proof.Safety
end

section
namespace Sys2Proof.Machine
open Sys2Proof.Safety

/-! ## Register writes of one word -/

/-- A plain 32-bit store to a mapped register reaches its block. -/
theorem coreStore_word (s : State) (a : Nat) (v : Word) (h0 : 0x10000000 ≤ a) (h4 : a % 4 = 0) (hm : mapped a = true) :
    s.coreStore a (.word v) = s.blockWrite a v.toNat := by
  have hv : (v.setWidth 64).toNat % 2 ^ 32 = v.toNat := by simp [v.isLt]
  simp only [State.coreStore, CoreStore.word, Width.bytes, if_true, hv, State.regWrite, hm]
  rw [if_neg (by omega), if_neg (by simp [h4])]

/-- A write of a row that holds no writable field is ignored and reported (R7). -/
theorem plainWrite_readOnly {s : State} {a v o w : Nat} {rows : List RegD} {r : RegD} (hb : blockAt a = some (rows, o))
    (hr : rowOf rows o = some (r, w)) (hw : r.writable false = false) : s.plainWrite a v = s.ignored a v := by
  simp [State.plainWrite, hb, hr, hw]

/-- A write of a row that holds a writable field stores the word field by field (R6, R8). -/
theorem plainWrite_writable {s : State} {a v o w : Nat} {rows : List RegD} {r : RegD} (hb : blockAt a = some (rows, o))
    (hr : rowOf rows o = some (r, w)) (hw : r.writable false = true) : s.plainWrite a v =
      s.wr ⟨a, resetAt r w a⟩ (r.written w (s.wordAt r w a) v false (sget s.cyc.sets a 0)) := by
  simp [State.plainWrite, hb, hr, hw, State.wr]

theorem chipId_plain (s : State) (v : Nat) : s.blockWrite Rg.SYS_CHIP_ID.addr v = s.ignored Rg.SYS_CHIP_ID.addr v := by
  have h : s.plainWrite Rg.SYS_CHIP_ID.addr v = s.ignored Rg.SYS_CHIP_ID.addr v :=
    plainWrite_readOnly (rows := RegTab.rowsSYS) (o := 0) (w := 0) (r := RegTab.SYS_CHIP_ID) rfl (by decide) (by decide)
  exact h

/-- Offset `o` of the block of Ethernet port `p`. -/
theorem blockAt_eth {a o : Nat} (p : Fin 24) (ha : a = 0x10100000 + 0x1000 * p.val + o) (ho : o < 0x1000) :
    blockAt a = some (RegTab.rowsETH, o) := by
  have hp := p.isLt
  have hin : 0x10100000 ≤ a ∧ (a - 0x10100000) / 0x1000 < 24 := by omega
  have hoff : a % 0x1000 = o := by omega
  unfold blockAt
  split <;> try omega
  simp only [hin, hoff, and_self, if_true]

/-- The registers of the Ethernet port blocks other than ETH_MDIO_CMD are written field by field. -/
theorem blockWrite_eth (s : State) {a o v : Nat} (p : Fin 24) (ha : a = 0x10100000 + 0x1000 * p.val + o) (ho : o < 0x1000) (hne : o ≠ 0x2C) :
    s.blockWrite a v = s.plainWrite a v := by
  have hp := p.isLt
  have hq : (a - 0x10100000) / 0x1000 = p.val := by omega
  have he : isEth p.val = true := by simp [isEth]
  have hcmd : ¬ a = (Rg.ETH_MDIO_CMD p.val).addr := by
    simp only [Rg.ETH_MDIO_CMD]
    omega
  have hin : 0x10100000 ≤ a ∧ p.val < 48 := by omega
  unfold State.blockWrite
  split <;> try omega
  simp only [hq, State.portWrite, hin, he, hcmd, and_self, if_true, if_false]

theorem ethIntStatus_row : rowOf RegTab.rowsETH 0x38 = some (RegTab.ETH_INT_STATUS, 0) := by decide

theorem ethIntEn_row : rowOf RegTab.rowsETH 0x34 = some (RegTab.ETH_INT_EN, 0) := by decide


/-! ## Read-only and field-by-field writes (R6 to R8) -/

theorem sget_raise (s : State) (c p d : Nat) {a : Nat} (h : ¬ evtReg a) (x : Word) : sget (s.raise c p d).regs a x = sget s.regs a x :=
  (onlyRegsEv_raise s c p d).time.sget h x

/-- Settles O7: SYS_CHIP_ID holds no writable field, so the write is ignored and reported. -/
theorem readOnlyWriteIgnored : Obligations.ReadOnlyWriteIgnored := by
  intro l v s hr hf hroom
  have hst : (s.advance l).coreStore (BitVec.ofNat 32 Rg.SYS_CHIP_ID.addr).toNat (.word v) =
      (s.advance l).raise 0x0110 noPort (Rg.SYS_CHIP_ID.addr * 2 ^ 32 + v.toNat) := by
    rw [coreStore_word _ _ _ (by decide) (by decide) (by decide)]
    exact chipId_plain _ _
  apply completes_registerWrite hr
  · rw [hst, State.raise_pwr, State.advance_pwr, hf]
  · rw [hst]
    exact ⟨(sameRegs_advance s l).then fun a ha x => sget_raise _ _ _ _ (fun h => ha (clockWord_of_evtReg h)) x,
      (sameMemories_advance s l).then (by simp) (by simp) (by simp) (by simp), raised_after_advance hroom (Nat.le_refl _)⟩

/-- Bit `k` of a word written field by field: kept where it is neither RW nor cleared, and set where it is RW and written 1 (R6, R8). -/
theorem bitOf_written (r : RegD) (w old v held k : Nat) : bitOf (r.written w old v false held) k =
    ((bitOf old k && !bitOf (r.mask w fun f => f.acc = .rw || (f.acc = .srw && false)) k &&
      !(bitOf (r.mask w fun f => f.acc = .w1c) k && (bitOf v k && !bitOf held k))) ||
      (bitOf v k && bitOf (r.mask w fun f => f.acc = .rw || (f.acc = .srw && false)) k)) := by
  simp only [bitOf_eq_testBit, RegD.written, Nat.testBit_or, Nat.testBit_xor, Nat.testBit_and]
  generalize (RegD.mask r w _).testBit k = m
  generalize (RegD.mask r w _).testBit k = n
  cases old.testBit k <;> cases v.testBit k <;> cases held.testBit k <;> cases m <;> cases n <;> rfl

theorem bitOf_mod (v i k : Nat) (h : k < i) : bitOf (v % 2 ^ i) k = bitOf v k := by
  simp [bitOf_eq_testBit, Nat.testBit_mod_two_pow, h]

/-- A plain 32-bit store to the register `q` of an Ethernet port block, whose row `r` holds a writable field. -/
theorem coreStore_eth (s : State) (p : Fin 24) (v : Word) {q : Reg} {o : Nat} {r : RegD} (hq : q.addr = 0x10100000 + 0x1000 * p.val + o)
    (ho : o < 0x1000) (ho4 : o % 4 = 0) (hne : o ≠ 0x2C ∧ o ≠ 0xC) (hrow : rowOf RegTab.rowsETH o = some (r, 0))
    (hw : r.writable false = true) (hrst : q.rst = r.reset 0) :
    s.coreStore q.addr (.word v) = s.wr q (r.written 0 (s.rd q) v.toNat false (sget s.cyc.sets q.addr 0)) := by
  have hb := blockAt_eth p hq ho
  have hres : resetAt r 0 q.addr = q.rst := by rw [resetAt, if_neg (by omega), hrst]
  rw [coreStore_word _ _ _ (by omega) (by omega) (by simp [mapped, hb]), blockWrite_eth s p hq ho hne.1, plainWrite_writable hb hrow hw,
    State.wordAt, hres]
  rfl

/-- A register of an Ethernet port block does not change as time passes. -/
theorem rd_eth_lapse (s : State) (l : Nat) (p : Fin 24) {q : Reg} {o : Nat} (hq : q.addr = 0x10100000 + 0x1000 * p.val + o) (ho : o < 0x1000) :
    (s.advance l).rd q = s.rd q := by
  have hp := p.isLt
  refine rd_lapse s l ?_
  rw [lapseReg_iff]
  omega

/-- REGISTER_WRITE to such a register stores field by field, and changes no memory. -/
theorem completes_ethWrite {l : Nat} {p : Fin 24} {v : Word} {s : State} {q : Reg} {o : Nat} {r : RegD} {P : State → Prop}
    (hr : s.coresRun = true) (hf : s.pwr.fatal = false) (hq : q.addr = 0x10100000 + 0x1000 * p.val + o) (ho : o < 0x1000) (ho4 : o % 4 = 0)
    (hne : o ≠ 0x2C ∧ o ≠ 0xC) (hrow : rowOf RegTab.rowsETH o = some (r, 0)) (hw : r.writable false = true) (hrst : q.rst = r.reset 0)
    (hP : ∀ t, t.rd q = r.written 0 (s.rd q) v.toNat false (sget (s.advance l).cyc.sets q.addr 0) % 2 ^ 32 → P t) :
    completes (.registerWrite l (BitVec.ofNat 32 q.addr) (.word v)) s fun t => P t ∧ sameMemories s t := by
  have hp := p.isLt
  have ha : (BitVec.ofNat 32 q.addr).toNat = q.addr := by
    rw [BitVec.toNat_ofNat]
    omega
  have hst := coreStore_eth (s.advance l) p v hq ho ho4 hne hrow hw hrst
  apply completes_registerWrite hr
  · rw [ha, hst, State.wr_pwr, State.advance_pwr, hf]
  · rw [ha, hst, rd_eth_lapse s l p hq ho]
    exact ⟨hP _ (rd_wr_self _ _ _), (sameMemories_advance s l).then (by simp) (by simp) (by simp) (by simp)⟩

theorem writable_ethIntStatus : RegTab.ETH_INT_STATUS.writable false = true := by decide
theorem writable_ethIntEn : RegTab.ETH_INT_EN.writable false = true := by decide

/-- Bits 0, 2, 3 and 4 of ETH_INT_STATUS are W1C, and none of its bits is RW. -/
theorem ethIntStatus_masks : ∀ k ∈ [0, 2, 3, 4],
    bitOf (RegTab.ETH_INT_STATUS.mask 0 fun f => f.acc = .rw || (f.acc = .srw && false)) k = false ∧
    bitOf (RegTab.ETH_INT_STATUS.mask 0 fun f => f.acc = .w1c) k = true := by decide

/-- Bits 0 to 5 of ETH_INT_EN are RW. -/
theorem ethIntEn_masks : ∀ k < 6, bitOf (RegTab.ETH_INT_EN.mask 0 fun f => f.acc = .rw || (f.acc = .srw && false)) k = true := by decide

/-- Settles O6: each bit of the written word by the type of its field. -/
theorem registerWriteActsByField : Obligations.RegisterWriteActsByField := by
  intro l p v s hr hf
  constructor
  · refine completes_ethWrite (p := p) (o := 0x38) hr hf (by simp only [Rg.ETH_INT_STATUS]; omega) (by decide) (by decide) (by decide) ethIntStatus_row
      writable_ethIntStatus rfl fun t ht k hk => ?_
    obtain ⟨hrw, hw1c⟩ := ethIntStatus_masks k hk
    have hk32 : k < 32 := (show ∀ k ∈ [0, 2, 3, 4], k < 32 by decide) k hk
    rw [ht, bitOf_mod _ _ _ hk32, bitOf_written, hrw, hw1c]
    rw [bitOf_eq_testBit v.toNat, BitVec.testBit_toNat]
    generalize bitOf (sget _ _ _) k = h
    cases bitOf (s.rd (Rg.ETH_INT_STATUS p.val)) k <;> cases v.getLsbD k <;> cases h <;> rfl
  · refine completes_ethWrite (p := p) (o := 0x34) hr hf (by simp only [Rg.ETH_INT_EN]; omega) (by decide) (by decide) (by decide) ethIntEn_row
      writable_ethIntEn rfl fun t ht => Nat.eq_of_testBit_eq fun k => ?_
    rw [show (64 : Nat) = 2 ^ 6 from rfl, Nat.testBit_mod_two_pow, Nat.testBit_mod_two_pow]
    by_cases hk : k < 6
    · have hb := bitOf_written RegTab.ETH_INT_EN 0 (s.rd (Rg.ETH_INT_EN p.val)) v.toNat
        (sget (s.advance l).cyc.sets (Rg.ETH_INT_EN p.val).addr 0) k
      rw [ethIntEn_masks k hk] at hb
      simp only [Bool.not_true, Bool.and_false, Bool.false_and, Bool.false_or, Bool.and_true, bitOf_eq_testBit] at hb
      rw [ht, Nat.testBit_mod_two_pow, hb]
      simp [show k < 32 by omega]
    · simp [hk]

end Sys2Proof.Machine
end

section
namespace Sys2Proof.Machine
open Sys2Proof.Safety

/-! ## Memories without errors (R347) -/

theorem badIn_of_clean {s : State} (h : clean s) (m a n : Nat) : s.badIn m a n = none := by
  simp [State.badIn, h.1]

theorem isBad_of_clean {s : State} (h : clean s) (m a : Nat) : s.isBad m a = false := by
  simp [State.isBad, h.1]

theorem sbeIn_of_clean {s : State} (h : clean s) (m a n : Nat) : s.sbeIn m a n = s := by
  simp [State.sbeIn, h.2]

theorem sbeAt_of_clean {s : State} (h : clean s) (m a : Nat) : s.sbeAt m a = s := by
  simp [State.sbeAt, h.2]

theorem clean_advance {s : State} (h : clean s) (n : Nat) : clean (s.advance n) := by
  simpa [clean] using h

/-! ## Management memory (R374) -/

/-- The size of management memory follows TBL_CFG, which time does not change. -/
theorem inMgmt_advance (s : State) (l a n : Nat) : (s.advance l).inMgmt a n = s.inMgmt a n := by
  have h (f : Fld) (hf : f.lo < 32) : (s.advance l).fd (Rg.TBL_CFG 2) f = s.fd (Rg.TBL_CFG 2) f := by
    refine fd_lapse s l ?_
    rw [lapseReg_iff]
    simp only [Rg.TBL_CFG]
    omega
  have he : (s.advance l).elasticFlow = s.elasticFlow := by
    unfold State.elasticFlow State.flag
    rw [h Fl.TBL_CFG_SIZE (by decide), h Fl.TBL_CFG_SINGLE (by decide)]
  unfold State.inMgmt State.mgmtSize
  rw [he]

theorem inMgmt_lt {s : State} {a n : Nat} (h : s.inMgmt a n = true) : a + n ≤ 0xC00000 := by
  have hn : a + n ≤ s.mgmtSize := of_decide_eq_true h
  unfold State.mgmtSize at hn
  split at hn <;> omega

theorem atomicOk_advance (s : State) (l a n : Nat) : (s.advance l).atomicOk a n = s.atomicOk a n := by
  simp only [State.atomicOk, inMgmt_advance]

theorem inMgmt_of_atomicOk {s : State} {a n : Nat} (h : s.atomicOk a n = true) : s.inMgmt a n = true := by
  simp only [State.atomicOk, Bool.and_eq_true] at h
  exact h.2

theorem memLe_advance (s : State) (l a n : Nat) : (s.advance l).memLe a n = s.memLe a n := by
  simp [State.memLe, State.mem]

theorem mem_advance (s : State) (l a n : Nat) : (s.advance l).mem a n = s.mem a n := by
  simp [State.mem]

/-- A store into management memory puts its bytes there and mends their words. -/
theorem memStore_eq {s : State} {a n : Nat} (h : s.inMgmt a n = true) (v : Nat) :
    s.memStore a n v = (s.setMem a (leBytes n v)).mendedIn 8 a n := by
  rw [State.memStore, if_pos h]

theorem memLe_memStore {s : State} {a n : Nat} (h : s.inMgmt a n = true) (v : Nat) :
    (s.memStore a n v).memLe a n = v % 2 ^ (8 * n) := by
  have hm := mem_setMem_self s a (leBytes n v)
  rw [leBytes_length] at hm
  rw [memStore_eq h, ← ofLe_leBytes]
  exact congrArg ofLe hm

theorem mem_memStore_out {s : State} {a n : Nat} (h : s.inMgmt a n = true) (v : Nat) {x : Nat} (hx : x < a ∨ a + n ≤ x) :
    (s.memStore a n v).mem x 1 = s.mem x 1 := by
  rw [memStore_eq h]
  exact mem_setMem_out s a x 1 _ (by rw [leBytes_length]; omega)

theorem pwr_memStore (s : State) (a n v : Nat) : (s.memStore a n v).pwr = s.pwr := by
  unfold State.memStore
  split <;> rfl

theorem readPort_memStore {s : State} {a n : Nat} (h : s.inMgmt a n = true) (v : Nat) : (s.memStore a n v).readPort = s.readPort := by
  rw [memStore_eq h]
  rfl

/-- A store leaves the registers, on-die memory and the flash devices alone. -/
theorem memStore_frame (s : State) (a n v : Nat) : (s.memStore a n v).regs = s.regs ∧ (s.memStore a n v).sram = s.sram ∧
    (s.memStore a n v).ospi0 = s.ospi0 ∧ (s.memStore a n v).ospi1 = s.ospi1 := by
  unfold State.memStore
  split <;> exact ⟨rfl, rfl, rfl, rfl⟩

/-- A store takes no new reservations. -/
theorem resv_memStore (s : State) (a n v : Nat) : ∀ r ∈ (s.memStore a n v).resv, r ∈ s.resv := by
  intro r hr
  unfold State.memStore at hr
  split at hr
  · exact (List.mem_filter.mp hr).1
  · exact hr

/-- What a load of sound management memory brings: the bytes, and of eight the high word besides. -/
def State.memGot (s : State) (a n : Nat) : State :=
  let t := s.got (s.memLe a n)
  if n = 8 then { t with readHigh := BitVec.ofNat 32 (s.memLe a n / 2 ^ 32) } else t

theorem memLoad_eq {s : State} {a n : Nat} (h : s.inMgmt a n = true) (hc : clean s) : s.memLoad a n = s.memGot a n := by
  rw [State.memLoad, if_neg (by simp [h]), badIn_of_clean hc]
  simp only [sbeIn_of_clean hc]
  rfl

theorem memGot_readPort (s : State) (a n : Nat) : (s.memGot a n).readPort = ⟨BitVec.ofNat 32 (s.memLe a n), false⟩ := by
  unfold State.memGot
  simp only
  split <;> rfl

/-- A load changes what the core has read, and nothing else. -/
theorem memGot_frame (s : State) (a n : Nat) : ∃ p h, s.memGot a n = { s with readPort := p, readHigh := h } := by
  unfold State.memGot
  simp only
  split
  · exact ⟨_, _, rfl⟩
  · exact ⟨_, s.readHigh, rfl⟩

/-! ## Accesses of a management core to management memory -/

theorem bytes_eq_four (w : Width) : w.bytes = 4 ↔ w = .word := by cases w <;> simp [Width.bytes]

/-- A plain store of any width into management memory. -/
theorem coreStore_mem (s : State) {a : Nat} (w : Width) (v : BitVec 64) (ha : a < 0x10000000) :
    ∃ x, s.coreStore a ⟨v, w, .store⟩ = s.memStore a w.bytes x ∧ x % 2 ^ (8 * w.bytes) = v.toNat % 2 ^ (8 * w.bytes) := by
  by_cases hw : w.bytes = 4
  · exact ⟨v.toNat % 2 ^ 32, by simp [State.coreStore, State.regWrite, hw, ha], by simp [hw]⟩
  · exact ⟨v.toNat, by simp [State.coreStore, hw, ha], rfl⟩

/-- A plain load of any width of management memory. -/
theorem coreLoad_mem (s : State) {a : Word} (w : Width) (ha : a.toNat < 0x10000000) :
    s.coreLoad ⟨a, w, none⟩ = s.memLoad a.toNat w.bytes := by
  by_cases hw : w.bytes = 4
  · have hq : tsqAt a.toNat = none := by
      rw [tsqAt, if_neg (by omega)]
    have hb : ¬ a.toNat = Rg.BOB_SIGW_STATUS.addr := by
      simp only [Rg.BOB_SIGW_STATUS]
      omega
    simp [State.coreLoad, State.read, hw, hq, hb, ha]
  · simp [State.coreLoad, hw, ha]

/-- A store of another width than 32 bits, or an atomic one, beyond management memory takes an access fault (R374). -/
theorem coreStore_fault (s : State) {a : Nat} {x : CoreStore} (ha : 0x10000000 ≤ a) (hx : x.width ≠ .word ∨ x.op ≠ .store) :
    s.coreStore a x = s.accessFault := by
  by_cases hs : x.op = .store
  · have hw : ¬ x.width.bytes = 4 := fun h => (hx.resolve_right fun h' => h' hs) ((bytes_eq_four _).mp h)
    rw [State.coreStore, if_pos hs, if_neg hw, if_neg (by omega)]
  · have hm : s.atomicOk a x.width.bytes = false := by
      refine Bool.eq_false_iff.mpr fun h => ?_
      have := inMgmt_lt (inMgmt_of_atomicOk h)
      omega
    rw [State.coreStore, if_neg hs]
    unfold State.memAtomic
    rw [if_pos (by simp [hm])]

/-- An atomic addition: a load, and a store of the sum. -/
theorem coreStore_add {s : State} {a : Nat} {w : Width} {v : BitVec 64} (hc : clean s) (ha : s.atomicOk a w.bytes = true) :
    s.coreStore a ⟨v, w, .add⟩ = (s.memGot a w.bytes).memStore a w.bytes (s.memLe a w.bytes + v.toNat) := by
  rw [State.coreStore, if_neg (by simp)]
  unfold State.memAtomic
  rw [if_neg (by simp [ha])]
  simp only [memLoad_eq (inMgmt_of_atomicOk ha) hc, memGot_readPort]
  rfl

/-- A load-reserved loads, and reserves its bytes for its core. -/
theorem coreLoad_reserve {s : State} {a : Word} {w : Width} {c : Fin 4} (hc : clean s) (ha : s.atomicOk a.toNat w.bytes = true) :
    s.coreLoad ⟨a, w, some c⟩ = { s.memGot a.toNat w.bytes with
      resv := (c, a.toNat, w.bytes) :: (s.memGot a.toNat w.bytes).resv.filter (fun r => r.1 ≠ c) } := by
  unfold State.coreLoad
  simp only [ha, not_true, if_false, memLoad_eq (inMgmt_of_atomicOk ha) hc, memGot_readPort, Bool.false_eq_true]

/-- The state in which core `c` holds no reservation. -/
def State.withoutResv (s : State) (c : Fin 4) : State := { s with resv := s.resv.filter (fun r => r.1 ≠ c) }

/-- A store-conditional stores under its core's reservation of the same bytes alone, and ends every reservation of the core. -/
theorem coreStore_storeCond {s : State} {a : Nat} {w : Width} {v : BitVec 64} {c : Fin 4} (ha : s.atomicOk a w.bytes = true) :
    s.coreStore a ⟨v, w, .storeCond c⟩ =
      if (c, a, w.bytes) ∈ s.resv then ((s.withoutResv c).memStore a w.bytes v.toNat).got 0 else (s.withoutResv c).got 1 := by
  rw [State.coreStore, if_neg (by simp)]
  unfold State.memAtomic
  rw [if_neg (by simp [ha])]
  simp only [List.contains_iff_mem]
  rfl

/-! ## The clauses of O5 -/

/-- Stores of any width. -/
theorem completes_memStore {l : Nat} {a : Word} {w : Width} {v : BitVec 64} {s : State} (hr : s.coresRun = true) (hf : s.pwr.fatal = false)
    (ha : a.toNat < 0x10000000) (hin : s.inMgmt a.toNat w.bytes = true) : completes (.registerWrite l a ⟨v, w, .store⟩) s fun t =>
      t.memLe a.toNat w.bytes = v.toNat % 2 ^ (8 * w.bytes) ∧
      (∀ x, x < a.toNat ∨ a.toNat + w.bytes ≤ x → t.mem x 1 = s.mem x 1) ∧
      sameRam s t ∧ t.ospi0 = s.ospi0 ∧ t.ospi1 = s.ospi1 ∧ sameRegs clockWord s t := by
  obtain ⟨x, hst, hx⟩ := coreStore_mem (s.advance l) w v ha
  have hin' : (s.advance l).inMgmt a.toNat w.bytes = true := by rw [inMgmt_advance, hin]
  obtain ⟨hregs, hsram, hospi0, hospi1⟩ := memStore_frame (s.advance l) a.toNat w.bytes x
  apply completes_registerWrite hr
  · rw [hst, pwr_memStore, State.advance_pwr, hf]
  · rw [hst]
    refine ⟨by rw [memLe_memStore hin', hx], fun y hy => by rw [mem_memStore_out hin' x hy, mem_advance], ?_, by rw [hospi0, State.advance_ospi0],
      by rw [hospi1, State.advance_ospi1], (sameRegs_advance s l).then fun y _ d => by rw [hregs]⟩
    unfold sameRam
    rw [hsram]
    exact sameRam_advance s l

/-- Loads of any width. -/
theorem completes_memLoad {l : Nat} {a : Word} {w : Width} {s : State} (hr : s.coresRun = true) (hf : s.pwr.fatal = false)
    (ha : a.toNat < 0x10000000) (hin : s.inMgmt a.toNat w.bytes = true) (hc : clean s) : completes (.reg64LowRead l ⟨a, w, none⟩) s fun t =>
      t.readPort = ⟨BitVec.ofNat 32 (s.memLe a.toNat w.bytes), false⟩ ∧
      (w = .double → t.readHigh = BitVec.ofNat 32 (s.memLe a.toNat 8 / 2 ^ 32)) ∧ sameMemories s t ∧ sameRegs clockWord s t := by
  have hin' : (s.advance l).inMgmt a.toNat w.bytes = true := by rw [inMgmt_advance, hin]
  have hld : (s.advance l).coreLoad ⟨a, w, none⟩ = (s.advance l).memGot a.toNat w.bytes := by
    rw [coreLoad_mem _ _ ha, memLoad_eq hin' (clean_advance hc l)]
  have hport := memGot_readPort (s.advance l) a.toNat w.bytes
  have hhigh : w = .double → ((s.advance l).memGot a.toNat w.bytes).readHigh = BitVec.ofNat 32 (s.memLe a.toNat 8 / 2 ^ 32) := by
    rintro rfl
    rw [← memLe_advance s l]
    rfl
  obtain ⟨p, h, hg⟩ := memGot_frame (s.advance l) a.toNat w.bytes
  apply completes_reg64LowRead hr
  · rw [hld, hg]
    simpa using hf
  · rw [hld]
    refine ⟨by rw [hport, memLe_advance], hhigh, ?_, ?_⟩
    · rw [hg]
      exact sameMemories_advance s l
    · rw [hg]
      exact sameRegs_advance s l

/-- Atomic additions. -/
theorem completes_memAdd {l : Nat} {a : Word} {w : Width} {v : BitVec 64} {s : State} (hr : s.coresRun = true) (hf : s.pwr.fatal = false)
    (hc : clean s) (ha : s.atomicOk a.toNat w.bytes = true) : completes (.registerWrite l a ⟨v, w, .add⟩) s fun t =>
      t.memLe a.toNat w.bytes = (s.memLe a.toNat w.bytes + v.toNat) % 2 ^ (8 * w.bytes) ∧
      t.readPort = ⟨BitVec.ofNat 32 (s.memLe a.toNat w.bytes), false⟩ ∧
      (∀ x, x < a.toNat ∨ a.toNat + w.bytes ≤ x → t.mem x 1 = s.mem x 1) := by
  have hst := coreStore_add (v := v) (clean_advance hc l) ((atomicOk_advance s l _ _).trans ha)
  have hport := memGot_readPort (s.advance l) a.toNat w.bytes
  obtain ⟨p, h, hg⟩ := memGot_frame (s.advance l) a.toNat w.bytes
  have hin : ((s.advance l).memGot a.toNat w.bytes).inMgmt a.toNat w.bytes = true := by
    rw [hg]
    exact (inMgmt_advance s l _ _).trans (inMgmt_of_atomicOk ha)
  apply completes_registerWrite hr
  · rw [hst, pwr_memStore, hg]
    simpa using hf
  · rw [hst]
    refine ⟨by rw [memLe_memStore hin, memLe_advance], by rw [readPort_memStore hin, hport, memLe_advance], fun x hx => ?_⟩
    rw [mem_memStore_out hin _ hx, hg]
    exact mem_advance s l x 1

/-- The load-reserved. -/
theorem completes_loadReserved {l : Nat} {c : Fin 4} {a : Word} {w : Width} {s : State} (hr : s.coresRun = true) (hf : s.pwr.fatal = false)
    (hc : clean s) (ha : s.atomicOk a.toNat w.bytes = true) :
    completes (.reg64LowRead l ⟨a, w, some c⟩) s (fun t => (c, a.toNat, w.bytes) ∈ t.resv ∧ sameMemories s t) := by
  have hld := coreLoad_reserve (c := c) (clean_advance hc l) ((atomicOk_advance s l _ _).trans ha)
  obtain ⟨p, h, hg⟩ := memGot_frame (s.advance l) a.toNat w.bytes
  apply completes_reg64LowRead hr
  · rw [hld, hg]
    simpa using hf
  · rw [hld, hg]
    exact ⟨List.mem_cons_self, sameMemories_advance s l⟩

/-- The store-conditional. -/
theorem completes_storeCond {l : Nat} {c : Fin 4} {a : Word} {w : Width} {v : BitVec 64} {s : State} (hr : s.coresRun = true)
    (hf : s.pwr.fatal = false) (ha : s.atomicOk a.toNat w.bytes = true) : completes (.registerWrite l a ⟨v, w, .storeCond c⟩) s (fun t =>
      ((c, a.toNat, w.bytes) ∈ s.resv → t.readPort = ⟨0, false⟩ ∧ t.memLe a.toNat w.bytes = v.toNat % 2 ^ (8 * w.bytes)) ∧
      ((c, a.toNat, w.bytes) ∉ s.resv → t.readPort = ⟨1, false⟩ ∧ sameMemories s t) ∧ ∀ r ∈ t.resv, r.1 ≠ c) := by
  have hst := coreStore_storeCond (v := v) (c := c) ((atomicOk_advance s l a.toNat w.bytes).trans ha)
  have hin : ((s.advance l).withoutResv c).inMgmt a.toNat w.bytes = true := (inMgmt_advance s l _ _).trans (inMgmt_of_atomicOk ha)
  have hgone : ∀ r ∈ ((s.advance l).withoutResv c).resv, r.1 ≠ c := fun r h => by simpa using (List.mem_filter.mp h).2
  rw [State.advance_resv] at hst
  by_cases hres : (c, a.toNat, w.bytes) ∈ s.resv
  · rw [if_pos hres] at hst
    apply completes_registerWrite hr
    · rw [hst]
      exact (congrArg Power.fatal (pwr_memStore _ _ _ _)).trans (by simpa [State.withoutResv] using hf)
    · rw [hst]
      exact ⟨fun _ => ⟨rfl, memLe_memStore hin _⟩, fun h => absurd hres h, fun r h => hgone r (resv_memStore _ _ _ _ r h)⟩
  · rw [if_neg hres] at hst
    apply completes_registerWrite hr
    · rw [hst]
      simpa [State.got, State.withoutResv] using hf
    · rw [hst]
      exact ⟨fun h => absurd h hres, fun _ => ⟨rfl, sameMemories_advance s l⟩, hgone⟩

/-- The debug window of the action records shows a stored word. -/
theorem debugRead_act {s : State} {a : Nat} (h0 : Mm.act ≤ a) (h1 : a < Mm.act + 0x200000) (h4 : a % 4 = 0) (hc : clean s) :
    s.debugRead a = s.shown (ofLe (s.ram a 4)) := by
  have hw : debugWindows.find? (·.holds a) = some ⟨Mm.act, 0x200000, 2⟩ := by
    refine List.find?_eq_some_iff_append.mpr ⟨?_, debugWindows.take 4, debugWindows.drop 5, rfl, ?_⟩
    · exact Bool.and_eq_true_iff.mpr ⟨decide_eq_true h0, decide_eq_true h1⟩
    · simp only [Mm.act] at h0
      simp only [debugWindows, List.take, List.mem_cons, List.not_mem_nil, or_false, Window.holds, Mm.flow, Mm.fdb, Mm.bmap, Mm.node,
        Bool.not_eq_true', Bool.and_eq_false_imp, decide_eq_true_eq, decide_eq_false_iff_not]
      rintro w (rfl | rfl | rfl | rfl) <;> simp only <;> omega
  have hcell : ¬ (Mm.cells ≤ a ∧ a < Mm.cells + 0x800000) := by
    simp only [Mm.act, Mm.cells] at *
    omega
  have hsig : ¬ (Mm.sig ≤ a ∧ a < Mm.sig + 0x200000) := by
    simp only [Mm.act, Mm.sig] at *
    omega
  unfold State.debugRead
  simp only [h4, hcell, hsig, hw, badIn_of_clean hc, sbeIn_of_clean hc, ne_eq, not_true, if_false]

/-- Settles O5: each access by the lemma of its kind. -/
theorem registerWriteStoresMemory : Obligations.RegisterWriteStoresMemory := by
  refine ⟨fun l a w v s => completes_memStore, fun l a w s hr hf ha hin hc => completes_memLoad hr hf ha hin hc, fun l a x s hr hf ha hx => ?_,
    fun l a w v s hr hf hc ha => completes_memAdd hr hf hc ha,
    fun l c a w v s hr hf hc ha => ⟨completes_loadReserved hr hf hc ha, completes_storeCond hr hf ha⟩, fun a s hr h0 h1 h4 hc => ?_⟩
  · have hst := coreStore_fault (s := s.advance l) ha hx
    apply completes_registerWrite hr
    · rw [hst]
      simpa [State.accessFault] using hf
    · rw [hst]
      exact ⟨rfl, sameMemories_advance s l, sameRegs_advance s l⟩
  · have hd := debugRead_act h0 h1 h4 hc
    refine completes_of_next (t := s.debugRead a.toNat) (congrArg Host.Outcome.next (fw_of_coresRun hr _)) ?_
    rw [hd]
    exact ⟨rfl, .inl rfl, rfl, rfl, rfl⟩

end Sys2Proof.Machine
end

section
namespace Sys2Proof.Machine
open Sys2Proof.Safety

/-! ## Local time as words -/

theorem unsigned_lt (w : Nat) (v : Int) : unsigned w v < 2 ^ w := by
  have h1 : 0 < ((2 ^ w : Nat) : Int) := by exact_mod_cast Nat.two_pow_pos w
  have h2 := Int.emod_lt_of_pos v h1
  have h3 := Int.emod_nonneg v (Int.ne_of_gt h1)
  unfold unsigned
  omega

/-! A register reads the register file alone. -/

theorem rd_congr {s t : State} (h : t.regs = s.regs) (q : Reg) : t.rd q = s.rd q := by
  simp only [State.rd, State.rdw, h]

theorem rd64_congr {s t : State} (h : t.regs = s.regs) (q : Reg) : t.rd64 q = s.rd64 q := by
  simp only [State.rd64, rd_congr h]

theorem rd64_wr_ne (s : State) {q r : Reg} (v : Nat) (h : q.addr ≠ r.addr) (h4 : q.addr + 4 ≠ r.addr) : (s.wr r v).rd64 q = s.rd64 q := by
  unfold State.rd64
  rw [rd_wr_ne s v h, rd_wr_ne s v (by simpa using h4)]

/-! ## PPS inputs (R55) -/

theorem ppsOn_advance (s : State) (l i : Nat) : (s.advance l).ppsOn i = s.ppsOn i := by
  unfold State.ppsOn
  rw [fd_lapse s l (by rw [lapseReg_iff]; decide)]

/-- The registers an edge of PPS_IN[i] captures: LT in whole ns, its fraction, and the count. -/
def State.ppsCapture (s : State) (i : Nat) : State :=
  ((s.wr64 (Rg.TIME_PPS_IN_TS i) (unsigned 64 s.ltNs)).wr (Rg.TIME_PPS_IN_FRAC i) (unsigned 16 s.lt)).incr (Rg.TIME_PPS_IN_CNT i)

theorem ppsCapture_ts (s : State) (i : Nat) : (s.ppsCapture i).rd64 (Rg.TIME_PPS_IN_TS i) = unsigned 64 s.ltNs := by
  unfold State.ppsCapture State.incr
  rw [rd64_wr_ne _ _ (by simp [Rg.TIME_PPS_IN_TS, Rg.TIME_PPS_IN_CNT]) (by simp only [Rg.TIME_PPS_IN_TS, Rg.TIME_PPS_IN_CNT]; omega),
    rd64_wr_ne _ _ (by simp [Rg.TIME_PPS_IN_TS, Rg.TIME_PPS_IN_FRAC]) (by simp only [Rg.TIME_PPS_IN_TS, Rg.TIME_PPS_IN_FRAC]; omega),
    rd64_wr64_self, Nat.mod_eq_of_lt (unsigned_lt _ _)]

theorem ppsCapture_frac (s : State) (i : Nat) : (s.ppsCapture i).rd (Rg.TIME_PPS_IN_FRAC i) = unsigned 16 s.lt := by
  have h := unsigned_lt 16 s.lt
  unfold State.ppsCapture State.incr
  rw [rd_wr_ne _ _ (by simp [Rg.TIME_PPS_IN_FRAC, Rg.TIME_PPS_IN_CNT]), rd_wr_self, Nat.mod_eq_of_lt (by omega)]

theorem ppsCapture_cnt (s : State) (i : Nat) :
    (s.ppsCapture i).rd (Rg.TIME_PPS_IN_CNT i) = (s.rd (Rg.TIME_PPS_IN_CNT i) + 1) % 2 ^ 32 := by
  unfold State.ppsCapture State.incr
  rw [rd_wr_self, rd_wr_ne _ _ (by simp [Rg.TIME_PPS_IN_FRAC, Rg.TIME_PPS_IN_CNT]),
    rd_wr64_ne _ _ (by simp [Rg.TIME_PPS_IN_TS, Rg.TIME_PPS_IN_CNT]) (by simp only [Rg.TIME_PPS_IN_TS, Rg.TIME_PPS_IN_CNT]; omega)]

/-- An edge on an enabled input captures, and starts its 2 s anew. -/
theorem ppsEdge_on {s : State} {i : Nat} (h : s.ppsOn i = true) : s.ppsEdge i =
    { s.ppsCapture i with clk := { s.clk with ppsAt := sset s.clk.ppsAt i 0 (s.ppsCapture i).raw } } := by
  rw [State.ppsEdge, if_neg (by simp [h])]
  rfl

theorem rd_ppsInCnt_lapse (s : State) (l : Nat) (i : Fin 2) : (s.advance l).rd (Rg.TIME_PPS_IN_CNT i.val) = s.rd (Rg.TIME_PPS_IN_CNT i.val) := by
  have hi := i.isLt
  refine rd_lapse s l ?_
  rw [lapseReg_iff]
  simp only [Rg.TIME_PPS_IN_CNT]
  omega

theorem completes_ppsInEdge {l : Nat} {i : Fin 2} {s : State} (h : s.ppsOn i.val = true) : completes (.ppsInEdge l i) s fun t =>
    t.rd64 (Rg.TIME_PPS_IN_TS i.val) = unsigned 64 (s.advance l).ltNs ∧
    t.rd (Rg.TIME_PPS_IN_FRAC i.val) = unsigned 16 (s.advance l).lt ∧
    t.rd (Rg.TIME_PPS_IN_CNT i.val) = (s.rd (Rg.TIME_PPS_IN_CNT i.val) + 1) % 2 ^ 32 ∧ sameMemories s t := by
  have hk := ppsEdge_on ((ppsOn_advance s l i.val).trans h)
  have hcnt := ppsCapture_cnt (s.advance l) i.val
  rw [rd_ppsInCnt_lapse s l i] at hcnt
  have hregs : ((s.advance l).ppsEdge i.val).regs = ((s.advance l).ppsCapture i.val).regs := by rw [hk]
  refine completes_of_next rfl ⟨(rd64_congr hregs _).trans (ppsCapture_ts _ _), (rd_congr hregs _).trans (ppsCapture_frac _ _),
    (rd_congr hregs _).trans hcnt, ?_⟩
  rw [hk]
  exact (sameMemories_advance s l).then (by simp [State.ppsCapture, State.incr]) (by simp [State.ppsCapture, State.incr])
      (by simp [State.ppsCapture, State.incr]) (by simp [State.ppsCapture, State.incr])

/-- The instant at which 2 s without an edge have passed on PPS_IN[i]. -/
def State.ppsDue (s : State) (i : Nat) : Nat := sget s.clk.ppsAt i 0 + 2000000000

/-- 2 s without an edge on an enabled input are reported, and start anew. -/
theorem ppsMissing_on {s : State} {i : Nat} (h : s.ppsOn i = true) : s.ppsMissing i =
    ({ s.advanceRaw (s.ppsDue i) with
      clk := { (s.advanceRaw (s.ppsDue i)).clk with ppsAt := sset (s.advanceRaw (s.ppsDue i)).clk.ppsAt i 0 (s.ppsDue i) } } : State).raise
      0x0207 noPort i := by
  rw [State.ppsMissing, if_neg (by simp [h])]
  rfl

theorem completes_ppsInMissing {i : Fin 2} {s : State} (h : s.ppsOn i.val = true) (hroom : evRoom s 8) : completes (.ppsInMissing i) s fun t =>
    raised t 0x0207 noPort i.val ∧ sget t.clk.ppsAt i.val 0 = sget s.clk.ppsAt i.val 0 + 2000000000 := by
  refine completes_of_next (congrArg Host.Outcome.next (ppsMissing_on h)) ⟨raised_after_advance (s := s) hroom (Nat.le_refl _), ?_⟩
  simp [State.ppsDue, State.advanceRaw]

/-! ## PPS outputs (R56) -/

/-- With source 2 an output pulses at the latest boundary since the lock. -/
theorem ppsOut_boundary {s : State} {j : Nat} (hsrc : s.fd (Rg.TIME_PPS_OUT_CFG j) Fl.TIME_PPS_OUT_CFG_SRC = 2)
    (hlock : s.clk.lockRaw < s.clk.boundRaw) : s.ppsOut j = s.ppsPulse j s.clk.boundRaw := by
  unfold State.ppsOut
  rw [hsrc]
  simp only
  rw [if_neg (by omega)]

/-- PPS_OUT[j] is high from TIME_RAW `r` for its width, and has pulsed once more. -/
def State.pulsed (s : State) (j r : Nat) : State :=
  { s with pins := { s.pins with
      ppsOutTill := sset s.pins.ppsOutTill j 0 (s.ppsTill j r)
      ppsOutCnt := sset s.pins.ppsOutCnt j 0 (sget s.pins.ppsOutCnt j 0 + 1) } }

theorem pulsed_till (s : State) (j r : Nat) : sget (s.pulsed j r).pins.ppsOutTill j 0 = s.ppsTill j r := by simp [State.pulsed]

theorem pulsed_cnt (s : State) (j r : Nat) : sget (s.pulsed j r).pins.ppsOutCnt j 0 = sget s.pins.ppsOutCnt j 0 + 1 := by simp [State.pulsed]

/-- A pulse that ends after the output's latest is driven. -/
theorem ppsPulse_new {s : State} {j r : Nat} (h : sget s.pins.ppsOutTill j 0 < s.ppsTill j r) : s.ppsPulse j r = s.pulsed j r := by
  rw [State.ppsPulse, if_neg (by omega)]
  rfl

theorem completes_ppsOutPulse {j : Fin 4} {s : State} (hrun : s.hoopsRun = true)
    (hsrc : s.fd (Rg.TIME_PPS_OUT_CFG j.val) Fl.TIME_PPS_OUT_CFG_SRC = 2) (hw : 0 < s.fd (Rg.TIME_PPS_OUT_CFG j.val) Fl.TIME_PPS_OUT_CFG_WIDTH)
    (hlock : s.clk.lockRaw < s.clk.boundRaw) (hnew : sget s.pins.ppsOutTill j.val 0 ≤ s.clk.boundRaw) :
    completes (.ppsOutPulse j) s fun t =>
      sget t.pins.ppsOutTill j.val 0 = s.clk.boundRaw + 100 * s.fd (Rg.TIME_PPS_OUT_CFG j.val) Fl.TIME_PPS_OUT_CFG_WIDTH ∧
      sget t.pins.ppsOutCnt j.val 0 = sget s.pins.ppsOutCnt j.val 0 + 1 ∧ t.regs = s.regs := by
  have hp : (if s.hoopsRun then s.ppsOut j.val else s) = s.pulsed j.val s.clk.boundRaw := by
    rw [if_pos hrun, ppsOut_boundary hsrc hlock]
    exact ppsPulse_new (by unfold State.ppsTill; omega)
  exact completes_of_next (congrArg Host.Outcome.next hp) ⟨pulsed_till s _ _, pulsed_cnt s _ _, rfl⟩

/-! ## Timestamp queues (R43, R44) -/

/-- The state after the oldest record of group `g` is gone, and its word written. -/
def State.tsqTail (s : State) (g : Nat) : State :=
  { s.mended 11 (8 * g) with tsq := sset s.tsq g [] (s.tsqOf g).tail }

theorem tsqTail_same (s : State) (g : Nat) : (s.tsqTail g).tsqOf g = (s.tsqOf g).tail := sget_sset_self _ _ _ _

theorem tsqTail_ne (s : State) {g h : Nat} (hne : h ≠ g) : (s.tsqTail g).tsqOf h = s.tsqOf h := sget_sset_ne _ _ _ _ hne

/-- A pop with no record waiting removes the oldest. -/
theorem tsqPop_none {s : State} {g v : Nat} (hv : bitOf v 0 = true) (hw : s.cyc.tsWait.find? (fun w => groupOf w.1.val = g) = none) :
    s.tsqPop g v = s.tsqTail g := by
  rw [State.tsqPop, if_neg (by simp [hv])]
  simp only [show (s.mended 11 (8 * g)).cyc = s.cyc from rfl, hw]
  rfl

/-- A pop with a record waiting removes the oldest, and queues the one that waits. -/
theorem tsqPop_some {s : State} {g v : Nat} {w : Fin 48 × Nat × Int} (hv : bitOf v 0 = true)
    (hw : s.cyc.tsWait.find? (fun w => groupOf w.1.val = g) = some w) :
    s.tsqPop g v = ({ s.tsqTail g with cyc := { s.cyc with tsWait := s.cyc.tsWait.erase w } } : State).tsQueue w.1.val w.2.1 w.2.2 := by
  rw [State.tsqPop, if_neg (by simp [hv])]
  simp only [show (s.mended 11 (8 * g)).cyc = s.cyc from rfl, hw]
  rfl

/-- A record that is queued goes to the end of its group's queue, and of no other. -/
theorem tsQueue_same (s : State) (p tag : Nat) (t : Int) : ∃ r, (s.tsQueue p tag t).tsqOf (groupOf p) = s.tsqOf (groupOf p) ++ [r] :=
  ⟨_, sget_sset_self _ _ _ _⟩

theorem tsQueue_ne (s : State) (p tag : Nat) (t : Int) {h : Nat} (hne : h ≠ groupOf p) : (s.tsQueue p tag t).tsqOf h = s.tsqOf h :=
  sget_sset_ne _ _ _ _ hne

theorem completes_timeTsqPop {g : Fin 8} {v : Word} {s : State} (hr : s.coresRun = true) (hv : v.getLsbD 0 = true) :
    completes (.timeTsqPop g v) s fun t =>
      (s.cyc.tsWait.all (fun w => groupOf w.1.val ≠ g.val) = true → t.tsqOf g.val = (s.tsqOf g.val).tail) ∧
      (s.cyc.tsWait.any (fun w => groupOf w.1.val = g.val) = true → ∃ r, t.tsqOf g.val = (s.tsqOf g.val).tail ++ [r]) ∧
      (∀ h < 8, h ≠ g.val → t.tsqOf h = s.tsqOf h) ∧ t.regs = s.regs ∧ sameMemories s t := by
  have hb : bitOf v.toNat 0 = true := by rw [bitOf_eq_testBit, BitVec.testBit_toNat, hv]
  cases hw : s.cyc.tsWait.find? (fun w => groupOf w.1.val = g.val) with
  | none =>
    have hp : s.fw (·.tsqPop g.val v.toNat) = s.tsqTail g.val := (fw_of_coresRun hr _).trans (tsqPop_none hb hw)
    have hno : s.cyc.tsWait.any (fun w => groupOf w.1.val = g.val) = false := by
      simpa using List.find?_eq_none.mp hw
    exact completes_of_next (congrArg Host.Outcome.next hp) ⟨fun _ => tsqTail_same s _, fun h => by simp [hno] at h,
      fun h _ hne => tsqTail_ne s hne, rfl, .inl rfl, rfl, rfl, rfl⟩
  | some w =>
    have hp := (fw_of_coresRun hr (·.tsqPop g.val v.toNat)).trans (tsqPop_some hb hw)
    have hg : groupOf w.1.val = g.val := by simpa using List.find?_some hw
    have hmem := List.mem_of_find?_eq_some hw
    refine completes_of_next (congrArg Host.Outcome.next hp) ⟨fun h => ?_, fun _ => ?_, fun h _ hne => ?_, rfl, .inl rfl, rfl, rfl, rfl⟩
    · have := List.all_eq_true.mp h w hmem
      simp [hg] at this
    · obtain ⟨r, hr⟩ := tsQueue_same ({ s.tsqTail g.val with cyc := { s.cyc with tsWait := s.cyc.tsWait.erase w } } : State) w.1.val w.2.1 w.2.2
      rw [hg] at hr
      exact ⟨r, hr.trans (congrArg (· ++ [r]) (tsqTail_same s g.val))⟩
    · exact (tsQueue_ne _ _ _ _ (by rwa [hg])).trans (tsqTail_ne s hne)

/-- Settles O12: PPS inputs, PPS outputs, and the pop of a timestamp queue. -/
theorem ppsAndTimestamps : Obligations.PpsAndTimestamps := by
  refine ⟨fun l i s => completes_ppsInEdge, fun l i s h => ?_, fun i s => completes_ppsInMissing, fun j s => completes_ppsOutPulse,
    fun g v s => completes_timeTsqPop⟩
  have hoff : (s.advance l).ppsEdge i.val = s.advance l := by
    rw [State.ppsEdge, if_pos (by simp [ppsOn_advance, h])]
  exact completes_of_next (congrArg Host.Outcome.next hoff) rfl

end Sys2Proof.Machine
end

section
namespace Sys2Proof.Machine
open Sys2Proof.Safety

/-! ## Bytes in consecutive words (R111, R403) -/

theorem ofLe_lt (b : Bytes) : ofLe b < 2 ^ (8 * b.length) := by
  induction b with
  | nil => simp [ofLe]
  | cons x b ih =>
    have hx := x.isLt
    have hs : ofLe (x :: b) = x.toNat + 256 * ofLe b := rfl
    rw [hs, List.length_cons, Nat.mul_succ, Nat.pow_add]
    omega

theorem leBytes_ofLe (b : Bytes) : leBytes b.length (ofLe b) = b := by
  induction b with
  | nil => rfl
  | cons x b ih =>
    have hx := x.isLt
    have hs : ofLe (x :: b) = x.toNat + 256 * ofLe b := rfl
    have hd : (x.toNat + 256 * ofLe b) / 256 = ofLe b := by omega
    have hm : BitVec.ofNat 8 (x.toNat + 256 * ofLe b) = x := by
      apply BitVec.eq_of_toNat_eq
      rw [BitVec.toNat_ofNat]
      omega
    rw [hs, List.length_cons, leBytes, hd, ih, hm]

/-- Bytes written from `r` on leave every register outside them alone. -/
theorem rd_wrBytes_out (b : Bytes) : ∀ (s : State) (r q : Reg), q.addr < r.addr ∨ r.addr + b.length ≤ q.addr → (s.wrBytes r b).rd q = s.rd q := by
  match b with
  | [] => intro s r q _; rfl
  | [x] | [x, y] | [x, y, z] =>
    intro s r q h
    simp only [List.length_cons, List.length_nil] at h
    exact rd_wr_ne s _ (by omega)
  | x :: y :: z :: w :: t =>
    intro s r q h
    simp only [List.length_cons] at h
    have ih := rd_wrBytes_out t (s.wr r (ofLe [x, y, z, w])) ⟨r.addr + 4, 0⟩ q (by simp only; omega)
    exact ih.trans (rd_wr_ne s _ (by omega))

/-- Whole words of bytes, written and read back. -/
theorem rdBytes_wrBytes (n : Nat) : ∀ (s : State) (r : Reg) (b : Bytes), b.length = 4 * n → (s.wrBytes r b).rdBytes r n = b := by
  induction n with
  | zero =>
    intro s r b h
    rw [List.length_eq_zero_iff.mp h]
    rfl
  | succ n ih =>
    intro s r b h
    match b with
    | [] | [_] | [_, _] | [_, _, _] =>
      simp only [List.length_cons, List.length_nil] at h
      omega
    | x :: y :: z :: w :: t =>
      simp only [List.length_cons] at h
      have hlt : ofLe [x, y, z, w] < 2 ^ 32 := ofLe_lt [x, y, z, w]
      have hword : ((s.wr r (ofLe [x, y, z, w])).wrBytes ⟨r.addr + 4, 0⟩ t).rd r = ofLe [x, y, z, w] := by
        rw [rd_wrBytes_out _ _ _ _ (.inl (by simp only; omega)), rd_wr_self, Nat.mod_eq_of_lt hlt]
      have htail := ih (s.wr r (ofLe [x, y, z, w])) ⟨r.addr + 4, 0⟩ t (by omega)
      show leBytes 4 (((s.wr r (ofLe [x, y, z, w])).wrBytes ⟨r.addr + 4, 0⟩ t).rd r) ++
        ((s.wr r (ofLe [x, y, z, w])).wrBytes ⟨r.addr + 4, 0⟩ t).rdBytes ⟨r.addr + 4, 0⟩ n = _
      rw [hword, htail]
      exact congrArg (· ++ t) (leBytes_ofLe [x, y, z, w])

/-- Bytes read are those of their words. -/
theorem rdBytes_congr {s t : State} (n : Nat) : ∀ r : Reg, (∀ q : Reg, r.addr ≤ q.addr → q.addr < r.addr + 4 * n → t.rd q = s.rd q) →
    t.rdBytes r n = s.rdBytes r n := by
  induction n with
  | zero => exact fun _ _ => rfl
  | succ n ih =>
    intro r h
    rw [State.rdBytes, State.rdBytes, h r (Nat.le_refl _) (by omega), ih ⟨r.addr + 4, 0⟩ fun q h1 h2 => h q (by simp only at h1; omega) (by simp only at h2; omega)]

/-! ## One word of the register file -/

theorem sget_wr_ne (s : State) {r : Reg} (v : Nat) {a : Nat} (h : a ≠ r.addr) (d : Word) : sget (s.wr r v).regs a d = sget s.regs a d :=
  sget_sset_ne _ _ _ _ h

theorem sget_sf_ne (s : State) {r : Reg} {f : Fld} (x : Nat) {a : Nat} (h : a ≠ r.addr + 4 * (f.lo / 32)) (d : Word) :
    sget (s.sf r f x).regs a d = sget s.regs a d := sget_wr_ne s _ (by simpa using h) d

theorem rd_noteCount (s : State) (a n : Nat) (q : Reg) : (s.noteCount a n).rd q = s.rd q := by
  unfold State.noteCount
  split <;> rfl

theorem rd_setBit_ne (s : State) {q r : Reg} (i : Nat) (h : q.addr ≠ r.addr + 4 * (i / 32)) : (s.setBit r i).rd q = s.rd q :=
  rd_sf_ne s ⟨i, 1⟩ 1 h

/-- A counter whose word is none of its HALF, OVER and interrupt words, nor one of event reporting. -/
def CntAt.apart (k : CntAt) : Prop :=
  ¬ evtReg k.cnt.addr ∧ k.cnt.addr ≠ k.half.addr + 4 * (k.bit / 32) ∧ k.cnt.addr ≠ k.ovf.addr + 4 * (k.bit / 32) ∧
    k.cnt.addr ≠ k.ist.addr + 4 * (k.istBit / 32)

/-- A counter rises by what is counted, and rolls over at 2^32 (R97). -/
theorem rd_count_self (s : State) {k : CntAt} (n : Nat) (h : k.apart) : (s.count k n).rd k.cnt = (s.rd k.cnt + n) % 2 ^ 32 := by
  obtain ⟨he, hh, ho, hi⟩ := h
  have h1 : ((s.wr k.cnt (s.rd k.cnt + n)).noteCount k.cnt.addr n).rd k.cnt = (s.rd k.cnt + n) % 2 ^ 32 := by
    rw [rd_noteCount, rd_wr_self]
  unfold State.count
  simp only
  split
  · exact h1
  · split
    · rw [rd_raise _ _ _ _ he, rd_setBit_ne _ _ hi, rd_setBit_ne _ _ ho, h1]
    · rw [rd_setBit_ne _ _ hh, h1]

theorem canC_apart (n : Fin 16) {i : Nat} (hi : i < 28) : (canC (32 + n.val) i).apart := by
  have hn := n.isLt
  simp only [CntAt.apart, evtReg, canC, Rg.CAN_CNT, Rg.CAN_CNT_HALF, Rg.CAN_CNT_OVER, Rg.CAN_INT_STATUS, Rg.SYS_EVT_LOST]
  omega

theorem tblC_apart {i : Nat} (hi : i < 13) : (tblC i).apart := by
  simp only [CntAt.apart, evtReg, tblC, Rg.TBL_CNT, Rg.TBL_CNT_HALF, Rg.TBL_CNT_OVER, Rg.TBL_INT_STATUS, Rg.SYS_EVT_LOST]
  omega

end Sys2Proof.Machine
end

section
namespace Sys2Proof.Machine
open Sys2Proof.Safety

/-! ## The management FIFO (R112) -/

/-- The state after the oldest message of a management FIFO is gone. -/
def State.mfifoTail (s : State) (p : Nat) : State := s.setCanP p { s.canP p with mfifo := (s.canP p).mfifo.tail }

theorem canP_setCanP_same (s : State) (p : Nat) (v : CanPort) : (s.setCanP p v).canP p = v := sget_sset_self _ _ _ _

theorem mfifo_mfifoTail (s : State) (p : Nat) : ((s.mfifoTail p).canP p).mfifo = (s.canP p).mfifo.tail :=
  congrArg CanPort.mfifo (canP_setCanP_same s p _)

/-- A pop with no message waiting removes the oldest. -/
theorem mfifoPop_none {s : State} {n : Fin 16} (h : ∀ w ∈ s.cyc.mfWait, w.1 ≠ n) : s.mfifoPop (32 + n.val) = s.mfifoTail (32 + n.val) := by
  have hw : s.cyc.mfWait.find? (fun w => 32 + w.1.val = 32 + n.val) = none := by
    rw [List.find?_eq_none]
    intro w hm
    have := h w hm
    simp only [decide_eq_true_eq]
    omega
  unfold State.mfifoPop
  rw [hw]
  rfl

/-- A message for a management FIFO with room enters it. -/
theorem toMfifo_room {s : State} {p : Nat} (f : Nat) (img : Bytes) (h : (s.canP p).mfifo.length < 64) :
    s.toMfifo p f img = s.setCanP p { s.canP p with mfifo := (s.canP p).mfifo ++ [img] } := by
  unfold State.toMfifo
  rw [if_neg (by omega)]

/-- A pop of a full FIFO for which one message waits lets that message in. -/
theorem mfifoPop_waiting {s : State} {n : Fin 16} {f : Nat} {img : Bytes} (h : s.cyc.mfWait = [(n, f, img)])
    (hfull : (s.canP (32 + n.val)).mfifo.length = 64) : s.mfifoPop (32 + n.val) =
      (({ s.mfifoTail (32 + n.val) with cyc := { s.cyc with mfWait := [] } } : State).setCanP (32 + n.val)
        { s.canP (32 + n.val) with mfifo := (s.canP (32 + n.val)).mfifo.tail ++ [img] }) := by
  have hpop : s.mfifoPop (32 + n.val) =
      ({ s.mfifoTail (32 + n.val) with cyc := { s.cyc with mfWait := [] } } : State).toMfifo (32 + n.val) f img := by
    unfold State.mfifoPop
    simp only [h, List.find?_cons, decide_true, State.setCanP_cyc, List.erase_cons_head]
    rfl
  have hcan : ({ s.mfifoTail (32 + n.val) with cyc := { s.cyc with mfWait := [] } } : State).canP (32 + n.val) =
      { s.canP (32 + n.val) with mfifo := (s.canP (32 + n.val)).mfifo.tail } := canP_setCanP_same s _ _
  rw [hpop, toMfifo_room _ _ (by rw [hcan]; simp [hfull]), hcan]

theorem completes_canMfifoPop {n : Fin 16} {v : Word} {s : State} (hr : s.coresRun = true) (hv : v.getLsbD 0 = true) :
    ((∀ w ∈ s.cyc.mfWait, w.1 ≠ n) →
      completes (.canMfifoPop n v) s fun t =>
        (t.canP (32 + n.val)).mfifo = (s.canP (32 + n.val)).mfifo.tail ∧ t.regs = s.regs ∧ sameMemories s t) ∧
    (∀ (f : Nat) (img : Bytes), s.cyc.mfWait = [(n, f, img)] → (s.canP (32 + n.val)).mfifo.length = 64 →
      completes (.canMfifoPop n v) s fun t =>
        (t.canP (32 + n.val)).mfifo = (s.canP (32 + n.val)).mfifo.tail ++ [img] ∧ t.cyc.mfWait = [] ∧ t.regs = s.regs ∧ sameMemories s t) := by
  have hb : bitOf v.toNat 0 = true := by rw [bitOf_eq_testBit, BitVec.testBit_toNat, hv]
  have hp : s.fw (fun t => if bitOf v.toNat 0 then t.mfifoPop (32 + n.val) else t) = s.mfifoPop (32 + n.val) :=
    (fw_of_coresRun hr _).trans (if_pos hb)
  refine ⟨fun h => ?_, fun f img h hfull => ?_⟩
  · exact completes_of_next (congrArg Host.Outcome.next (hp.trans (mfifoPop_none h))) ⟨mfifo_mfifoTail s _, rfl, .inl rfl, rfl, rfl, rfl⟩
  · exact completes_of_next (congrArg Host.Outcome.next (hp.trans (mfifoPop_waiting h hfull)))
      ⟨congrArg CanPort.mfifo (canP_setCanP_same _ _ _), rfl, rfl, .inl rfl, rfl, rfl, rfl⟩

/-! ## Priority buffers (R113) -/

theorem completes_prioBufRead {n : Fin 16} {k : Fin 4} {s : State} (hr : s.coresRun = true) : completes (.prioBufRead n k) s fun t =>
    t.fd (Rg.CAN_PRIO_CTRL (32 + n.val) k.val) Fl.CAN_PRIO_CTRL_READ_LOCK = 1 ∧
    t.readPort = ⟨s.rdw (Rg.CAN_PRIO_BUF (32 + n.val) k.val), false⟩ ∧
    sameRegs (· = (Rg.CAN_PRIO_CTRL (32 + n.val) k.val).addr) s t ∧ sameMemories s t := by
  refine completes_of_next (congrArg Host.Outcome.next (fw_of_coresRun hr _)) ⟨?_, rfl, fun a ha d => .inl ?_, .inl rfl, rfl, rfl, rfl⟩
  · exact fd_sf_self s _ _ 1 (by decide)
  · exact sget_sf_ne s 1 ha d

theorem prioKey_fin (n : Fin 16) (k : Fin 4) : prioKey (32 + n.val) k.val = (n, k) := by
  simp [prioKey, Fin.ofNat, Nat.mod_eq_of_lt]

/-- Setting a one-word field `f` of PRIO_CTRL leaves another, `g`, alone. -/
theorem fd_prioCtrl_ne (s : State) (p k x : Nat) (f g : Fld) (hf : f.lo + f.width ≤ 32) (hg : g.lo + g.width ≤ 32)
    (h : g.lo + g.width ≤ f.lo ∨ f.lo + f.width ≤ g.lo) (h0 : 0 < f.width ∧ 0 < g.width) :
    (s.sf (Rg.CAN_PRIO_CTRL p k) f x).fd (Rg.CAN_PRIO_CTRL p k) g = s.fd (Rg.CAN_PRIO_CTRL p k) g :=
  fd_sf_ne s _ f g x hf hg h h0.1 h0.2

/-- The state in which the lock of priority buffer `k` is free. -/
def State.prioFreed (s : State) (p k : Nat) : State := s.sf (Rg.CAN_PRIO_CTRL p k) Fl.CAN_PRIO_CTRL_READ_LOCK 0

theorem prioFreed_lock (s : State) (p k : Nat) : (s.prioFreed p k).fd (Rg.CAN_PRIO_CTRL p k) Fl.CAN_PRIO_CTRL_READ_LOCK = 0 :=
  fd_sf_self s _ _ 0 (by decide)

theorem prioFreed_new (s : State) (p k : Nat) : (s.prioFreed p k).fd (Rg.CAN_PRIO_CTRL p k) Fl.CAN_PRIO_CTRL_NEW =
    s.fd (Rg.CAN_PRIO_CTRL p k) Fl.CAN_PRIO_CTRL_NEW :=
  fd_prioCtrl_ne s p k 0 _ _ (by decide) (by decide) (by decide) (by decide)

theorem prioFreed_full (s : State) (p k : Nat) : (s.prioFreed p k).fd (Rg.CAN_PRIO_CTRL p k) Fl.CAN_PRIO_CTRL_SHADOW_FULL =
    s.fd (Rg.CAN_PRIO_CTRL p k) Fl.CAN_PRIO_CTRL_SHADOW_FULL :=
  fd_prioCtrl_ne s p k 0 _ _ (by decide) (by decide) (by decide) (by decide)

/-- A release with an empty shadow in the cycle of a message: NEW stays. -/
theorem prioRelease_kept {s : State} {p k : Nat} (hsh : s.fd (Rg.CAN_PRIO_CTRL p k) Fl.CAN_PRIO_CTRL_SHADOW_FULL = 0)
    (hin : prioKey p k ∈ s.cyc.prioIn) : s.prioRelease p k =
      { s.prioFreed p k with cyc := { s.cyc with prioOver := s.cyc.prioOver.erase (prioKey p k) } } := by
  have h1 : ¬ (s.prioFreed p k).flag (Rg.CAN_PRIO_CTRL p k) Fl.CAN_PRIO_CTRL_SHADOW_FULL = true := by
    simp [State.flag, prioFreed_full, hsh]
  have h2 : s.cyc.prioIn.contains (prioKey p k) = true := List.contains_iff_mem.mpr hin
  exact (if_neg h1).trans (if_pos h2)

/-- A release with an empty shadow and no message of the same cycle: NEW clears. -/
theorem prioRelease_cleared {s : State} {p k : Nat} (hsh : s.fd (Rg.CAN_PRIO_CTRL p k) Fl.CAN_PRIO_CTRL_SHADOW_FULL = 0)
    (hin : prioKey p k ∉ s.cyc.prioIn) :
    s.prioRelease p k = (s.prioFreed p k).sf (Rg.CAN_PRIO_CTRL p k) Fl.CAN_PRIO_CTRL_NEW 0 := by
  have h1 : ¬ (s.prioFreed p k).flag (Rg.CAN_PRIO_CTRL p k) Fl.CAN_PRIO_CTRL_SHADOW_FULL = true := by
    simp [State.flag, prioFreed_full, hsh]
  have h2 : ¬ s.cyc.prioIn.contains (prioKey p k) = true := fun h => hin (List.contains_iff_mem.mp h)
  exact (if_neg h1).trans (if_neg h2)

/-- The state in which the shadow of priority buffer `k` has moved to its main half. -/
def State.prioMoved (s : State) (p k : Nat) : State :=
  ((s.prioFreed p k).wrBytes (Rg.CAN_PRIO_BUF p k) (sget (s.canP p).shadow k [])).setCanP p { s.canP p with shadow := serase (s.canP p).shadow k }

/-- A release with a full shadow: it moves to the main half, and NEW is set. -/
theorem prioRelease_moved {s : State} {p k : Nat} (hsh : s.fd (Rg.CAN_PRIO_CTRL p k) Fl.CAN_PRIO_CTRL_SHADOW_FULL = 1) :
    s.prioRelease p k = ((s.prioMoved p k).sf (Rg.CAN_PRIO_CTRL p k) Fl.CAN_PRIO_CTRL_SHADOW_FULL 0).sf (Rg.CAN_PRIO_CTRL p k)
      Fl.CAN_PRIO_CTRL_NEW 1 := by
  have h1 : (s.prioFreed p k).flag (Rg.CAN_PRIO_CTRL p k) Fl.CAN_PRIO_CTRL_SHADOW_FULL = true := by
    simp [State.flag, prioFreed_full, hsh]
  exact if_pos h1

/-- The move of the shadow leaves PRIO_CTRL alone. -/
theorem prioMoved_ctrl (s : State) (p : Nat) (k : Fin 4) (f : Fld) (hf : f.lo < 32) :
    (s.prioMoved p k.val).fd (Rg.CAN_PRIO_CTRL p k.val) f = (s.prioFreed p k.val).fd (Rg.CAN_PRIO_CTRL p k.val) f := by
  have hk := k.isLt
  unfold State.fd
  rw [show f.lo / 32 = 0 by omega]
  exact congrArg (fieldOf · _) (rd_wrBytes_out _ _ _ _ (.inl (by simp only [regWord, Rg.CAN_PRIO_CTRL, Rg.CAN_PRIO_BUF, if_true]; omega)))

/-- RELEASE written 1 releases the buffer. -/
theorem exec_prioRelease {n : Fin 16} {k : Fin 4} {v : Word} {s : State} (hr : s.coresRun = true) (hv : v.getLsbD 3 = true) :
    exec (.prioRelease n k v) s = .next (s.prioRelease (32 + n.val) k.val) := by
  have hb : bitOf v.toNat 3 = true := by rw [bitOf_eq_testBit, BitVec.testBit_toNat, hv]
  exact congrArg Host.Outcome.next ((fw_of_coresRun hr _).trans (if_pos hb))

/-- A release with an empty shadow: the lock clears, and NEW with it but for a message of the same cycle. -/
theorem completes_prioRelease_empty {n : Fin 16} {k : Fin 4} {v : Word} {s : State} (hr : s.coresRun = true) (hv : v.getLsbD 3 = true)
    (hsh : s.fd (Rg.CAN_PRIO_CTRL (32 + n.val) k.val) Fl.CAN_PRIO_CTRL_SHADOW_FULL = 0) : completes (.prioRelease n k v) s fun t =>
      t.fd (Rg.CAN_PRIO_CTRL (32 + n.val) k.val) Fl.CAN_PRIO_CTRL_READ_LOCK = 0 ∧
      t.fd (Rg.CAN_PRIO_CTRL (32 + n.val) k.val) Fl.CAN_PRIO_CTRL_NEW =
        (if (n, k) ∈ s.cyc.prioIn then s.fd (Rg.CAN_PRIO_CTRL (32 + n.val) k.val) Fl.CAN_PRIO_CTRL_NEW else 0) ∧
      sameRegs (· = (Rg.CAN_PRIO_CTRL (32 + n.val) k.val).addr) s t := by
  refine completes_of_next (exec_prioRelease hr hv) ?_
  have hregs : sameRegs (· = (Rg.CAN_PRIO_CTRL (32 + n.val) k.val).addr) s (s.prioFreed (32 + n.val) k.val) :=
    fun a ha d => .inl (sget_sf_ne s 0 ha d)
  by_cases hin : (n, k) ∈ s.cyc.prioIn
  · rw [prioRelease_kept hsh (by rwa [prioKey_fin]), if_pos hin]
    exact ⟨prioFreed_lock s _ _, prioFreed_new s _ _, hregs⟩
  · rw [prioRelease_cleared hsh (by rwa [prioKey_fin]), if_neg hin]
    refine ⟨?_, fd_sf_self _ _ _ 0 (by decide), hregs.then fun a ha d => sget_sf_ne _ 0 ha d⟩
    rw [fd_prioCtrl_ne _ _ _ 0 _ _ (by decide) (by decide) (by decide) (by decide), prioFreed_lock]

/-- A release with a full shadow: the shadow stands in the buffer, new. -/
theorem completes_prioRelease_full {n : Fin 16} {k : Fin 4} {v : Word} {s : State} (hr : s.coresRun = true) (hv : v.getLsbD 3 = true)
    (hsh : s.fd (Rg.CAN_PRIO_CTRL (32 + n.val) k.val) Fl.CAN_PRIO_CTRL_SHADOW_FULL = 1)
    (hlen : (sget (s.canP (32 + n.val)).shadow k.val []).length = 80) : completes (.prioRelease n k v) s fun t =>
      t.rdBytes (Rg.CAN_PRIO_BUF (32 + n.val) k.val) 20 = sget (s.canP (32 + n.val)).shadow k.val [] ∧
      t.fd (Rg.CAN_PRIO_CTRL (32 + n.val) k.val) Fl.CAN_PRIO_CTRL_READ_LOCK = 0 ∧
      t.fd (Rg.CAN_PRIO_CTRL (32 + n.val) k.val) Fl.CAN_PRIO_CTRL_NEW = 1 ∧
      t.fd (Rg.CAN_PRIO_CTRL (32 + n.val) k.val) Fl.CAN_PRIO_CTRL_SHADOW_FULL = 0 := by
  have hk := k.isLt
  refine completes_of_next (exec_prioRelease hr hv) ?_
  rw [prioRelease_moved hsh]
  refine ⟨?_, ?_, fd_sf_self _ _ _ 1 (by decide), ?_⟩
  · have hbuf : (s.prioMoved (32 + n.val) k.val).rdBytes (Rg.CAN_PRIO_BUF (32 + n.val) k.val) 20 =
        ((s.prioFreed (32 + n.val) k.val).wrBytes (Rg.CAN_PRIO_BUF (32 + n.val) k.val) (sget (s.canP (32 + n.val)).shadow k.val [])).rdBytes
          (Rg.CAN_PRIO_BUF (32 + n.val) k.val) 20 := rdBytes_congr _ _ fun _ _ _ => rfl
    refine (rdBytes_congr _ _ fun q hq _ => ?_).trans (hbuf.trans (rdBytes_wrBytes 20 _ _ _ hlen))
    have hne : q.addr ≠ (Rg.CAN_PRIO_CTRL (32 + n.val) k.val).addr := by
      simp only [Rg.CAN_PRIO_BUF, Rg.CAN_PRIO_CTRL] at hq ⊢
      omega
    rw [rd_sf_ne _ _ _ hne, rd_sf_ne _ _ _ hne]
  · rw [fd_prioCtrl_ne _ _ _ 1 _ _ (by decide) (by decide) (by decide) (by decide),
      fd_prioCtrl_ne _ _ _ 0 _ _ (by decide) (by decide) (by decide) (by decide), prioMoved_ctrl _ _ _ _ (by decide), prioFreed_lock]
  · rw [fd_prioCtrl_ne _ _ _ 1 _ _ (by decide) (by decide) (by decide) (by decide), fd_sf_self _ _ _ 0 (by decide)]
    rfl

/-! ## Registers of a CAN port as time passes -/

/-- Registers of a CAN port block that time leaves alone: none where happenings are counted. -/
theorem canReg_still {n : Fin 16} {o : Nat} (ho : o < 0x1000) (h : o < 0x24 ∨ 0x40 ≤ o ∧ o < 0x100 ∨ 0x180 ≤ o) :
    ¬ lapseReg (0x10120000 + 0x1000 * n.val + o) := by
  have hn := n.isLt
  rw [lapseReg_iff]
  omega

theorem rd_can_lapse (s : State) (l : Nat) (n : Fin 16) {q : Reg} {o : Nat} (hq : q.addr = 0x10120000 + 0x1000 * n.val + o) (ho : o < 0x1000)
    (h : o < 0x24 ∨ 0x40 ≤ o ∧ o < 0x100 ∨ 0x180 ≤ o) : (s.advance l).rd q = s.rd q :=
  rd_lapse s l (by rw [hq]; exact canReg_still ho h)

/-- Settings of a CAN port stay as time passes. -/
theorem fd_canCfg_lapse (s : State) (l : Nat) (n : Fin 16) (f : Fld) (hf : f.lo < 32) :
    (s.advance l).fd (Rg.CAN_CFG (32 + n.val)) f = s.fd (Rg.CAN_CFG (32 + n.val)) f := by
  unfold State.fd
  rw [show f.lo / 32 = 0 by omega,
    rd_can_lapse s l n (o := 0) (by simp only [regWord, Rg.CAN_CFG, if_true]; omega) (by decide) (by decide)]

theorem mtxState_lapse (s : State) (l : Nat) (n b : Fin 16) : (s.advance l).mtxState (32 + n.val) b.val = s.mtxState (32 + n.val) b.val := by
  have hb := b.isLt
  refine congrArg (fieldOf · _) (rd_can_lapse s l n (o := 0x50 + 4 * b.val) ?_ (by omega) (by omega))
  simp only [regWord_addr, Rg.CAN_MTX_STATUS, Fl.CAN_MTX_STATUS_STATE]
  omega

theorem mtxStage_lapse (s : State) (l : Nat) (n : Fin 16) :
    (s.advance l).rdBytes (Rg.CAN_MTX_STAGE (32 + n.val)) 20 = s.rdBytes (Rg.CAN_MTX_STAGE (32 + n.val)) 20 := by
  refine rdBytes_congr _ _ fun q h1 h2 => ?_
  simp only [Rg.CAN_MTX_STAGE] at h1 h2
  exact rd_can_lapse s l n (o := q.addr - (0x10120000 + 0x1000 * n.val)) (by omega) (by omega) (by omega)

theorem canRefusal_lapse (s : State) (l : Nat) (n : Fin 16) (d : Bytes) :
    (s.advance l).canRefusal (32 + n.val) d = s.canRefusal (32 + n.val) d := by
  have hfmt (f : CanFmt) : (s.advance l).fmtOn (32 + n.val) f = s.fmtOn (32 + n.val) f := by
    cases f with
    | classical => rfl
    | fd => exact congrArg (fun x => decide (x = 1)) (fd_canCfg_lapse s l n _ (by decide))
    | xl => exact congrArg (fun x => decide (x = 1)) (fd_canCfg_lapse s l n _ (by decide))
  unfold State.canRefusal State.canRoute
  simp only [hfmt]

theorem canAsSent_lapse (s : State) (l : Nat) (n : Fin 16) (d : Bytes) :
    (s.advance l).canAsSent (32 + n.val) d = s.canAsSent (32 + n.val) d := by
  unfold State.canAsSent
  rw [fd_canCfg_lapse s l n _ (by decide)]

end Sys2Proof.Machine
end

section
namespace Sys2Proof.Machine
open Sys2Proof.Safety

/-! ## Loading and cancelling a management message (R116, R117) -/

/-- What CAN_MTX_STAGE holds of the message to load: its header and the data bytes it names. -/
def State.mtxImage (s : State) (p : Nat) : Bytes :=
  (s.rdBytes (Rg.CAN_MTX_STAGE p) 20).take (16 + be (s.rdBytes (Rg.CAN_MTX_STAGE p) 20) 12 2)

/-- A sound image goes into the management buffer. -/
theorem mtxLoad_sound {s : State} {p b : Nat} (hmode : s.canMode p = 1) (h1 : s.mtxState p b ≠ 1) (h2 : s.mtxState p b ≠ 2)
    (hok : s.canRefusal p (s.mtxImage p) = none) : s.mtxLoad p b =
      (s.setCanP p { s.canP p with mtx := sset (s.canP p).mtx b [] (s.canAsSent p (s.mtxImage p)) }).setMtx p b 1 := by
  unfold State.mtxLoad
  simp only
  rw [if_neg (not_or.mpr ⟨h1, h2⟩), if_neg (not_not_intro hmode)]
  unfold State.mtxImage at hok
  rw [hok]
  rfl

/-- A buffer that is put PENDING from rest is PENDING, by a write of its status alone. -/
theorem setMtx_pending (s : State) (p b : Nat) : ∃ v, s.setMtx p b 1 = s.wr (Rg.CAN_MTX_STATUS p b) v ∧
    fieldOf (v % 2 ^ 32) Fl.CAN_MTX_STATUS_STATE = 1 := by
  refine ⟨1 + s.rd (Rg.CAN_MTX_STATUS p b) / 8 % 2 * 8, if_neg (by simp), ?_⟩
  simp only [fieldOf, Fl.CAN_MTX_STATUS_STATE]
  omega

theorem mtxState_wr (s : State) (p b v : Nat) : (s.wr (Rg.CAN_MTX_STATUS p b) v).mtxState p b = fieldOf (v % 2 ^ 32) Fl.CAN_MTX_STATUS_STATE :=
  fd_wr_self s _ _ v (by decide)

theorem completes_canMtxLoad {l : Nat} {n b : Fin 16} {s : State} (hr : s.coresRun = true) (hmode : s.canMode (32 + n.val) = 1)
    (h1 : s.mtxState (32 + n.val) b.val ≠ 1) (h2 : s.mtxState (32 + n.val) b.val ≠ 2)
    (hok : s.canRefusal (32 + n.val) (s.mtxImage (32 + n.val)) = none) : completes (.canMtxLoad l n b) s fun t =>
      t.mtxState (32 + n.val) b.val = 1 ∧
      sget (t.canP (32 + n.val)).mtx b.val [] = s.canAsSent (32 + n.val) (s.mtxImage (32 + n.val)) ∧ sameMemories s t := by
  have himg : (s.advance l).mtxImage (32 + n.val) = s.mtxImage (32 + n.val) := by
    unfold State.mtxImage
    rw [mtxStage_lapse]
  have hld : exec (.canMtxLoad l n b) s = .next _ := congrArg Host.Outcome.next ((fw_of_coresRun ((coresRun_advance s l).trans hr)
    (·.mtxLoad (32 + n.val) b.val)).trans (mtxLoad_sound ((fd_canCfg_lapse s l n _ (by decide)).trans hmode) (by rwa [mtxState_lapse])
      (by rwa [mtxState_lapse]) (by rwa [canRefusal_lapse, himg])))
  refine completes_of_next hld ?_
  rw [canAsSent_lapse, himg]
  generalize hw : (s.advance l).setCanP (32 + n.val) _ = u
  have hsame : sameMemories s u := by
    rw [← hw]
    exact sameMemories_advance s l
  have hmtx : sget (u.canP (32 + n.val)).mtx b.val [] = s.canAsSent (32 + n.val) (s.mtxImage (32 + n.val)) := by
    rw [← hw, canP_setCanP_same]
    exact sget_sset_self _ _ _ _
  obtain ⟨v, hv, hst⟩ := setMtx_pending u (32 + n.val) b.val
  rw [hv]
  exact ⟨(mtxState_wr u _ _ v).trans hst, hmtx, hsame⟩

/-- The state in which a PENDING management buffer has been cancelled, to be counted with the end of the cycle. -/
def State.mtxGone (s : State) (p b : Nat) : State :=
  { s.wr (Rg.CAN_MTX_STATUS p b) 4 with cyc := { s.cyc with cancels := mtxKey p b :: s.cyc.cancels.erase (mtxKey p b) } }

theorem mtxCancel_pending {s : State} {p b : Nat} (h : s.mtxState p b = 1) : s.mtxCancel p b = s.mtxGone p b := by
  unfold State.mtxCancel
  rw [h]
  rfl

theorem mtxCancel_active {s : State} {p b : Nat} (h : s.mtxState p b = 2) :
    s.mtxCancel p b = s.sf (Rg.CAN_MTX_STATUS p b) Fl.CAN_MTX_STATUS_CANCEL_HELD 1 := by
  unfold State.mtxCancel
  rw [h]
  rfl

theorem exec_canMtxCancel {l : Nat} {n b : Fin 16} {s : State} (hr : s.coresRun = true) :
    exec (.canMtxCancel l n b) s = .next ((s.advance l).mtxCancel (32 + n.val) b.val) :=
  congrArg Host.Outcome.next (fw_of_coresRun ((coresRun_advance s l).trans hr) _)

/-- A cycle in which one message was cancelled counts it at its end (R117). -/
theorem counted_cancel {s : State} {n b : Fin 16} (h : s.cyc.cancels = [(n, b)]) : counted s s.cycleEnd (Rg.CAN_CNT (32 + n.val) 11) := by
  have hn := n.isLt
  have hdrop : ¬ dropReg (Rg.CAN_CNT (32 + n.val) 11).addr := by
    simp only [dropReg, tsLossReg, canLossReg, evtReg, Rg.CAN_CNT, Rg.SYS_EVT_LOST]
    omega
  have hage : ¬ cntReg (tblC 5) (Rg.CAN_CNT (32 + n.val) 11).addr := by
    simp only [cntReg, tblC, evtReg, Rg.CAN_CNT, Rg.SYS_EVT_LOST, Rg.TBL_CNT, Rg.TBL_CNT_HALF, Rg.TBL_CNT_OVER, Rg.TBL_INT_STATUS]
    omega
  have hover : ¬ canLossReg 8 (Rg.CAN_CNT (32 + n.val) 11).addr := by
    simp only [canLossReg, evtReg, Rg.CAN_CNT, Rg.SYS_EVT_LOST]
    omega
  have hcancel (u : State) : (s.cancelLosses u).rd (Rg.CAN_CNT (32 + n.val) 11) = (u.rd (Rg.CAN_CNT (32 + n.val) 11) + 1) % 2 ^ 32 := by
    have hone : s.cancelLosses u = (u.count (canC (32 + n.val) 11)).setBit (Rg.CAN_INT_STATUS (32 + n.val)) 5 := by
      unfold State.cancelLosses
      rw [h]
      rfl
    rw [hone, rd_setBit_ne _ _ (by simp only [Rg.CAN_CNT, Rg.CAN_INT_STATUS]; omega)]
    exact rd_count_self u 1 (canC_apart n (by decide))
  have hend : s.cycleEnd.rd (Rg.CAN_CNT (32 + n.val) 11) =
      (s.overrunLosses (s.cancelLosses (s.cyc.ages.foldl State.ageSettle s.dropLosses))).rd (Rg.CAN_CNT (32 + n.val) 11) := by
    rw [cycleEnd_eq]
    rfl
  unfold counted
  rw [hend, (onlyTime_overrunLosses s _).rd hover, hcancel, (onlyTime_ages _ _).rd hage, (onlyTime_dropLosses s).rd hdrop]

theorem completes_cancel_pending {l : Nat} {n b : Fin 16} {s : State} (hr : s.coresRun = true) (h : s.mtxState (32 + n.val) b.val = 1) :
    completes (.canMtxCancel l n b) s fun t =>
      t.mtxState (32 + n.val) b.val = 4 ∧ (t.cyc.cancels = [(n, b)] → counted t t.cycleEnd (Rg.CAN_CNT (32 + n.val) 11)) ∧ sameMemories s t := by
  refine completes_of_next (exec_canMtxCancel hr) ?_
  rw [mtxCancel_pending ((mtxState_lapse s l n b).trans h)]
  exact ⟨mtxState_wr _ _ _ 4, counted_cancel, sameMemories_advance s l⟩

theorem completes_cancel_active {l : Nat} {n b : Fin 16} {s : State} (hr : s.coresRun = true) (h : s.mtxState (32 + n.val) b.val = 2) :
    completes (.canMtxCancel l n b) s fun t =>
      t.mtxState (32 + n.val) b.val = 2 ∧ t.fd (Rg.CAN_MTX_STATUS (32 + n.val) b.val) Fl.CAN_MTX_STATUS_CANCEL_HELD = 1 ∧ sameMemories s t := by
  have hact := (mtxState_lapse s l n b).trans h
  refine completes_of_next (exec_canMtxCancel hr) ?_
  rw [mtxCancel_active hact]
  exact ⟨(fd_sf_ne _ _ _ _ 1 (by decide) (by decide) (by decide) (by decide) (by decide)).trans hact, fd_sf_self _ _ _ 1 (by decide),
    sameMemories_advance s l⟩

/-- Settles O30: the management FIFO, the priority buffers, and the management transmit buffers. -/
theorem canBuffers : Obligations.CanBuffers :=
  ⟨fun _ _ _ => completes_canMfifoPop, fun _ _ _ => completes_prioBufRead, fun _ _ _ _ => completes_prioRelease_empty,
    fun _ _ _ _ => completes_prioRelease_full, fun _ _ _ _ => completes_canMtxLoad, fun _ _ _ _ => completes_cancel_pending,
    fun _ _ _ _ => completes_cancel_active⟩

end Sys2Proof.Machine
end

section
namespace Sys2Proof.Machine
open Sys2Proof.Safety

/-! ## Bytes of on-die memory -/

/-- Two memories that agree on the bytes of a range read the same there. -/
theorem ram_congr {s t : State} {a n : Nat} (h : ∀ x, a ≤ x → x < a + n → t.ram x 1 = s.ram x 1) : t.ram a n = s.ram a n := by
  unfold State.ram at *
  refine List.ext_getElem (by simp) fun i h1 h2 => ?_
  rw [sgetN_length] at h1
  rw [sgetN_getElem, sgetN_getElem]
  exact (List.cons.inj (h (a + i) (by omega) (by omega))).1

theorem ram_congr_sram {s t : State} (h : t.sram = s.sram) (a n : Nat) : t.ram a n = s.ram a n := by
  unfold State.ram
  rw [h]

@[simp] theorem ram_length (s : State) (a n : Nat) : (s.ram a n).length = n := sgetN_length _ _ _ _

/-- The first of several bytes. -/
theorem byteAt_ram_zero (s : State) (a n : Nat) : byteAt (s.ram a (n + 1)) 0 = byteAt (s.ram a 1) 0 := rfl

/-- A write of the first byte of a string leaves the others. -/
theorem ram_setRam_head (s : State) (a n : Nat) (b : BitVec 8) : (s.setRam a [b]).ram a (n + 1) = b :: (s.ram a (n + 1)).drop 1 := by
  have h1 := ram_setRam_self s a [b]
  have h2 : (s.setRam a [b]).ram (a + 1) n = s.ram (a + 1) n := ram_setRam_out s a (a + 1) n [b] (.inr (by simp))
  have hhead : (s.setRam a [b]).ram a 1 = [b] := h1
  show (s.setRam a [b]).ram a 1 ++ (s.setRam a [b]).ram (a + 1) n = b :: s.ram (a + 1) n
  rw [hhead, h2]
  rfl

/-! ## Frames of counting -/

theorem OnlyRegsEv.sram {c : Nat → Prop} {s t : State} (h : OnlyRegsEv c s t) : t.sram = s.sram := by
  obtain ⟨r, e, n, l, rfl, -⟩ := h
  rfl

theorem OnlyRegsEv.tbl {c : Nat → Prop} {s t : State} (h : OnlyRegsEv c s t) : t.tbl = s.tbl := by
  obtain ⟨r, e, n, l, rfl, -⟩ := h
  rfl

theorem OnlyRegsEv.same {c : Nat → Prop} {s t u : State} (h : OnlyRegsEv c t u) (hs : sameMemories s t) : sameMemories s u := by
  obtain ⟨r, e, n, l, rfl, -⟩ := h
  exact hs

theorem OnlyTime.memories {c : Nat → Prop} {s t : State} (h : OnlyTime c s t) : t.mgmt = s.mgmt ∧ t.ospi0 = s.ospi0 ∧ t.ospi1 = s.ospi1 := by
  obtain ⟨r, e, k, n, l, m, q, rfl, -⟩ := h
  exact ⟨rfl, rfl, rfl⟩

theorem sram_count (s : State) (k : CntAt) (n : Nat) : (s.count k n).sram = s.sram := (onlyRegsEv_cntReg s k n).sram

theorem tbl_count (s : State) (k : CntAt) (n : Nat) : (s.count k n).tbl = s.tbl := (onlyRegsEv_cntReg s k n).tbl

/-! ## Tables without errors (R174, R347) -/

theorem scrub_of_clean {s : State} (h : clean s) (t bank i : Nat) : s.scrub t bank i = (false, s) := by
  unfold State.scrub
  simp only [badIn_of_clean h, sbeIn_of_clean h]

theorem scrubKey_of_clean {s : State} (h : clean s) (t : Nat) (key : Bytes) : s.scrubKey t key = s := by
  unfold State.scrubKey
  simp only [scrub_of_clean h, ite_self]

/-! ## Learning (R163, R164) -/

/-- The state in which the engine has taken the oldest learning request, for an item of `n` cycles. -/
def State.learnTaken (s : State) (q : List LearnReq) (n : Nat) : State := (s.spend 0 n).setTbl (fun b => { b with learnQ := q })

theorem learnTurn_of_idle {s : State} (hon : s.engineOn = true) (hdma : s.dmaWaits = false) : s.learnTurn = true := by
  simp [State.learnTurn, hon, hdma]

/-- The engine takes the oldest request and does what it comes to. -/
theorem learnProcess_eq {s : State} {r : LearnReq} {q : List LearnReq} {n : Nat} {f : State → State} (hq : s.tbl.learnQ = r :: q)
    (hturn : s.learnTurn = true) (hheld : s.tblHeld 1 = false) (hc : clean s) (hitem : s.learnItem r = (n, f)) (hwork : s.mayWork 0 n = true) :
    s.learnProcess = f (s.learnTaken q n) := by
  have hs : clean (s.spend 0 n) := hc
  unfold State.learnProcess
  rw [hq]
  simp only [hturn, hheld, isBad_of_clean hc, scrubKey_of_clean hc, hitem, not_true, Bool.false_eq_true, or_self, if_false, State.item, hwork,
    if_true, sbeAt_of_clean hs, scrubKey_of_clean hs]
  rfl

/-- An item of fewer cycles fits where one of more does. -/
theorem mayWork_mono {s : State} {a m n : Nat} (ha : a < 3) (hmn : m ≤ n) (h : s.mayWork a n = true) : s.mayWork a m = true := by
  simp only [State.mayWork, ha, if_true, Bool.and_eq_true, decide_eq_true_eq] at h ⊢
  exact ⟨h.1, by omega⟩

theorem beBytes_length (n v : Nat) : (beBytes n v).length = n := by
  induction n with
  | zero => rfl
  | succ n ih => simp [beBytes, ih]

theorem key_length {r : LearnReq} (h : r.mac.length = 6) : r.key.length = 8 := by
  simp [LearnReq.key, beBytes_length, h]

/-- What a request for a known address comes to: the entry at `a` names another port. -/
theorem learnItem_known {s : State} {r : LearnReq} {a : Nat} (hsize : s.tblSize 1 ≠ 0) (hf : s.find 1 r.key = some a)
    (hport : be (s.ram a 16) 10 2 ≠ r.port) : s.learnItem r =
      if ePinned (s.ram a 16) then (3, fun t => t.count (tblC 6))
      else if s.locked 1 (s.bucketOf 1 a) then (2, fun t => t.learnDefer r)
      else (3, fun t => ((t.setBkt (a + 10) (beBytes 2 r.port)).touch a).count (tblC 1)) := by
  unfold State.learnItem
  rw [if_neg hsize, hf]
  simp only
  rw [if_neg hport]

/-- The key of a learned entry is that of its request. -/
theorem eKey_learnedEntry (s : State) {r : LearnReq} (h : r.mac.length = 6) : eKey 1 (s.learnedEntry r) = r.key := by
  have hk := key_length h
  have hdrop : (s.learnedEntry r).drop 2 = r.key ++ (beBytes 2 r.port ++ beBytes 4 (s.fd (Rg.TBL_VLAN r.vid) Fl.TBL_VLAN_FLOOD_ACT)) := rfl
  have htake : ((s.learnedEntry r).drop 2).take 8 = r.key := by
    rw [hdrop, List.take_append_of_le_length (Nat.le_of_eq hk.symm), List.take_of_length_le (Nat.le_of_eq hk)]
  unfold eKey slice
  simp only [if_true, htake, hk]
  simp [zeros]

/-- What a request for a new address comes to, where its first candidate bucket has a free slot and no lock. -/
theorem learnItem_new {s : State} {r : LearnReq} {j : Nat} (hsize : s.tblSize 1 ≠ 0) (hmac : r.mac.length = 6) (hf : s.find 1 r.key = none)
    (hlock : s.locked 1 (s.cands 1 (s.tblActive 1) r.key).1 = false) (hfree : s.freeSlot 1 (s.cands 1 (s.tblActive 1) r.key).1 = some j) :
    s.learnItem r = (3, fun t =>
      (t.putAll 1 [(s.slotAt 1 (s.cands 1 (s.tblActive 1) r.key).1 j, s.learnedEntry r)]).count (tblC 0)) := by
  have hins : s.insertion 1 (s.learnedEntry r) = .done [(s.slotAt 1 (s.cands 1 (s.tblActive 1) r.key).1 j, s.learnedEntry r)] 0 := by
    unfold State.insertion
    simp only [eKey_learnedEntry s hmac, hfree, hlock, Bool.false_eq_true, if_false]
  unfold State.learnItem
  rw [if_neg hsize, hf]
  simp only [hins]
  rfl

/-! ### The three effects -/

/-- Adding 32 to a byte whose bit 5 is clear sets it. -/
theorem bitOf_five_set {f : Nat} (h : bitOf f 5 = false) : bitOf (byteAt [BitVec.ofNat 8 (f + 32)] 0) 5 = true := by
  have hm : byteAt [BitVec.ofNat 8 (f + 32)] 0 = (f + 32) % 256 := by simp [byteAt]
  have h5 : ¬ f / 2 ^ 5 % 2 = 1 := of_decide_eq_false h
  rw [hm]
  exact decide_eq_true (by omega)

/-- A hit leaves the entry active. -/
theorem eActive_touch (s : State) (a : Nat) : eActive ((s.touch a).ram a 16) = true := by
  unfold eActive
  rw [byteAt_ram_zero]
  by_cases hb : bitOf (byteAt (s.ram a 1) 0) 5 = true
  · have ht : (s.touch a).ram a 1 = s.ram a 1 := by
      refine ram_congr_sram ?_ _ _
      simp only [State.touch, hb, if_true]
    rw [ht, hb]
  · have ht : (s.touch a).ram a 1 = [BitVec.ofNat 8 (byteAt (s.ram a 1) 0 + 32)] := by
      rw [← ram_setRam_self s a [BitVec.ofNat 8 (byteAt (s.ram a 1) 0 + 32)]]
      refine ram_congr_sram ?_ _ _
      simp only [State.touch, hb, Bool.false_eq_true, if_false]
    rw [ht]
    exact bitOf_five_set (by simpa using hb)

/-- A hit leaves every byte but the first of its entry alone. -/
theorem ram_touch_out (s : State) {a x n : Nat} (h : x + n ≤ a ∨ a + 1 ≤ x) : (s.touch a).ram x n = s.ram x n := by
  by_cases hb : bitOf (byteAt (s.ram a 1) 0) 5 = true
  · refine ram_congr_sram ?_ _ _
    simp only [State.touch, hb, if_true]
  · rw [← ram_setRam_out s a x n [BitVec.ofNat 8 (byteAt (s.ram a 1) 0 + 32)] (by simpa using h)]
    refine ram_congr_sram ?_ _ _
    simp only [State.touch, hb, Bool.false_eq_true, if_false]

theorem touch_frame (s : State) (a : Nat) : ∃ m c, s.touch a = { s with sram := m, cyc := c } := by
  unfold State.touch
  simp only
  split
  · exact ⟨s.sram, _, rfl⟩
  · exact ⟨_, _, rfl⟩

theorem ram_setBkt_self (s : State) (a : Nat) (b : Bytes) : (s.setBkt a b).ram a b.length = b := ram_setRam_self s a b

theorem ram_setBkt_out (s : State) {a x n : Nat} {b : Bytes} (h : x + n ≤ a ∨ a + b.length ≤ x) : (s.setBkt a b).ram x n = s.ram x n :=
  ram_setRam_out s a x n b h

/-- One write of an insertion, where no memory holds an error. -/
theorem putAll_one {s : State} (hc : clean s) (t a : Nat) (b : Bytes) : s.putAll t [(a, b)] = s.setBkt a b := by
  simp only [State.putAll, List.foldl_cons, List.foldl_nil, State.putOne, scrub_of_clean hc]

/-- A count on a state whose registers are those of `s`. -/
theorem counted_count {s u : State} {i : Nat} (n : Nat) (hi : i < 13) (h : u.regs = s.regs) : counted s (u.count (tblC i) n) (Rg.TBL_CNT i) n := by
  have hs := rd_count_self u n (tblC_apart hi)
  unfold counted
  rw [← rd_congr h]
  exact hs

/-! ### The clauses of learning -/

section
variable {r : LearnReq} {q : List LearnReq} {s : State}

/-- A known, unpinned address moves. -/
theorem completes_learnMove {a : Nat} (hq : s.tbl.learnQ = r :: q) (hturn : s.learnTurn = true) (hheld : s.tblHeld 1 = false) (hc : clean s)
    (hwork : s.mayWork 0 3 = true) (hsize : s.tblSize 1 ≠ 0) (hf : s.find 1 r.key = some a) (hport : be (s.ram a 16) 10 2 ≠ r.port)
    (hpin : ePinned (s.ram a 16) = false) (hlock : s.locked 1 (s.bucketOf 1 a) = false) : completes .learnRequestProcess s fun t =>
      t.tbl.learnQ = q ∧ t.ram (a + 10) 2 = beBytes 2 r.port ∧ eActive (t.ram a 16) = true ∧ counted s t (Rg.TBL_CNT 1) ∧
      t.ram (a + 1) 9 = s.ram (a + 1) 9 ∧ t.ram (a + 12) 4 = s.ram (a + 12) 4 ∧ ramOnly s t a 16 := by
  have hitem := learnItem_known hsize hf hport
  simp only [hpin, hlock, Bool.false_eq_true, if_false] at hitem
  refine completes_of_next (congrArg Host.Outcome.next (learnProcess_eq hq hturn hheld hc hitem hwork)) ?_
  have hlen : (beBytes 2 r.port).length = 2 := beBytes_length 2 _
  generalize hu : s.learnTaken q 3 = u
  have hram (x n : Nat) : u.ram x n = s.ram x n := by rw [← hu]; rfl
  obtain ⟨m, c, hv⟩ := touch_frame (u.setBkt (a + 10) (beBytes 2 r.port)) a
  have hout (x n : Nat) (h1 : x + n ≤ a ∨ a + 1 ≤ x) (h2 : x + n ≤ a + 10 ∨ a + 12 ≤ x) :
      (((u.setBkt (a + 10) (beBytes 2 r.port)).touch a).count (tblC 1)).ram x n = s.ram x n := by
    rw [ram_congr_sram (sram_count _ _ _), ram_touch_out _ h1, ram_setBkt_out _ (by omega), hram]
  refine ⟨?_, ?_, ?_, ?_, hout _ _ (by omega) (by omega), hout _ _ (by omega) (by omega), fun x hx => hout _ _ (by omega) (by omega), ?_⟩
  · rw [tbl_count, hv, ← hu]
    rfl
  · rw [ram_congr_sram (sram_count _ _ _), ram_touch_out _ (by omega), ← hlen]
    exact ram_setBkt_self _ _ _
  · rw [ram_congr_sram (sram_count _ _ _)]
    exact eActive_touch _ _
  · refine counted_count 1 (by decide) ?_
    rw [hv, ← hu]
    rfl
  · obtain ⟨h1, h2, h3⟩ := (onlyRegsEv_cntReg ((u.setBkt (a + 10) (beBytes 2 r.port)).touch a) (tblC 1) 1).time.memories
    rw [h1, h2, h3, hv, ← hu]
    exact ⟨rfl, rfl, rfl⟩

/-- A known, unpinned address in a locked bucket waits again. -/
theorem completes_learnDefer {a : Nat} (hq : s.tbl.learnQ = r :: q) (hturn : s.learnTurn = true) (hheld : s.tblHeld 1 = false) (hc : clean s)
    (hwork : s.mayWork 0 3 = true) (hsize : s.tblSize 1 ≠ 0) (hf : s.find 1 r.key = some a) (hport : be (s.ram a 16) 10 2 ≠ r.port)
    (hpin : ePinned (s.ram a 16) = false) (hlock : s.locked 1 (s.bucketOf 1 a) = true) : completes .learnRequestProcess s fun t =>
      t.tbl.learnQ = q ++ [r] ∧ counted s t (Rg.TBL_CNT 4) ∧ sameMemories s t := by
  have hitem := learnItem_known hsize hf hport
  simp only [hpin, hlock, Bool.false_eq_true, if_false, if_true] at hitem
  refine completes_of_next (congrArg Host.Outcome.next
    (learnProcess_eq hq hturn hheld hc hitem (mayWork_mono (by decide) (by decide) hwork))) ⟨?_, counted_count 1 (by decide) rfl, ?_⟩
  · exact congrArg Tables.learnQ (tbl_count _ _ _)
  · exact (onlyRegsEv_cntReg ((s.learnTaken q 2).setTbl fun b => { b with learnQ := b.learnQ ++ [r] }) (tblC 4) 1).same ⟨.inl rfl, rfl, rfl, rfl⟩

/-- A pinned address only counts. -/
theorem completes_learnPinned {a : Nat} (hq : s.tbl.learnQ = r :: q) (hturn : s.learnTurn = true) (hheld : s.tblHeld 1 = false) (hc : clean s)
    (hwork : s.mayWork 0 3 = true) (hsize : s.tblSize 1 ≠ 0) (hf : s.find 1 r.key = some a) (hport : be (s.ram a 16) 10 2 ≠ r.port)
    (hpin : ePinned (s.ram a 16) = true) : completes .learnRequestProcess s fun t =>
      t.tbl.learnQ = q ∧ counted s t (Rg.TBL_CNT 6) ∧ sameMemories s t := by
  have hitem := learnItem_known hsize hf hport
  simp only [hpin, if_true] at hitem
  refine completes_of_next (congrArg Host.Outcome.next (learnProcess_eq hq hturn hheld hc hitem hwork)) ⟨?_, counted_count 1 (by decide) rfl, ?_⟩
  · exact congrArg Tables.learnQ (tbl_count _ _ _)
  · exact (onlyRegsEv_cntReg (s.learnTaken q 3) (tblC 6) 1).same ⟨.inl rfl, rfl, rfl, rfl⟩

/-- A new address goes into the lowest free slot of its first candidate bucket. -/
theorem completes_learnNew {j : Nat} (hq : s.tbl.learnQ = r :: q) (hturn : s.learnTurn = true) (hheld : s.tblHeld 1 = false) (hc : clean s)
    (hwork : s.mayWork 0 3 = true) (hsize : s.tblSize 1 ≠ 0) (hmac : r.mac.length = 6) (hf : s.find 1 r.key = none)
    (hlock : s.locked 1 (s.cands 1 (s.tblActive 1) r.key).1 = false) (hfree : s.freeSlot 1 (s.cands 1 (s.tblActive 1) r.key).1 = some j) :
    completes .learnRequestProcess s fun t =>
      t.tbl.learnQ = q ∧ counted s t (Rg.TBL_CNT 0) ∧
      t.ram (s.slotAt 1 (s.cands 1 (s.tblActive 1) r.key).1 j) 16 =
        [0xA0, 0] ++ r.key ++ beBytes 2 r.port ++ beBytes 4 (s.fd (Rg.TBL_VLAN r.vid) Fl.TBL_VLAN_FLOOD_ACT) ∧
      ramOnly s t (s.slotAt 1 (s.cands 1 (s.tblActive 1) r.key).1 j) 16 := by
  have hp := learnProcess_eq hq hturn hheld hc (learnItem_new hsize hmac hf hlock hfree) hwork
  have htaken : clean (s.learnTaken q 3) := hc
  simp only [putAll_one htaken] at hp
  refine completes_of_next (congrArg Host.Outcome.next hp) ?_
  have hlen : (s.learnedEntry r).length = 16 := by
    simp [State.learnedEntry, eMake, beBytes_length, hmac]
  generalize s.slotAt 1 (s.cands 1 (s.tblActive 1) r.key).1 j = a
  refine ⟨congrArg Tables.learnQ (tbl_count _ _ _), counted_count 1 (by decide) rfl, ?_, fun x hx => ?_, ?_⟩
  · have hself := ram_setBkt_self (s.learnTaken q 3) a (s.learnedEntry r)
    rw [hlen] at hself
    rw [ram_congr_sram (sram_count _ _ _), hself]
    simp [State.learnedEntry, eMake, LearnReq.key]
  · rw [ram_congr_sram (sram_count _ _ _), ram_setBkt_out _ (by omega)]
    rfl
  · exact (onlyRegsEv_cntReg ((s.learnTaken q 3).setBkt a (s.learnedEntry r)) (tblC 0) 1).time.memories

end

end Sys2Proof.Machine
end

section
namespace Sys2Proof.Machine
open Sys2Proof.Safety

/-! ## The visit of the ageing scan (R166) -/

/-- What a visit puts off to the end of the cycle for slot `j` of bucket `i`: nothing for a free or pinned entry. -/
def State.agePend (s : State) (t i j : Nat) : List (Nat × Nat × Bytes) :=
  if !eValid (s.entry t i j) || ePinned (s.entry t i j) then []
  else [(s.slotAt t i j, if eActive (s.entry t i j) then 0 else entBytes t, s.entry t i j)]

/-- The state with further ageing visits to settle. -/
def State.withAges (s : State) (l : List (Nat × Nat × Bytes)) : State := { s with cyc := { s.cyc with ages := s.cyc.ages ++ l } }

/-- Past the hold after a resumption, a visit passes over the free and the pinned entries alone. -/
theorem ageSkips_iff {e : Bytes} {h n : Nat} (hh : n ≤ h) :
    (¬ eValid e = true ∨ ePinned e = true ∨ (¬ eActive e = true ∧ h < n)) ↔ (!eValid e || ePinned e) = true := by
  have hn : ¬ h < n := Nat.not_lt.mpr hh
  cases eValid e <;> cases ePinned e <;> simp [hn]

theorem ageSlot_eq {s : State} {t : Nat} (i j : Nat) (h : sget s.tbl.scanHold t 0 ≤ s.hoopCount) :
    State.ageSlot t i s j = s.withAges (s.agePend t i j) := by
  unfold State.ageSlot State.agePend
  by_cases hkeep : (!eValid (s.entry t i j) || ePinned (s.entry t i j)) = true
  · rw [if_pos hkeep, if_pos ((ageSkips_iff h).mpr hkeep)]
    simp [State.withAges]
  · rw [if_neg hkeep, if_neg fun hs => hkeep ((ageSkips_iff h).mp hs)]
    rfl

/-- The slots of a bucket, one after the other. -/
theorem ageSlots_eq {t : Nat} (i : Nat) (l : List Nat) : ∀ s : State, sget s.tbl.scanHold t 0 ≤ s.hoopCount →
    l.foldl (State.ageSlot t i) s = s.withAges (l.flatMap (s.agePend t i)) := by
  induction l with
  | nil => intro s _; simp [State.withAges]
  | cons j l ih =>
    intro s h
    have hnext := ih (s.withAges (s.agePend t i j)) h
    rw [List.foldl_cons, ageSlot_eq i j h, hnext, List.flatMap_cons]
    have hsame : (s.withAges (s.agePend t i j)).agePend t i = s.agePend t i := rfl
    rw [hsame]
    simp [State.withAges, List.append_assoc]

/-- The table the scan is at: the first that is owed a visit. -/
theorem scanTable_eq {s : State} {n : Nat} (h1 : 1 ≤ n) (h3 : n ≤ 3) (howed : 0 < s.scanOwed n) (hheld : s.tblHeld n = false)
    (hfirst : ∀ m, 1 ≤ m → m < n → s.scanOwed m = 0) : [1, 2, 3].find? (fun t => s.scanOwed t > 0 && !s.tblHeld t) = some n := by
  have hn : n = 1 ∨ n = 2 ∨ n = 3 := by omega
  rcases hn with rfl | rfl | rfl
  · simp [howed, hheld]
  · simp [howed, hheld, hfirst 1 (by decide) (by decide)]
  · simp [howed, hheld, hfirst 1 (by decide) (by decide), hfirst 2 (by decide) (by decide)]

/-- The state in which the scan of table `n` has gone on by one bucket. -/
def State.scanGone (s : State) (n : Nat) : State := (s.spend 1 2).setScan n ((s.scanNext n + 1) % s.tblSize n) (s.scanOwed n - 1)

theorem ageVisit_eq {s : State} {n : Nat} (hfind : [1, 2, 3].find? (fun t => s.scanOwed t > 0 && !s.tblHeld t) = some n)
    (hturn : s.ageTurn = true) (hwork : s.mayWork 1 2 = true) (hc : clean s) (hlock : s.locked n (s.scanNext n) = false)
    (hhold : sget s.tbl.scanHold n 0 ≤ s.hoopCount) :
    s.ageVisit = (s.scanGone n).withAges ((List.range 4).flatMap (s.agePend n (s.scanNext n))) := by
  have hlock' : (s.scanGone n).locked n (s.scanNext n) = false := hlock
  have hc' : clean (s.scanGone n) := hc
  have hslots := ageSlots_eq (s.scanNext n) (List.range 4) (s.scanGone n) (t := n) hhold
  have hvisit : s.ageVisit = if (s.scanGone n).locked n (s.scanNext n) = true then s.scanGone n else
      (List.range 4).foldl (State.ageSlot n (s.scanNext n)) ((s.scanGone n).scrub n ((s.scanGone n).tblActive n) (s.scanNext n)).2 := by
    unfold State.ageVisit
    rw [hfind]
    simp only [hturn, not_true, if_false, State.item, hwork, if_true]
    rfl
  rw [hvisit, if_neg (by simp [hlock']), scrub_of_clean hc', hslots]
  rfl

/-! ## The end of the cycle for one slot (R166, R167) -/

/-- What stands in a slot after the cycle of its visit. -/
def ageLeft (hit : Bool) (e : Bytes) : Bytes :=
  if !eValid e || ePinned e || hit then e else if eActive e then BitVec.ofNat 8 (byteAt e 0 - 32) :: e.drop 1 else zeros e.length

/-- Whether the visit frees the slot. -/
def ageFrees (hit : Bool) (e : Bytes) : Bool := !(!eValid e || ePinned e || hit) && !eActive e

/-- `t` is `s` but for the bytes of on-die memory at which `out` fails and what the count of `k` freed entries changes; the hits are the same. -/
def Aged (out : Nat → Prop) (k : Nat) (s t : State) : Prop :=
  (∀ x, out x → t.ram x 1 = s.ram x 1) ∧ t.rd (Rg.TBL_CNT 5) = (s.rd (Rg.TBL_CNT 5) + k) % 2 ^ 32 ∧ t.cyc.hits = s.cyc.hits

theorem Aged.of_same_regs {out : Nat → Prop} {s t : State} (hr : ∀ x, out x → t.ram x 1 = s.ram x 1) (hg : t.regs = s.regs)
    (hh : t.cyc.hits = s.cyc.hits) : Aged out 0 s t :=
  ⟨hr, by rw [rd_congr hg, Nat.add_zero, Nat.mod_eq_of_lt (rd_lt _ _)], hh⟩

theorem Aged.trans {out out' : Nat → Prop} {j k : Nat} {s t u : State} (h : Aged out j s t) (g : Aged out' k t u) :
    Aged (fun x => out x ∧ out' x) (j + k) s u := by
  obtain ⟨hr, hc, hh⟩ := h
  obtain ⟨gr, gc, gh⟩ := g
  exact ⟨fun x hx => (gr x hx.2).trans (hr x hx.1), by rw [gc, hc]; omega, gh.trans hh⟩

theorem Aged.mono {out out' : Nat → Prop} {k : Nat} {s t : State} (h : Aged out k s t) (hout : ∀ x, out' x → out x) : Aged out' k s t :=
  ⟨fun x hx => h.1 x (hout x hx), h.2⟩

theorem Aged.ram {out : Nat → Prop} {k : Nat} {s t : State} (h : Aged out k s t) (x : Nat) (hx : out x) : t.ram x 1 = s.ram x 1 := h.1 x hx

theorem Aged.hits {out : Nat → Prop} {k : Nat} {s t : State} (h : Aged out k s t) : t.cyc.hits = s.cyc.hits := h.2.2

theorem ageSettle_hit {w : State} {a z : Nat} {e : Bytes} (h : w.cyc.hits.contains a = true) : w.ageSettle (a, z, e) = w :=
  if_pos (.inl h)

/-- A slot that was not hit and still holds its entry is settled. -/
theorem ageSettles {w : State} {a : Nat} {e : Bytes} (h : w.cyc.hits.contains a = false) (he : w.ram a e.length = e) :
    ¬ (w.cyc.hits.contains a = true ∨ w.ram a e.length ≠ e) :=
  not_or.mpr ⟨Bool.eq_false_iff.mp h, not_not_intro he⟩

/-- The settling of a slot that still holds its entry and was not hit: an active entry becomes idle. -/
theorem ageSettle_idle {w : State} {a : Nat} {e : Bytes} (h : w.cyc.hits.contains a = false) (he : w.ram a e.length = e) :
    w.ageSettle (a, 0, e) = w.setRam a [BitVec.ofNat 8 (byteAt e 0 - 32)] :=
  (if_neg (ageSettles h he)).trans (if_pos rfl)

/-- An idle entry is freed and counted. -/
theorem ageSettle_free {w : State} {a z : Nat} {e : Bytes} (h : w.cyc.hits.contains a = false) (he : w.ram a e.length = e) (hz : z ≠ 0) :
    w.ageSettle (a, z, e) = (w.setRam a (zeros z)).count (tblC 5) :=
  (if_neg (ageSettles h he)).trans (if_neg hz)

theorem entBytes_pos (t : Nat) : 0 < entBytes t := by
  unfold entBytes
  split <;> decide

/-- The settling of one slot that still holds the entry that was visited. -/
theorem settle_slot {w s : State} {t i j : Nat} (hent : w.ram (s.slotAt t i j) (entBytes t) = s.entry t i j) :
    ((s.agePend t i j).foldl State.ageSettle w).ram (s.slotAt t i j) (entBytes t) =
        ageLeft (w.cyc.hits.contains (s.slotAt t i j)) (s.entry t i j) ∧
      Aged (fun x => x < s.slotAt t i j ∨ s.slotAt t i j + entBytes t ≤ x) (b2n (ageFrees (w.cyc.hits.contains (s.slotAt t i j)) (s.entry t i j)))
        w ((s.agePend t i j).foldl State.ageSettle w) := by
  have hpos := entBytes_pos t
  have hlen : (s.entry t i j).length = entBytes t := ram_length _ _ _
  unfold State.agePend
  generalize s.entry t i j = e at *
  generalize s.slotAt t i j = a at *
  generalize entBytes t = n at *
  subst hlen
  by_cases hkeep : (!eValid e || ePinned e) = true
  · rw [if_pos hkeep]
    simp only [ageLeft, ageFrees, hkeep, Bool.true_or, if_true, Bool.not_true, Bool.false_and]
    exact ⟨hent, .of_same_regs (fun _ _ => rfl) rfl rfl⟩
  · rw [if_neg hkeep, List.foldl_cons, List.foldl_nil]
    rw [Bool.not_eq_true] at hkeep
    cases hhit : w.cyc.hits.contains a with
    | true =>
      rw [ageSettle_hit hhit]
      simp only [ageLeft, ageFrees, Bool.or_true, if_true, Bool.not_true, Bool.false_and]
      exact ⟨hent, .of_same_regs (fun _ _ => rfl) rfl rfl⟩
    | false =>
      simp only [ageLeft, ageFrees, hkeep, Bool.or_false, Bool.false_eq_true, if_false, Bool.not_false, Bool.true_and]
      cases hact : eActive e with
      | true =>
        simp only [if_true]
        rw [ageSettle_idle hhit hent]
        refine ⟨?_, .of_same_regs (fun x hx => ram_setRam_out _ _ _ _ _ (by simp only [List.length_cons, List.length_nil]; omega)) rfl rfl⟩
        obtain ⟨m, hm⟩ := Nat.exists_eq_succ_of_ne_zero (Nat.ne_of_gt hpos)
        rw [hm] at hent ⊢
        rw [ram_setRam_head, hent]
      | false =>
        simp only [Bool.false_eq_true, if_false]
        rw [ageSettle_free hhit hent (Nat.ne_of_gt hpos)]
        refine ⟨?_, fun x hx => ?_, rd_count_self _ 1 (tblC_apart (by decide)), (notes_count _ _ 1).2⟩
        · rw [ram_congr_sram (sram_count _ _ _)]
          have hself := ram_setRam_self w a (zeros e.length)
          simpa [zeros] using hself
        · rw [ram_congr_sram (sram_count _ _ _)]
          exact ram_setRam_out _ _ _ _ _ (by simp only [zeros, List.length_replicate]; omega)

/-- The slots of a bucket do not overlap. -/
theorem slotAt_apart (s : State) (t i : Nat) {j k : Nat} (h : j ≠ k) :
    s.slotAt t i j + entBytes t ≤ s.slotAt t i k ∨ s.slotAt t i k + entBytes t ≤ s.slotAt t i j := by
  unfold State.slotAt
  rcases Nat.lt_or_gt_of_ne h with h | h
  · have := Nat.mul_le_mul_right (entBytes t) h
    rw [Nat.succ_mul] at this
    omega
  · have := Nat.mul_le_mul_right (entBytes t) h
    rw [Nat.succ_mul] at this
    omega

theorem length_filter_cons (f : Nat → Bool) (j : Nat) (l : List Nat) : ((j :: l).filter f).length = b2n (f j) + (l.filter f).length := by
  rw [List.filter_cons]
  cases f j
  · simp [b2n]
  · simp [b2n, Nat.add_comm]

/-- The settling of several slots of a bucket that still hold the entries that were visited. -/
theorem settle_slots {s : State} {t i : Nat} (l : List Nat) (hl : l.Nodup) : ∀ w : State,
    (∀ j ∈ l, w.ram (s.slotAt t i j) (entBytes t) = s.entry t i j) →
    (∀ j ∈ l, ((l.flatMap (s.agePend t i)).foldl State.ageSettle w).ram (s.slotAt t i j) (entBytes t) =
        ageLeft (w.cyc.hits.contains (s.slotAt t i j)) (s.entry t i j)) ∧
      Aged (fun x => ∀ j ∈ l, x < s.slotAt t i j ∨ s.slotAt t i j + entBytes t ≤ x)
        (l.filter fun j => ageFrees (w.cyc.hits.contains (s.slotAt t i j)) (s.entry t i j)).length
        w ((l.flatMap (s.agePend t i)).foldl State.ageSettle w) := by
  induction l with
  | nil => exact fun w _ => ⟨by simp, .of_same_regs (fun _ _ => rfl) rfl rfl⟩
  | cons j l ih =>
    intro w hent
    obtain ⟨hj, hl'⟩ := List.nodup_cons.mp hl
    obtain ⟨hslot, hone⟩ := settle_slot (hent j (List.mem_cons_self ..))
    rw [List.flatMap_cons, List.foldl_append]
    generalize (s.agePend t i j).foldl State.ageSettle w = u at *
    have hout : ∀ k ∈ l, ∀ x, s.slotAt t i k ≤ x → x < s.slotAt t i k + entBytes t → x < s.slotAt t i j ∨ s.slotAt t i j + entBytes t ≤ x := by
      intro k hk x h1 h2
      have hjk : j ≠ k := fun h => hj (h ▸ hk)
      have := slotAt_apart s t i hjk
      omega
    obtain ⟨hrest, hall⟩ := ih hl' u fun k hk => (ram_congr fun x h1 h2 => hone.ram x (hout k hk x h1 h2)).trans (hent k (List.mem_cons_of_mem _ hk))
    have hhits := hone.hits
    rw [hhits] at hrest hall
    refine ⟨List.forall_mem_cons.mpr ⟨?_, hrest⟩, ?_⟩
    · refine (ram_congr fun x h1 h2 => hall.ram x fun k hk => ?_).trans hslot
      have := slotAt_apart s t i (j := j) (k := k) fun h => hj (h ▸ hk)
      omega
    · rw [length_filter_cons]
      exact (hone.trans hall).mono fun x hx => List.forall_mem_cons.mp hx

/-! ## The end of the cycle of a visit -/

theorem sram_dropLosses (s : State) : s.dropLosses.sram = s.sram := by
  have hts (u : State) (w : Fin 48 × Nat × Int) : (u.tsLose w.1.val).sram = u.sram := (onlyRegsEv_raiseFirst _ _ _ _ _).sram
  have hmf (u : State) (w : Fin 16 × Nat × Bytes) : (u.mfDrop (32 + w.1.val) w.2.1).sram = u.sram := (onlyRegsEv_mfDrop u w.1 w.2.1).sram
  have hfold {α : Type} (f : State → α → State) (h : ∀ u x, (f u x).sram = u.sram) (l : List α) (u : State) : (l.foldl f u).sram = u.sram :=
    List.foldlRecOn l f (motive := fun v => v.sram = u.sram) rfl fun v hv x _ => (h v x).trans hv
  exact (hfold _ hmf _ _).trans (hfold _ hts _ _)

theorem sram_cancelLosses (s u : State) : (s.cancelLosses u).sram = u.sram :=
  List.foldlRecOn s.cyc.cancels _ (motive := fun v => v.sram = u.sram) rfl fun v hv w _ => (onlyRegsEv_mtxCancelled v w.1).sram.trans hv

theorem sram_overrunLosses (s u : State) : (s.overrunLosses u).sram = u.sram :=
  List.foldlRecOn s.cyc.prioOver _ (motive := fun v => v.sram = u.sram) rfl fun v hv w _ => (onlyRegsEv_prioOverrun v w.1 w.2).sram.trans hv

/-- On-die memory after the end of the cycle is what the ageing visits leave. -/
theorem sram_cycleEnd (s : State) : s.cycleEnd.sram = (s.cyc.ages.foldl State.ageSettle s.dropLosses).sram := by
  rw [cycleEnd_eq]
  exact (sram_overrunLosses _ _).trans (sram_cancelLosses _ _)

/-- The freed entries of a table are counted by the ageing visits alone. -/
theorem rd_ageCount_cycleEnd (s : State) : s.cycleEnd.rd (Rg.TBL_CNT 5) = (s.cyc.ages.foldl State.ageSettle s.dropLosses).rd (Rg.TBL_CNT 5) := by
  rw [cycleEnd_eq]
  have hout : ∀ i, 7 ≤ i → ¬ canLossReg i (Rg.TBL_CNT 5).addr := by
    intro i _
    simp only [canLossReg, evtReg, Rg.TBL_CNT, Rg.SYS_EVT_LOST]
    omega
  exact ((onlyTime_overrunLosses s _).rd (hout 8 (by decide))).trans ((onlyTime_cancelLosses s _).rd (hout 11 (by decide)))

theorem rd_ageCount_dropLosses (s : State) : s.dropLosses.rd (Rg.TBL_CNT 5) = s.rd (Rg.TBL_CNT 5) := by
  refine (onlyTime_dropLosses s).rd ?_
  simp only [dropReg, tsLossReg, canLossReg, evtReg, Rg.TBL_CNT, Rg.SYS_EVT_LOST]
  omega

/-- What the end of the cycle makes of the visit of bucket `i`, where no other visit is held back. -/
theorem cycleEnd_withAges {s u : State} {t i : Nat} {l : List Nat} (hl : l.Nodup) (hages : u.cyc.ages = [])
    (hram : u.sram = s.sram) :
    (∀ j ∈ l, (u.withAges (l.flatMap (s.agePend t i))).cycleEnd.ram (s.slotAt t i j) (entBytes t) =
        ageLeft (u.cyc.hits.contains (s.slotAt t i j)) (s.entry t i j)) ∧
      counted u (u.withAges (l.flatMap (s.agePend t i))).cycleEnd (Rg.TBL_CNT 5)
        (l.filter fun j => ageFrees (u.cyc.hits.contains (s.slotAt t i j)) (s.entry t i j)).length ∧
      (∀ x, (∀ j ∈ l, x < s.slotAt t i j ∨ s.slotAt t i j + entBytes t ≤ x) →
        (u.withAges (l.flatMap (s.agePend t i))).cycleEnd.ram x 1 = u.ram x 1) := by
  generalize hv : u.withAges (l.flatMap (s.agePend t i)) = v
  have hvages : v.cyc.ages = l.flatMap (s.agePend t i) := by
    rw [← hv]
    exact congrArg (· ++ l.flatMap (s.agePend t i)) hages
  have hvram : v.dropLosses.sram = u.sram := by
    rw [sram_dropLosses, ← hv]
    rfl
  have hvcount : v.dropLosses.rd (Rg.TBL_CNT 5) = u.rd (Rg.TBL_CNT 5) := by
    rw [rd_ageCount_dropLosses, ← hv]
    rfl
  have hvhits : v.dropLosses.cyc.hits = u.cyc.hits := by
    rw [(notes_dropLosses v).2, ← hv]
    rfl
  obtain ⟨hleft, hrest, hcount, -⟩ := settle_slots l hl v.dropLosses fun j _ => ram_congr_sram (hvram.trans hram) _ _
  rw [hvhits] at hleft hcount
  have hend (a n : Nat) : v.cycleEnd.ram a n = ((l.flatMap (s.agePend t i)).foldl State.ageSettle v.dropLosses).ram a n :=
    ram_congr_sram (by rw [sram_cycleEnd, hvages]) a n
  refine ⟨fun j hj => (hend _ _).trans (hleft j hj), ?_, fun x hx => ?_⟩
  · unfold counted
    rw [rd_ageCount_cycleEnd, hvages, hcount, hvcount]
  · rw [hend, hrest x hx]
    exact ram_congr_sram hvram _ _

theorem scanOwed_scanGone (s : State) (n : Nat) : (s.scanGone n).scanOwed n = s.scanOwed n - 1 := by
  simp [State.scanGone, State.setScan, State.scanOwed, State.setTbl]

theorem scanNext_scanGone (s : State) (n : Nat) : (s.scanGone n).scanNext n = (s.scanNext n + 1) % s.tblSize n := by
  have hne : n ≠ 8 + n := by omega
  unfold State.scanGone State.setScan
  exact (sget_sset_ne _ _ _ _ hne).trans (sget_sset_self _ _ _ _)

/-- A visit of the ageing scan, and the end of its cycle. -/
theorem completes_ageingVisit {n : Nat} {s : State} (h1 : 1 ≤ n) (h3 : n ≤ 3) (howed : 0 < s.scanOwed n) (hheld : s.tblHeld n = false)
    (hfirst : ∀ m, 1 ≤ m → m < n → s.scanOwed m = 0) (hturn : s.ageTurn = true) (hwork : s.mayWork 1 2 = true) (hc : clean s)
    (hlock : s.locked n (s.scanNext n) = false) (hhold : sget s.tbl.scanHold n 0 ≤ s.hoopCount) (hages : s.cyc.ages = []) :
    completes .ageingVisit s fun t =>
      t.scanOwed n = s.scanOwed n - 1 ∧ t.scanNext n = (s.scanNext n + 1) % s.tblSize n ∧ sameMemories s t ∧
      (∀ j < 4, t.cycleEnd.ram (s.slotAt n (s.scanNext n) j) (entBytes n) =
        ageLeft (s.cyc.hits.contains (s.slotAt n (s.scanNext n) j)) (s.entry n (s.scanNext n) j)) ∧
      counted s t.cycleEnd (Rg.TBL_CNT 5) ((List.range 4).filter fun j =>
        ageFrees (s.cyc.hits.contains (s.slotAt n (s.scanNext n) j)) (s.entry n (s.scanNext n) j)).length ∧
      ramOnly s t.cycleEnd (s.slotAt n (s.scanNext n) 0) (bktBytes n) := by
  have hvisit := ageVisit_eq (scanTable_eq h1 h3 howed hheld hfirst) hturn hwork hc hlock hhold
  refine completes_of_next (congrArg Host.Outcome.next hvisit) ?_
  obtain ⟨hleft, hcount, hrest⟩ := cycleEnd_withAges (s := s) (u := s.scanGone n) (t := n) (i := s.scanNext n) (List.nodup_range (n := 4)) hages rfl
  refine ⟨scanOwed_scanGone s n, scanNext_scanGone s n, ⟨.inl rfl, rfl, rfl, rfl⟩, fun j hj => hleft j (List.mem_range.mpr hj), hcount,
    fun x hx => ?_, (onlyTime_settle _).memories⟩
  refine (hrest x fun j hj => ?_).trans rfl
  have hj4 := List.mem_range.mp hj
  have hup := Nat.mul_le_mul_right (entBytes n) (Nat.succ_le_of_lt hj4)
  rw [Nat.succ_mul] at hup
  unfold bktBytes State.slotAt at hx
  unfold State.slotAt
  omega

/-! ## The statement -/

/-- Settles O36: the engine's item of a learning request is one of four, and an ageing visit leaves to the end of the cycle what becomes of
each of the four slots. -/
theorem tablesLearnAndAge : Obligations.TablesLearnAndAge := by
  refine ⟨fun r q s hq hon hdma hstate hsize hwork hmac hc => ?_,
    fun n s h1 h3 howed hheld hfirst hon hdma hlearn hwork hc hlock hhold hages => ?_⟩
  · have hturn := learnTurn_of_idle hon hdma
    have hheld : s.tblHeld 1 = false := by simp [State.tblHeld, hstate]
    exact ⟨fun a hf hport hpin hlock => completes_learnMove hq hturn hheld hc hwork hsize hf hport hpin hlock,
      fun a hf hport hpin hlock => completes_learnDefer hq hturn hheld hc hwork hsize hf hport hpin hlock,
      fun a hf hport hpin => completes_learnPinned hq hturn hheld hc hwork hsize hf hport hpin,
      fun j hf hlock hfree => completes_learnNew hq hturn hheld hc hwork hsize hmac hf hlock hfree⟩
  · have hturn : s.ageTurn = true := by simp [State.ageTurn, learnTurn_of_idle hon hdma, hlearn]
    obtain ⟨t, ht, howed', hnext, hmem, hleft, hcount, honly⟩ :=
      completes_ageingVisit h1 h3 howed hheld hfirst hturn hwork hc hlock hhold hages
    have hlen (j : Nat) : (s.entry n (s.scanNext n) j).length = entBytes n := ram_length _ _ _
    simp only [ageLeft, hlen] at hleft
    exact ⟨t, ht, howed', hnext, hmem, hleft, hcount, honly⟩

end Sys2Proof.Machine
end
